-- ==== Sys2Proof/Word.lean ====
section
/-! DEFINITION. The word type of the X9 and its plainest arithmetic.

A word is 32 bits (R2), a doubleword 64, an instruction address 57 (R109).  Everything that a spec rule could make one
mend (bit fields, sign extension, byte order) stands in Machine/Bits.lean and Machine/Operands.lean. -/

namespace Sys2Proof

/-- A 32-bit word: the contents of one lane of one register (R26). -/
abbrev Word := BitVec 32

/-- A byte. -/
abbrev Byte := BitVec 8

/-- A 64-bit doubleword: a register pair, a memory doubleword. -/
abbrev DWord := BitVec 64

/-- A 57-bit instruction address (R26, R53). -/
abbrev Pc := BitVec 57

end Sys2Proof
end

