-- ==== Sys2Proof/Syntax.lean ====
section
/-! DEFINITION. The instructions of the Xanhild X9: one constructor for each row of the opcode table.

The first 204 constructors are the encoded 32-bit words of "Instruction words, prefix and MODE" (Table ENC.2) and
the chapters it names.  Their arguments are the word's own fields under the letters of the table, and, first, the
prefix word where Table ENC.4 lets the word carry one.  The remaining 111 constructors are the rows of the table
that no word encodes: the actions of the X9's other agents (engines, slices, front end, host, management), each of
which 95_what_each_step_holds.md makes whole and indivisible.  Their arguments say which object of the state the action is about, and
carry what comes from outside the package. -/

namespace Sys2Proof

/-- The fields of a prefix word (Table ENC.3, R118): zeroing, rounding override, guard and its enable and inversion,
the upper immediate bits X5 and the fourth operand register C. -/
structure Pfx where
  z : Bool
  rv : Bool
  rm : BitVec 3
  g : BitVec 8
  gv : Bool
  gn : Bool
  x5 : BitVec 5
  c : BitVec 8
  deriving DecidableEq, Repr, Inhabited

/-- What READ_STATE names (R364): a register of Table HOST.1 by its offset, or a slot of the task table. -/
inductive ReadTarget where
  | register (offset : Nat)
  | taskSlot (slot : Nat)
  deriving DecidableEq, Repr, Inhabited

/-- The units whose firmware R347 and Table SEC.5 name. -/
inductive FwUnit where
  | securityCore
  | frontEnd
  | admissionUnit
  | management
  | training
  deriving DecidableEq, Repr, Inhabited

/-- A firmware image as STAGE_FW brings it (R347): the unit its header names (none: the header is malformed or names
no unit), the security version number, the digest in the header, the body and the signature. -/
structure FwImage where
  target : Option FwUnit
  svn : BitVec 32
  digest : BitVec 384
  body : List (BitVec 8)
  signature : BitVec 768
  deriving DecidableEq, Repr, Inhabited

/-- How one unit's move ends (R349, Table REL.8, R457): it starts on its new image; it fails to start on it; it is
back on its old image; it starts on neither. -/
inductive FwMove where
  | onNew
  | failedNew
  | backOnOld
  | onNeither
  deriving DecidableEq, Repr, Inhabited

/-- What the controller samples each second for the histograms of Table HOST.5: package power in watts and the
hottest junction temperature in degrees above 0 C. -/
structure LifeSample where
  watts : Nat
  degrees : Int
  deriving DecidableEq, Repr, Inhabited

/-- An algorithm that a NEGOTIATE_ALGORITHMS may offer (R348): the four that the responder has, or another. (Log 160: DESIGN CHOICE, safe.) -/
inductive SpdmAlg where
  | ecdsaP384
  | sha384
  | ecdheP384
  | aes256Gcm
  | other
  deriving DecidableEq, Repr, Inhabited

/-- An SPDM request as it reaches the responder (R348, R458): the version its header carries (0x13 is 1.3), whether
the message and its options are among those of R348 (`supported`; false is a message of another code, or one that asks for an option that is not
supported, under the event whose name is nearest), whether it parses, whether it came inside a secured session, and the fields that the messages of R348 read: the algorithms offered, and the rest of the
message, which is the requester's share of a KEY_EXCHANGE. -/
structure SpdmReq where
  version : BitVec 8
  supported : Bool := true
  wellFormed : Bool
  secured : Bool
  slot : Nat
  index : Nat
  offset : Nat
  length : Nat
  nonce : BitVec 256
  algs : List SpdmAlg
  payload : List (BitVec 8)
  deriving DecidableEq, Repr, Inhabited

/-- Where an error was detected: the site of Table REL.1, by its unit (die, port, core or link), and the sub-unit
numbers within it. -/
structure Site where
  structClass : Nat
  unit : Nat
  sub : Nat
  row : Nat
  deriving DecidableEq, Repr, Inhabited

/-- One detected error (R443): its site, whether the structure's code corrects it, and the place it strikes: a byte
address (memory, L1, scratchpad, accumulator), the length of the access that met it and whether that was a write of part of an HBM half-line, a core
and warp slot, a register and lane, an array half and, of the array row that the site names, whether it is a row of the A latch or one of cells and
banks (`latch`). -/
structure ErrorReport where
  site : Site
  corrected : Bool
  addr : Nat
  len : Nat
  write : Bool
  core : Nat
  slot : Nat
  reg : Nat
  lane : Nat
  half : Nat
  latch : Bool := false
  deriving DecidableEq, Repr, Inhabited

/-- A packet in flight, as R450 tells its losses apart: the request of an outstanding operation, a line of a copy,
a sled, an arrival flit of a pod barrier, or a line of a job, by the model's number for the job and the line's address; with the receiving port. -/
inductive PacketId where
  | request (port op : Nat)
  | copyLine (port copy line : Nat)
  | sled (port sled : Nat)
  | barrierFlit (port barrier : Nat)
  | jobLine (port job line : Nat)
  deriving DecidableEq, Repr, Inhabited

/-- A link that retrains (R451): a die-to-die port by its die and local index, or a Serac link. -/
inductive LinkId where
  | diePort (die port : Nat)
  | serac (link : Nat)
  deriving DecidableEq, Repr, Inhabited

/-- The PCIe AtomicOps (R281). -/
inductive PcieAtomic where
  | fetchAdd
  | swap
  | compareSwap
  deriving DecidableEq, Repr, Inhabited

/-- A host access to device memory (R281): read, write of the given bytes, or AtomicOp of 4 or 8 bytes with its
operands.  The address is virtual in the world; `relaxed` is the Relaxed Ordering attribute, and `seq` its place
in the bridge's order. -/
inductive HostOp where
  | read (bytes : Nat)
  | write (data : List (BitVec 8))
  | atomic (op : PcieAtomic) (wide : Bool) (operand compare : BitVec 64)
  deriving DecidableEq, Repr, Inhabited

structure HostAccess where
  fn : Nat
  world : Nat
  addr : Nat
  op : HostOp
  relaxed : Bool
  deriving DecidableEq, Repr, Inhabited

/-- The instructions: the encoded words, then the actions that no word encodes. -/
inductive Instr where
  /-- NOP (R125). Takes one issue slot and has no other effect. -/
  | nop
  /-- BR (R159). Moves the whole fragment to the instruction address plus 4 times disp22; a target outside the
    pinned segment makes a travelling warp depart. -/
  | br (p : Option Pfx) (h : BitVec 2) (x : BitVec 22)
  /-- BRC (R159). Branches on bit 0 of the condition in each lane of EXEC, splitting the fragment when the lanes
    disagree and the hint is not 11. -/
  | brc (p : Option Pfx) (c : BitVec 8) (h : BitVec 2) (x : BitVec 14)
  /-- BRZ (R159). Branches where the whole 32-bit condition is zero, splitting the fragment when the lanes
    disagree and the hint is not 11. -/
  | brz (p : Option Pfx) (c : BitVec 8) (h : BitVec 2) (x : BitVec 14)
  /-- CALL (R162). Pushes the return address and stack pointer onto the link stack, spilling if needed, and jumps
    relative. -/
  | call (p : Option Pfx) (h : BitVec 2) (x : BitVec 22)
  /-- CALLI (R162). Reads a global entry through the entry cache, pushes a link entry and jumps to the entry's
    code address for the warp's role. -/
  | calli (a : BitVec 8)
  /-- RET (R162). Pops a link entry, refilling from the spill region if needed, restores v254:v255 and jumps to
    the return address. -/
  | ret
  /-- JOIN (R163). Passes an unsplit fragment with EXEC := FRAG, or makes the fragment wait at the innermost
    split's join. -/
  | join
  /-- EXIT (R164). Ends every lane of the fragment's FRAG, frees its split-table entry and may complete a waiting
    join. -/
  | exitw
  /-- YIELD (R165). Passes the fragment over at its warp's next opportunity and moves the warp to the end of the
    round-robin order. -/
  | yield
  /-- SLEEP (R165). Makes the fragment not ready for n clocks. -/
  | sleep (n : BitVec 16)
  /-- TRAP (R165). Enters the launch's trap handler with a class 1 record carrying code n, resuming at the next
    instruction. -/
  | trap (n : BitVec 16)
  /-- BRX (R161). Jumps through entry e of a sealed jump table, moving the fragment whole. -/
  | brx (i : BitVec 8) (t : BitVec 14)
  /-- SETMODE (R127). Writes the warp's MODE from the 24-bit payload. -/
  | setmode (p : BitVec 20)
  /-- IPREF (R166). Requests c instruction lines from the target into the I-cache, dropping lines that cannot be
    fetched. -/
  | ipref (c : BitVec 8) (x : BitVec 14)
  /-- ADD (R167). Adds per element under ET with IntOut wrap or saturation. -/
  | add (p : Option Pfx) (d : BitVec 8) (a : BitVec 8) (b : BitVec 8)
  /-- SUB (R167). Subtracts per element under ET with IntOut. -/
  | sub (p : Option Pfx) (d : BitVec 8) (a : BitVec 8) (b : BitVec 8)
  /-- MUL (R167). Multiplies per element under ET with IntOut. -/
  | mul (p : Option Pfx) (d : BitVec 8) (a : BitVec 8) (b : BitVec 8)
  /-- MULH (R167). Writes the high half of each element's product. -/
  | mulh (p : Option Pfx) (d : BitVec 8) (a : BitVec 8) (b : BitVec 8)
  /-- MAD (R167). Computes a times b plus the third source with one saturation. -/
  | mad (p : Option Pfx) (d : BitVec 8) (a : BitVec 8) (b : BitVec 8)
  /-- AND (R167). Bitwise AND of whole lanes. -/
  | iand (p : Option Pfx) (d : BitVec 8) (a : BitVec 8) (b : BitVec 8)
  /-- OR (R167). Bitwise OR of whole lanes. -/
  | ior (p : Option Pfx) (d : BitVec 8) (a : BitVec 8) (b : BitVec 8)
  /-- XOR (R167). Bitwise XOR of whole lanes. -/
  | ixor (p : Option Pfx) (d : BitVec 8) (a : BitVec 8) (b : BitVec 8)
  /-- SHL (R167). Shifts each element left by b mod n. -/
  | shl (p : Option Pfx) (d : BitVec 8) (a : BitVec 8) (b : BitVec 8)
  /-- SHR (R167). Shifts each element right logically by b mod n. -/
  | shr (p : Option Pfx) (d : BitVec 8) (a : BitVec 8) (b : BitVec 8)
  /-- SAR (R167). Shifts each element right arithmetically by b mod n. -/
  | sar (p : Option Pfx) (d : BitVec 8) (a : BitVec 8) (b : BitVec 8)
  /-- MIN (R167). Writes the lesser element under ET signedness. -/
  | imin (p : Option Pfx) (d : BitVec 8) (a : BitVec 8) (b : BitVec 8)
  /-- MAX (R167). Writes the greater element under ET signedness. -/
  | imax (p : Option Pfx) (d : BitVec 8) (a : BitVec 8) (b : BitVec 8)
  /-- SEL (R167). Selects A or B per lane by bit 0 of the prefix's C register. -/
  | sel (p : Option Pfx) (d : BitVec 8) (a : BitVec 8) (b : BitVec 8)
  /-- ABS (R167). Writes the absolute value of each element under ET. -/
  | iabs (p : Option Pfx) (d : BitVec 8) (a : BitVec 8)
  /-- NEG (R167). Writes the negation of each element under ET. -/
  | ineg (p : Option Pfx) (d : BitVec 8) (a : BitVec 8)
  /-- CMPEQ (R168). Writes 1 where whole lanes are equal, else 0. -/
  | cmpeq (p : Option Pfx) (d : BitVec 8) (a : BitVec 8) (b : BitVec 8)
  /-- CMPNE (R168). Writes 1 where whole lanes differ, else 0. -/
  | cmpne (p : Option Pfx) (d : BitVec 8) (a : BitVec 8) (b : BitVec 8)
  /-- CMPLT (R168). Writes 1 where A is less than B under ET signedness. -/
  | cmplt (p : Option Pfx) (d : BitVec 8) (a : BitVec 8) (b : BitVec 8)
  /-- CMPLE (R168). Writes 1 where A is at most B under ET signedness. -/
  | cmple (p : Option Pfx) (d : BitVec 8) (a : BitVec 8) (b : BitVec 8)
  /-- CLZ (R169). Counts leading zero bits of each lane. -/
  | clz (p : Option Pfx) (d : BitVec 8) (a : BitVec 8)
  /-- POPC (R169). Counts one bits of each lane. -/
  | popc (p : Option Pfx) (d : BitVec 8) (a : BitVec 8)
  /-- BREV (R169). Reverses the bits of each lane. -/
  | brev (p : Option Pfx) (d : BitVec 8) (a : BitVec 8)
  /-- BFX (R170). Extracts a bit field described by B, sign-extended under a signed ET. -/
  | bfx (p : Option Pfx) (d : BitVec 8) (a : BitVec 8) (b : BitVec 8)
  /-- BFI (R170). Inserts a field of A into B under the third-source descriptor. -/
  | bfi (p : Option Pfx) (d : BitVec 8) (a : BitVec 8) (b : BitVec 8)
  /-- PRMT (R170). Permutes bytes of A and old D under the selector nibbles of B. -/
  | prmt (p : Option Pfx) (d : BitVec 8) (a : BitVec 8) (b : BitVec 8)
  /-- DP4 (R171). Adds a four-byte dot product to the accumulator, wrapping modulo 2^32. -/
  | dp4 (p : Option Pfx) (d : BitVec 8) (a : BitVec 8) (b : BitVec 8)
  /-- DP4S (R171). Adds a four-byte dot product to the accumulator with one saturation. -/
  | dp4s (p : Option Pfx) (d : BitVec 8) (a : BitVec 8) (b : BitVec 8)
  /-- DP2 (R171). Adds a two-halfword dot product to the accumulator, wrapping. -/
  | dp2 (p : Option Pfx) (d : BitVec 8) (a : BitVec 8) (b : BitVec 8)
  /-- DP2S (R171). Adds a two-halfword dot product to the accumulator with one saturation. -/
  | dp2s (p : Option Pfx) (d : BitVec 8) (a : BitVec 8) (b : BitVec 8)
  /-- MOV (R169). Copies A to D in each lane. -/
  | mov (p : Option Pfx) (d : BitVec 8) (a : BitVec 8)
  /-- NOT (R169). Writes the bitwise complement of A. -/
  | inot (p : Option Pfx) (d : BitVec 8) (a : BitVec 8)
  /-- ADDI (R172). Adds a signed immediate per element with IntOut. -/
  | addi (p : Option Pfx) (d : BitVec 8) (a : BitVec 8) (i : BitVec 8)
  /-- ANDI (R172). ANDs the lane with a zero-extended immediate. -/
  | andi (p : Option Pfx) (d : BitVec 8) (a : BitVec 8) (i : BitVec 8)
  /-- ORI (R172). ORs the lane with a zero-extended immediate. -/
  | ori (p : Option Pfx) (d : BitVec 8) (a : BitVec 8) (i : BitVec 8)
  /-- XORI (R172). XORs the lane with a zero-extended immediate. -/
  | xori (p : Option Pfx) (d : BitVec 8) (a : BitVec 8) (i : BitVec 8)
  /-- SHLI (R172). Shifts each element left by an immediate count. -/
  | shli (p : Option Pfx) (d : BitVec 8) (a : BitVec 8) (i : BitVec 5)
  /-- SHRI (R172). Shifts each element right logically by an immediate count. -/
  | shri (p : Option Pfx) (d : BitVec 8) (a : BitVec 8) (i : BitVec 5)
  /-- SARI (R172). Shifts each element right arithmetically by an immediate count. -/
  | sari (p : Option Pfx) (d : BitVec 8) (a : BitVec 8) (i : BitVec 5)
  /-- MULI (R172). Multiplies each element by a signed immediate with IntOut. -/
  | muli (p : Option Pfx) (d : BitVec 8) (a : BitVec 8) (i : BitVec 8)
  /-- CMPEQI (R172). Writes 1 where the lane equals the sign-extended immediate. -/
  | cmpeqi (p : Option Pfx) (d : BitVec 8) (a : BitVec 8) (i : BitVec 8)
  /-- CMPLTI (R172). Writes 1 where the lane is below the sign-extended immediate. -/
  | cmplti (p : Option Pfx) (d : BitVec 8) (a : BitVec 8) (i : BitVec 8)
  /-- MOVI (R172). Writes a sign-extended 16-bit immediate. -/
  | movi (p : Option Pfx) (d : BitVec 8) (i : BitVec 16)
  /-- MOVHI (R172). Writes the immediate into bits 31:16, keeping bits 15:0 of D. -/
  | movhi (p : Option Pfx) (d : BitVec 8) (i : BitVec 16)
  /-- MOVX (R173). Reads a special register into D or a pair. -/
  | movx (p : Option Pfx) (d : BitVec 8) (i : BitVec 8)
  /-- XMOV (R175). Writes EXEC, MODE or FLAGS from the lowest active lane of A. -/
  | xmov (p : Option Pfx) (a : BitVec 8) (i : BitVec 8)
  /-- MOVRD (R176). Reads in each lane the lane of the register that the index names. -/
  | movrd (p : Option Pfx) (d : BitVec 8) (i : BitVec 8)
  /-- MOVRW (R176). Writes S into each lane of the register that the index names and sets its DIRTY bit. -/
  | movrw (p : Option Pfx) (s : BitVec 8) (i : BitVec 8)
  /-- ADD64 (R177). Adds two 64-bit pairs modulo 2^64. -/
  | add64 (p : Option Pfx) (d : BitVec 8) (a : BitVec 8) (b : BitVec 8)
  /-- ADD64W (R177). Adds an extended 32-bit value to a 64-bit pair. -/
  | add64w (p : Option Pfx) (d : BitVec 8) (a : BitVec 8) (b : BitVec 8)
  /-- SUB64 (R177). Subtracts two 64-bit pairs. -/
  | sub64 (p : Option Pfx) (d : BitVec 8) (a : BitVec 8) (b : BitVec 8)
  /-- ADDI64 (R177). Adds a sign-extended immediate to a 64-bit pair. -/
  | addi64 (p : Option Pfx) (d : BitVec 8) (a : BitVec 8) (i : BitVec 8)
  /-- LEA4 (R177). Adds B scaled by 4 to a 64-bit address pair. -/
  | lea4 (p : Option Pfx) (d : BitVec 8) (a : BitVec 8) (b : BitVec 8)
  /-- LEA8 (R177). Adds B scaled by 8 to a 64-bit address pair. -/
  | lea8 (p : Option Pfx) (d : BitVec 8) (a : BitVec 8) (b : BitVec 8)
  /-- LEA16 (R177). Adds B scaled by 16 to a 64-bit address pair. -/
  | lea16 (p : Option Pfx) (d : BitVec 8) (a : BitVec 8) (b : BitVec 8)
  /-- MOV64 (R177). Copies a 64-bit pair. -/
  | mov64 (p : Option Pfx) (d : BitVec 8) (a : BitVec 8)
  /-- WMUL (R177). Writes the full 64-bit product of two 32-bit values. -/
  | wmul (p : Option Pfx) (d : BitVec 8) (a : BitVec 8) (b : BitVec 8)
  /-- WMAD (R177). Writes the 64-bit product plus the third-source pair. -/
  | wmad (p : Option Pfx) (d : BitVec 8) (a : BitVec 8) (b : BitVec 8)
  /-- SHL64 (R177). Shifts a 64-bit pair left by B mod 64. -/
  | shl64 (p : Option Pfx) (d : BitVec 8) (a : BitVec 8) (b : BitVec 8)
  /-- SHR64 (R177). Shifts a 64-bit pair right logically by B mod 64. -/
  | shr64 (p : Option Pfx) (d : BitVec 8) (a : BitVec 8) (b : BitVec 8)
  /-- CMPLT64 (R177). Writes 1 where pair A is below pair B. -/
  | cmplt64 (p : Option Pfx) (d : BitVec 8) (a : BitVec 8) (b : BitVec 8)
  /-- CHKB (R179). Tests that each lane's address lies within region mK's bounds, faulting precisely otherwise. -/
  | chkb (d : BitVec 8) (k : BitVec 4) (b : BitVec 6) (n : BitVec 6)
  /-- CHKR (R179). Tests that each lane's value is below n, faulting precisely otherwise. -/
  | chkr (d : BitVec 8) (n : BitVec 16)
  /-- CHKA (R179). Tests a scratchpad or accumulator offset's bound and alignment, faulting precisely otherwise. -/
  | chka (d : BitVec 8) (s : BitVec 1) (e : BitVec 5) (m : BitVec 10)
  /-- FADD (R182). Adds floating-point elements with one rounding. -/
  | fadd (p : Option Pfx) (d : BitVec 8) (a : BitVec 8) (b : BitVec 8)
  /-- FSUB (R182). Subtracts floating-point elements with one rounding. -/
  | fsub (p : Option Pfx) (d : BitVec 8) (a : BitVec 8) (b : BitVec 8)
  /-- FMUL (R182). Multiplies floating-point elements with one rounding. -/
  | fmul (p : Option Pfx) (d : BitVec 8) (a : BitVec 8) (b : BitVec 8)
  /-- FFMA (R182). Computes a times b plus c with one rounding. -/
  | ffma (p : Option Pfx) (d : BitVec 8) (a : BitVec 8) (b : BitVec 8)
  /-- FMIN (R183). Selects the lesser operand, propagating NaNs. -/
  | fmin (p : Option Pfx) (d : BitVec 8) (a : BitVec 8) (b : BitVec 8)
  /-- FMAX (R183). Selects the greater operand, propagating NaNs. -/
  | fmax (p : Option Pfx) (d : BitVec 8) (a : BitVec 8) (b : BitVec 8)
  /-- FMINN (R183). Selects the lesser operand, preferring a number over a NaN. -/
  | fminn (p : Option Pfx) (d : BitVec 8) (a : BitVec 8) (b : BitVec 8)
  /-- FMAXN (R183). Selects the greater operand, preferring a number over a NaN. -/
  | fmaxn (p : Option Pfx) (d : BitVec 8) (a : BitVec 8) (b : BitVec 8)
  /-- FCMPEQ (R184). Writes 1 where the elements are equal. -/
  | fcmpeq (p : Option Pfx) (d : BitVec 8) (a : BitVec 8) (b : BitVec 8)
  /-- FCMPLT (R184). Writes 1 where a is less than b in every element. -/
  | fcmplt (p : Option Pfx) (d : BitVec 8) (a : BitVec 8) (b : BitVec 8)
  /-- FCMPLE (R184). Writes 1 where a is at most b in every element. -/
  | fcmple (p : Option Pfx) (d : BitVec 8) (a : BitVec 8) (b : BitVec 8)
  /-- FCMPUN (R184). Writes 1 where a or b is a NaN. -/
  | fcmpun (p : Option Pfx) (d : BitVec 8) (a : BitVec 8) (b : BitVec 8)
  /-- FABS (R186). Clears the sign bit of each element, never producing poison. -/
  | fabs (p : Option Pfx) (d : BitVec 8) (a : BitVec 8)
  /-- FNEG (R186). Inverts the sign bit of each element, never producing poison. -/
  | fneg (p : Option Pfx) (d : BitVec 8) (a : BitVec 8)
  /-- FCLASS (R185). Writes 1 when every element's class has its bit set in the mask in old D. -/
  | fclass (p : Option Pfx) (d : BitVec 8) (a : BitVec 8)
  /-- FSCALE (R182). Multiplies each element by 2 to an integer power from B. -/
  | fscale (p : Option Pfx) (d : BitVec 8) (a : BitVec 8) (b : BitVec 8)
  /-- FRCP (R187). Writes the correctly rounded reciprocal. -/
  | frcp (p : Option Pfx) (d : BitVec 8) (a : BitVec 8)
  /-- FRSQ (R187). Writes an approximate reciprocal square root. -/
  | frsq (p : Option Pfx) (d : BitVec 8) (a : BitVec 8)
  /-- FSQRT (R187). Writes the correctly rounded square root. -/
  | fsqrt (p : Option Pfx) (d : BitVec 8) (a : BitVec 8)
  /-- FEXP2 (R187). Writes an approximate 2 to the power a. -/
  | fexp2 (p : Option Pfx) (d : BitVec 8) (a : BitVec 8)
  /-- FLOG2 (R187). Writes an approximate base-2 logarithm. -/
  | flog2 (p : Option Pfx) (d : BitVec 8) (a : BitVec 8)
  /-- FSIN (R187). Writes an approximate sine. -/
  | fsin (p : Option Pfx) (d : BitVec 8) (a : BitVec 8)
  /-- FCOS (R187). Writes an approximate cosine. -/
  | fcos (p : Option Pfx) (d : BitVec 8) (a : BitVec 8)
  /-- FTANH (R187). Writes an approximate hyperbolic tangent. -/
  | ftanh (p : Option Pfx) (d : BitVec 8) (a : BitVec 8)
  /-- FRND (R188). Rounds each element to an integral value under EffRM. -/
  | frnd (p : Option Pfx) (d : BitVec 8) (a : BitVec 8)
  /-- FDOT2 (R189). Adds a two-element 16-bit dot product to an FP32 accumulator with one rounding. -/
  | fdot2 (p : Option Pfx) (d : BitVec 8) (a : BitVec 8) (b : BitVec 8)
  /-- CVTF (R190). Converts between FP32, BF16 and F16 under the static rounding mode. -/
  | cvtf (p : Option Pfx) (d : BitVec 8) (a : BitVec 8) (k : BitVec 3) (v : BitVec 2)
  /-- CVTFI (R190). Converts floating-point values to integers under the static rounding mode. -/
  | cvtfi (p : Option Pfx) (d : BitVec 8) (a : BitVec 8) (k : BitVec 3) (v : BitVec 2)
  /-- CVTIF (R190). Converts integers to floating-point values under the static rounding mode. -/
  | cvtif (p : Option Pfx) (d : BitVec 8) (a : BitVec 8) (k : BitVec 3) (v : BitVec 2)
  /-- CVTN (R192). Narrows a run of FP32 registers into one packed register under a format slot. -/
  | cvtn (p : Option Pfx) (d : BitVec 8) (a : BitVec 8) (s : BitVec 3) (k : BitVec 3) (v : BitVec 2)
  /-- CVTW (R193). Widens one packed register into a run of registers under a format slot. -/
  | cvtw (p : Option Pfx) (d : BitVec 8) (a : BitVec 8) (s : BitVec 3) (k : BitVec 3) (v : BitVec 2)
  /-- SHFL (R195). Gives each lane A from source lane B mod 32. -/
  | shfl (p : Option Pfx) (d : BitVec 8) (a : BitVec 8) (b : BitVec 8)
  /-- SHFLUP (R195). Gives each lane A from a lower lane at distance B. -/
  | shflup (p : Option Pfx) (d : BitVec 8) (a : BitVec 8) (b : BitVec 8)
  /-- SHFLDN (R195). Gives each lane A from a higher lane at distance B. -/
  | shfldn (p : Option Pfx) (d : BitVec 8) (a : BitVec 8) (b : BitVec 8)
  /-- SHFLX (R195). Gives each lane A from lane l XOR B. -/
  | shflx (p : Option Pfx) (d : BitVec 8) (a : BitVec 8) (b : BitVec 8)
  /-- VALL (R196). Writes 1 if bit 0 of A is set in every active lane. -/
  | vall (p : Option Pfx) (d : BitVec 8) (a : BitVec 8)
  /-- VANY (R196). Writes 1 if bit 0 of A is set in some active lane. -/
  | vany (p : Option Pfx) (d : BitVec 8) (a : BitVec 8)
  /-- BALLOT (R196). Writes the mask of active lanes whose A has bit 0 set. -/
  | ballot (p : Option Pfx) (d : BitVec 8) (a : BitVec 8)
  /-- REDADD (R197). Writes the exact sum of A over the active lanes, rounded once. -/
  | redadd (p : Option Pfx) (d : BitVec 8) (a : BitVec 8)
  /-- REDMIN (R197). Writes the minimum of A over the active lanes. -/
  | redmin (p : Option Pfx) (d : BitVec 8) (a : BitVec 8)
  /-- REDMAX (R197). Writes the maximum of A over the active lanes. -/
  | redmax (p : Option Pfx) (d : BitVec 8) (a : BitVec 8)
  /-- REDAND (R197). Writes the AND of A over the active lanes. -/
  | redand (p : Option Pfx) (d : BitVec 8) (a : BitVec 8)
  /-- REDOR (R197). Writes the OR of A over the active lanes. -/
  | redor (p : Option Pfx) (d : BitVec 8) (a : BitVec 8)
  /-- SCAN (R198). Writes an inclusive or exclusive prefix reduction in ascending lane order. -/
  | scan (p : Option Pfx) (d : BitVec 8) (a : BitVec 8) (e : BitVec 1) (q : BitVec 2)
  /-- ELECT (R196). Writes the number of the lowest active lane. -/
  | elect (p : Option Pfx) (d : BitVec 8)
  /-- MATCH (R196). Writes per lane the mask of active lanes holding an equal value. -/
  | matchv (p : Option Pfx) (d : BitVec 8) (a : BitVec 8)
  /-- XCHG (R199). Snapshots a register run and waits to exchange it with the same-numbered warp of a partner
    team. -/
  | xchg (d : BitVec 8) (s : BitVec 8) (k : BitVec 4) (n : BitVec 4)
  /-- LDB (R206). Loads a zero-extended byte per lane. -/
  | ldb (p : Option Pfx) (d : BitVec 8) (a : BitVec 8) (o : BitVec 8)
  /-- LDBS (R206). Loads a sign-extended byte per lane. -/
  | ldbs (p : Option Pfx) (d : BitVec 8) (a : BitVec 8) (o : BitVec 8)
  /-- LDH (R206). Loads a zero-extended halfword per lane. -/
  | ldh (p : Option Pfx) (d : BitVec 8) (a : BitVec 8) (o : BitVec 8)
  /-- LDHS (R206). Loads a sign-extended halfword per lane. -/
  | ldhs (p : Option Pfx) (d : BitVec 8) (a : BitVec 8) (o : BitVec 8)
  /-- LDW (R206). Loads a word per lane. -/
  | ldw (p : Option Pfx) (d : BitVec 8) (a : BitVec 8) (o : BitVec 8)
  /-- LDD (R206). Loads 8 bytes per lane into a pair. -/
  | ldd (p : Option Pfx) (d : BitVec 8) (a : BitVec 8) (o : BitVec 8)
  /-- LDQ (R206). Loads 16 bytes per lane into a run of four. -/
  | ldq (p : Option Pfx) (d : BitVec 8) (a : BitVec 8) (o : BitVec 8)
  /-- STB (R206). Stores a byte per active lane. -/
  | stb (p : Option Pfx) (d : BitVec 8) (a : BitVec 8) (o : BitVec 8)
  /-- STH (R206). Stores a halfword per active lane. -/
  | sth (p : Option Pfx) (d : BitVec 8) (a : BitVec 8) (o : BitVec 8)
  /-- STW (R206). Stores a word per active lane. -/
  | stw (p : Option Pfx) (d : BitVec 8) (a : BitVec 8) (o : BitVec 8)
  /-- STD (R206). Stores 8 bytes per active lane from a pair. -/
  | std (p : Option Pfx) (d : BitVec 8) (a : BitVec 8) (o : BitVec 8)
  /-- STQ (R206). Stores 16 bytes per active lane from a run of four. -/
  | stq (p : Option Pfx) (d : BitVec 8) (a : BitVec 8) (o : BitVec 8)
  /-- LDWR (R207). Loads a word through the read-only path from a read-only-stable region. -/
  | ldwr (p : Option Pfx) (d : BitVec 8) (a : BitVec 8) (o : BitVec 8)
  /-- LDQR (R207). Loads 16 bytes through the read-only path from a read-only-stable region. -/
  | ldqr (p : Option Pfx) (d : BitVec 8) (a : BitVec 8) (o : BitVec 8)
  /-- STNT (R208). Stores a word through the write-combining buffer, bypassing L1. -/
  | stnt (p : Option Pfx) (d : BitVec 8) (a : BitVec 8) (o : BitVec 8)
  /-- PREF_L1 (R209). Requests each lane's line into L1, never faulting. -/
  | prefL1 (p : Option Pfx) (a : BitVec 8) (o : BitVec 8)
  /-- PREF_HOME (R209). Requests each lane's line into the home slice or first gateway, never faulting. -/
  | prefHome (p : Option Pfx) (a : BitVec 8) (o : BitVec 8)
  /-- LDACQ (R210). Loads a word with relaxed, acquire or sc order at its scope. -/
  | ldacq (p : Option Pfx) (d : BitVec 8) (a : BitVec 8) (s : BitVec 3) (q : BitVec 3)
  /-- STREL (R210). Stores a word with relaxed, release or sc order at its scope. -/
  | strel (p : Option Pfx) (d : BitVec 8) (a : BitVec 8) (s : BitVec 3) (q : BitVec 3)
  /-- FENCE (R211). Performs the ordering actions of its order at its scope. -/
  | fence (s : BitVec 3) (q : BitVec 3)
  /-- LDS (R213). Loads a scratchpad word per lane. -/
  | lds (p : Option Pfx) (d : BitVec 8) (a : BitVec 8) (o : BitVec 8)
  /-- STS (R213). Stores a scratchpad word per active lane. -/
  | sts (p : Option Pfx) (d : BitVec 8) (a : BitVec 8) (o : BitVec 8)
  /-- LDSQ (R213). Loads 16 scratchpad bytes per lane into a run of four. -/
  | ldsq (p : Option Pfx) (d : BitVec 8) (a : BitVec 8) (o : BitVec 8)
  /-- STSQ (R213). Stores 16 scratchpad bytes per active lane. -/
  | stsq (p : Option Pfx) (d : BitVec 8) (a : BitVec 8) (o : BitVec 8)
  /-- LDM (R214). Loads n whole warp-registers from consecutive memory once all data has arrived. -/
  | ldm (d : BitVec 8) (a : BitVec 8) (n : BitVec 5)
  /-- STM (R214). Stores n whole warp-registers to consecutive memory at core scope. -/
  | stm (d : BitVec 8) (a : BitVec 8) (n : BitVec 5)
  /-- LOCK (R220). At the home slice acquires the lock word or registers the fragment as a waiter. -/
  | lock (t : BitVec 3) (a : BitVec 8) (s : BitVec 3)
  /-- UNLOCK (R221). After release actions, hands the lock word to the oldest waiter or writes 0. -/
  | unlock (t : BitVec 3) (a : BitVec 8) (s : BitVec 3)
  /-- AADD (R216). Atomically adds per element and returns the old value. -/
  | aadd (p : Option Pfx) (d : BitVec 8) (a : BitVec 8) (s : BitVec 3) (q : BitVec 3)
  /-- AMIN (R216). Atomically stores the lesser element and returns the old value. -/
  | amin (p : Option Pfx) (d : BitVec 8) (a : BitVec 8) (s : BitVec 3) (q : BitVec 3)
  /-- AMAX (R216). Atomically stores the greater element and returns the old value. -/
  | amax (p : Option Pfx) (d : BitVec 8) (a : BitVec 8) (s : BitVec 3) (q : BitVec 3)
  /-- AAND (R216). Atomically ANDs and returns the old value. -/
  | aand (p : Option Pfx) (d : BitVec 8) (a : BitVec 8) (s : BitVec 3) (q : BitVec 3)
  /-- AOR (R216). Atomically ORs and returns the old value. -/
  | aor (p : Option Pfx) (d : BitVec 8) (a : BitVec 8) (s : BitVec 3) (q : BitVec 3)
  /-- AXOR (R216). Atomically XORs and returns the old value. -/
  | axor (p : Option Pfx) (d : BitVec 8) (a : BitVec 8) (s : BitVec 3) (q : BitVec 3)
  /-- AXCHG (R216). Atomically exchanges and returns the old value. -/
  | axchg (p : Option Pfx) (d : BitVec 8) (a : BitVec 8) (s : BitVec 3) (q : BitVec 3)
  /-- ACAS (R216). Atomically compares and swaps a word, returning the old value. -/
  | acas (p : Option Pfx) (d : BitVec 8) (a : BitVec 8) (s : BitVec 3) (q : BitVec 3)
  /-- AINC (R216). Atomically increments with wrap to 0 at b and returns the old value. -/
  | ainc (p : Option Pfx) (d : BitVec 8) (a : BitVec 8) (s : BitVec 3) (q : BitVec 3)
  /-- AFADD (R217). Atomically adds FP32 under RNE without flags and returns the old value. -/
  | afadd (p : Option Pfx) (d : BitVec 8) (a : BitVec 8) (s : BitVec 3) (q : BitVec 3)
  /-- AFADD2 (R217). Atomically adds packed 16-bit floats under RNE and returns the old value. -/
  | afadd2 (p : Option Pfx) (d : BitVec 8) (a : BitVec 8) (s : BitVec 3) (q : BitVec 3)
  /-- AADD64 (R216). Atomically adds a 64-bit pair and returns the old value. -/
  | aadd64 (p : Option Pfx) (d : BitVec 8) (a : BitVec 8) (s : BitVec 3) (q : BitVec 3)
  /-- ACAS64 (R216). Atomically compares and swaps a doubleword, returning the old value. -/
  | acas64 (p : Option Pfx) (d : BitVec 8) (a : BitVec 8) (s : BitVec 3) (q : BitVec 3)
  /-- SADD (R216). Atomically adds in the scratchpad and returns the old value. -/
  | sadd (p : Option Pfx) (d : BitVec 8) (a : BitVec 8) (s : BitVec 3) (q : BitVec 3)
  /-- SCAS (R216). Atomically compares and swaps in the scratchpad. -/
  | scas (p : Option Pfx) (d : BitVec 8) (a : BitVec 8) (s : BitVec 3) (q : BitVec 3)
  /-- SXCHG (R216). Atomically exchanges in the scratchpad. -/
  | sxchg (p : Option Pfx) (d : BitVec 8) (a : BitVec 8) (s : BitVec 3) (q : BitVec 3)
  /-- BAR (R227). Arrives at a barrier's open phase and waits for it to complete, writing a status. -/
  | bar (d : BitVec 8) (b : BitVec 8) (s : BitVec 3)
  /-- BARARV (R227). Arrives at a barrier's open phase without waiting. -/
  | bararv (b : BitVec 8) (s : BitVec 3)
  /-- BARWT (R227). Waits for the phase at which the warp arrived and writes a status. -/
  | barwt (d : BitVec 8) (b : BitVec 8) (s : BitVec 3)
  /-- BAREXP (R228). Adds an expected byte count to a barrier's pending count. -/
  | barexp (n : BitVec 8) (b : BitVec 8) (s : BitVec 3)
  /-- WAIT (R230). Holds the fragment until each outstanding counter is at most its field. -/
  | waitc (l : BitVec 6) (s : BitVec 6) (c : BitVec 6) (t : BitVec 6)
  /-- WAITR (R230). Holds the fragment on counter limits taken from a register. -/
  | waitr (a : BitVec 8)
  /-- HWAIT (R235). Holds the fragment until a handle or ring's current handle is free or full with the wanted
    phase. -/
  | hwait (a : BitVec 8) (k : BitVec 1) (f : BitVec 1)
  /-- HSET_FREE (R233). Configures a handle's buffer and sets it free with phase 0. -/
  | hsetFree (h : BitVec 8) (b : BitVec 8) (s : BitVec 6)
  /-- HSET_FULL (R233). Configures a handle's buffer and sets it full with phase 0. -/
  | hsetFull (h : BitVec 8) (b : BitVec 8) (s : BitVec 6)
  /-- HSET_REL (R233). Releases a full handle to free, inverting its phase. -/
  | hsetRel (h : BitVec 8)
  /-- HSET_FILL (R233). Marks a free handle full after completing earlier scratchpad accesses. -/
  | hsetFill (h : BitVec 8)
  /-- RINGADV_NEW (R234). Creates a stage-ring value over c handles from a base handle. -/
  | ringadvNew (d : BitVec 8) (a : BitVec 8) (c : BitVec 7)
  /-- RINGADV (R234). Advances a stage ring's position, inverting its phase at the wrap. -/
  | ringadv (d : BitVec 8) (a : BitVec 8)
  /-- COPY (R237). Checks a copy's ranges at issue and hands it to the core's copy engine. -/
  | copy (d : BitVec 8) (a : BitVec 8) (b : BitVec 8)
  /-- COPYM (R240). Issues a copy whose source line reads may be merged among participant cores. -/
  | copym (d : BitVec 8) (a : BitVec 8) (b : BitVec 8)
  /-- COPYS (R239). Issues a strided copy of rows with source and destination pitches. -/
  | copys (d : BitVec 8) (a : BitVec 8) (b : BitVec 8)
  /-- LAUNCH (R241). Releases at package scope and submits a launch record to the task table, receiving a task
    word. -/
  | launch (d : BitVec 8) (a : BitVec 8)
  /-- JOB (R241). Releases at package scope and submits a job card to the task table, receiving a task word. -/
  | job (d : BitVec 8) (a : BitVec 8)
  /-- JOBWT (R243). Waits until the task named by a task word has completed, then acquires at package scope. -/
  | jobwt (a : BitVec 8)
  /-- TBLD (R246). Queues a load of a B tile into the array's non-current bank. -/
  | tbld (s : BitVec 8) (b : BitVec 3) (k : BitVec 2) (p : BitVec 1) (w : BitVec 1)
  /-- TMMA (R248). Queues one K-step of a 16-row tile product into an accumulator tile. -/
  | tmma (c : BitVec 8) (a : BitVec 8) (s : BitVec 3) (r : BitVec 1) (z : BitVec 1)
  /-- TMMAB (R250). Queues sixteen independent 4 by 16 block products. -/
  | tmmab (c : BitVec 8) (a : BitVec 8) (s : BitVec 3) (r : BitVec 1) (z : BitVec 1)
  /-- TMMAP (R252). Queues a K-step over both arrays of a pair, 128 columns. -/
  | tmmap (c : BitVec 8) (a : BitVec 8) (s : BitVec 3) (r : BitVec 1) (z : BitVec 1)
  /-- TACCZ (R253). Queues zeroing of n consecutive accumulator tiles. -/
  | taccz (c : BitVec 8) (n : BitVec 4) (p : BitVec 1)
  /-- TACCLD (R253). Queues a read of one accumulator tile row into a register pair. -/
  | taccld (d : BitVec 8) (c : BitVec 8) (m : BitVec 4) (p : BitVec 1)
  /-- TACCST (R253). Queues a store of an accumulator tile to scratchpad, a handle or a ring. -/
  | taccst (s : BitVec 8) (c : BitVec 8) (k : BitVec 2) (p : BitVec 1)
  /-- TREL (R254). Empties the matrix reuse latch. -/
  | trel
  /-- TREL_ARRAY (R254). Empties the reuse latch and ends the team's array claim once the queue drains. -/
  | trelArray
  /-- CLOCK (R256). Writes the 64-bit core clock count. -/
  | clock (d : BitVec 8)
  /-- PERF (R257). Writes team counter n. -/
  | perf (d : BitVec 8) (n : BitVec 8)
  /-- ERET (R371). Ends the trap handler and resumes the served fragment from the trap area, or ends the warp. -/
  | eret
  /-- TRAPRD (R258). Writes word n of the served fragment's trap record from the core's copy. -/
  | traprd (d : BitVec 8) (n : BitVec 4)
  /-- SEGQ (R259). Looks up an address in the launch's segment map. -/
  | segq (d : BitVec 8) (a : BitVec 8)
  /-- BKPT (R260). Stops the fragment in the debug stop log when debugging is enabled for its device. -/
  | bkpt (n : BitVec 16)
  /-- SLEEP_EXPIRY (R165). A fragment's SLEEP count runs out and it becomes ready. -/
  | sleepExpiry (core : Nat) (slot : Nat) (fid : Nat)
  /-- WARP_END (R164). A warp with no lane left ends once its counters reach 0, updating barrier counts. -/
  | warpEnd (core : Nat) (slot : Nat)
  /-- LOAD_REPLY (R205). A load or value-returning atomic's data returns, its destinations are written and CNT.LD
    falls. -/
  | loadReply (op : Nat)
  /-- STORE_PERFORMED (R205). A store is performed at its point and CNT.ST falls. -/
  | storePerformed (op : Nat)
  /-- LOCK_HANDOVER_REPLY (R221). The home slice's handover reply reaches a waiting fragment, which performs its
    acquire actions. -/
  | lockHandoverReply (core : Nat) (slot : Nat) (fid : Nat)
  /-- LOCK_RETRY (R220). A LOCK not registered because the waiter list was full is performed again after 1,024
    clocks. -/
  | lockRetry (core : Nat) (slot : Nat) (fid : Nat)
  /-- LOCK_WAITER_WAKE (R220). A write other than UNLOCK reaching a lock word's home wakes its waiters to perform
    LOCK again. -/
  | lockWaiterWake (lockWord : Nat)
  /-- COPY_ACCEPT (R237). The copy engine accepts a queued descriptor after the issuing warp's earlier stores are
    performed and writes back L1 bytes of its ranges. -/
  | copyAccept (id : Nat)
  /-- COPY_LINE_PERFORMED (R238). A copy destination line is performed and its bytes are credited to its barrier
    phase. -/
  | copyLinePerformed (id : Nat) (line : Nat)
  /-- COPY_COMPLETE (R238). A copy whose lines are all performed completes, applies FILL and decrements CNT.CP. -/
  | copyComplete (id : Nat)
  /-- MERGE_ENTRY_CLOSE (R329). A COPYM merge entry closes when all participants request or 512 clocks pass, and
    the line is read and multicast once. -/
  | mergeEntryClose (entry : Nat)
  /-- XCHG_MATCH (R199). Two partner XCHGs match and their runs are transferred in one step. -/
  | xchgMatch (core : Nat) (slot : Nat) (partnerCore : Nat) (partnerSlot : Nat)
  /-- TBLD_LATCH (R246). A queued TBLD loads its tile into the non-current bank, makes it current and frees its
    handle. -/
  | tbldLatch (core : Nat) (half : Nat)
  /-- TILE_RETIRE (R244). A tile instruction finishes in the array and CNT.TL falls. -/
  | tileRetire (core : Nat) (half : Nat)
  /-- TMMAP_FOLLOWER_TIMEOUT (R428). A follower array that has not retired 10 µs after the leader poisons its
    elements and breaks the pair. -/
  | tmmapFollowerTimeout (core : Nat)
  /-- JOB_COMPLETE (R242). A job's writes are all performed and the job completes. -/
  | jobComplete (task : Nat)
  /-- LINK_STACK_REFILL (R162). The spilled link-stack block returns and the RET proceeds. -/
  | linkStackRefill (core : Nat) (slot : Nat)
  /-- COMPARISON_POINT (R44). Both redundant copies reach a comparison point, signatures are compared and gated
    stores released. -/
  | comparisonPoint (team : Nat)
  /-- REDUNDANT_WAIT_TIMEOUT (R448). A copy that waits 10 ms at a comparison point for its twin fails the team
    with class 8 code 0x003. -/
  | redundantWaitTimeout (team : Nat)
  /-- TRANSLATION_WALK_COMPLETE (R410). A stage-one walk ends, filling the TLBs or delivering its fault to every
    merged request. -/
  | translationWalkComplete (quad : Nat) (world : Nat) (page : Nat)
  /-- REMOTE_TIMEOUT (R416). A request unanswered within its timeout fails and leaves an imprecise fault pending. -/
  | remoteTimeout (op : Nat)
  /-- DEMAND_FETCH (R418). The words at a fragment's PC are fetched, or the fragment faults precisely. -/
  | demandFetch (core : Nat) (slot : Nat) (fid : Nat)
  /-- FETCH_AHEAD (R419). A line is fetched ahead of use, or dropped silently when it cannot be fetched. -/
  | fetchAhead (core : Nat) (world : Nat) (line : Nat)
  /-- TRAP_ENTRY (R369). Once register writes and flags are settled, the trap area is written and a handler
    fragment starts. -/
  | trapEntry (core : Nat) (slot : Nat)
  /-- IMPRECISE_FAULT_TAKE (R368). A pending imprecise fault is taken at the warp's next issue opportunity. -/
  | impreciseFaultTake (core : Nat) (slot : Nat)
  /-- FAULT_LOG_ACK (R376). The bridge acknowledges a log record, HEAD advances and MSI-X vector 0 is raised. -/
  | faultLogAck
  /-- QUANTUM_EXPIRY (R299). A team reaches its device's quantum and is pre-empted or starts a new quantum. -/
  | quantumExpiry (team : Nat)
  /-- TEAM_PLACE (R293). A distributor places one team, or resumes a suspended one, on the best eligible core. -/
  | teamPlace (die : Nat)
  /-- DIE_ADVERTISE (R296). A die advertises its free resources and may send an unplaced range or suspended team
    to another die. -/
  | dieAdvertise (die : Nat)
  /-- MIGRATION_MESSAGE (R440). A die receives migrated work and asks the task table to record it as owner. -/
  | migrationMessage (id : Nat)
  /-- MIGRATION_CONFIRM_TIMEOUT (R440). Without confirmation within 100 µs the task table confirms the sender as
    owner again. -/
  | migrationConfirmTimeout (id : Nat)
  /-- TASK_COMPLETE (R279). A task whose teams, copies, jobs and gates are done completes, freeing its slot and
    releasing held tasks. -/
  | taskComplete (task : Nat)
  /-- KICK (R284). The host writes a queue's tail, starting packet reads. -/
  | kick (queue : Nat) (tail : BitVec 32)
  /-- QUEUE_EN_WRITE (R431). Writing EN = 1 restarts a queue from its start state and clears STATUS. -/
  | queueEnWrite (queue : Nat) (value : BitVec 32)
  /-- LAP_REREAD (R284). The CFE re-reads an unmatched packet every 100 ns. -/
  | lapReread (queue : Nat)
  /-- QUEUE_LAP_TIMEOUT (R431). After 64 unmatched re-reads the queue halts with STATUS 0x01. -/
  | queueLapTimeout (queue : Nat)
  /-- PACKET_NOP (R285). A NOP packet is consumed with no action. -/
  | packetNop (queue : Nat)
  /-- PACKET_LAUNCH (R288). A LAUNCH packet's record is checked, resolved and accepted or refused. -/
  | packetLaunch (queue : Nat)
  /-- PACKET_JOB (R285). A JOB packet's card is checked and accepted or refused. -/
  | packetJob (queue : Nat)
  /-- PACKET_FENCE (R285). A FENCE packet holds later packets until earlier tasks of the queue complete. -/
  | packetFence (queue : Nat)
  /-- PACKET_SIGNAL (R285). A SIGNAL packet waits as FENCE, writes VALUE to the event word and may raise the
    queue's interrupt. -/
  | packetSignal (queue : Nat)
  /-- PACKET_WAITEV (R285). A WAITEV packet holds later packets until the event word reaches VALUE. -/
  | packetWaitev (queue : Nat)
  /-- WAITEV_REREAD (R285). A waiting WAITEV re-reads its event word every 1 µs or after a SIGNAL. -/
  | waitevReread (queue : Nat)
  /-- MSIX_UNMASK (R286). Unmasking a vector sends its pending message. -/
  | msixUnmask (fn : Nat) (vector : Nat)
  /-- ADU_KICK (R72). A write to a world's kick word wakes the admission unit. -/
  | aduKick (world : Nat)
  /-- ADU_SLOT_REREAD (R72). The ADU re-reads a not-yet-valid request slot every 100 ns after a kick or every 1
    µs. -/
  | aduSlotReread (world : Nat)
  /-- ADU_REQUEST_CONSUME (R72). The ADU consumes a valid request, testing STATUS, rejecting malformed ones and
    starting checking. -/
  | aduRequestConsume (world : Nat)
  /-- ADMISSION_COMPLETE (R74). Checking ends: the image is sealed, patched and its exports appended, or its pages
    return to open, and the status record is written. -/
  | admissionComplete (world : Nat)
  /-- WORLD_SET (R337). Writes a world descriptor, generating keys for a new world or invalidating translations. -/
  | worldSet
  /-- MAP2 (R337). Maps world-physical pages to clean machine pages, waiting for the pool when empty. -/
  | map2
  /-- UNMAP2 (R338). Removes second-stage pages, invalidates translations and sends frames to the scrub queue. -/
  | unmap2
  /-- INVAL (R339). Invalidates stage-one translations of a range or of the whole world. -/
  | inval
  /-- TEARDOWN (R342). Ends a world: frees its tables, scrubs its frames and erases its keys. -/
  | teardown
  /-- PLOUGH_PAGE_CLEAN (R70). The Plough finishes scrubbing a page and sets CLEAN, which may resume waiting
    allocations. -/
  | ploughPageClean (die : Nat)
  /-- PLOUGH_TIMEOUT (R453). A Plough that stops answering for 100 ms becomes a lasting site. -/
  | ploughTimeout (die : Nat)
  /-- PLOUGH_RESTART (R453). A stopped Plough attempts to restart every second. -/
  | ploughRestart (die : Nat)
  /-- GENINC (R357). Writing w increments the base generation of world w. -/
  | geninc (value : BitVec 32)
  /-- VDEV_REG_WRITE (R435). A physical-function write to a virtual-device register is accepted, adjusted or
    discarded. -/
  | vdevRegWrite (vdev : Nat) (high : Bool) (value : BitVec 32)
  /-- VDEV_DISABLE (R436). Writing EN = 0 to a virtual device halts its queues and refuses its device-side tasks. -/
  | vdevDisable (vdev : Nat)
  /-- VF_ENABLE_CLEAR (R437). Clearing VF Enable disables virtual devices 1-63, terminates their work and may tear
    down worlds. -/
  | vfEnableClear
  /-- DBGEN_WRITE (R360). Writing DBGEN enables BKPT per device, and clearing a bit resumes that device's stopped
    fragments. -/
  | dbgenWrite (value : BitVec 64)
  /-- RESUME (R360). Writing RESUME readies the stopped fragments of a warp and clears its log entry. -/
  | resume (value : BitVec 32)
  /-- FAULT_LOG_ENABLE (R376). Writing the fault log EN = 1 resets HEAD and TAIL and starts logging. -/
  | faultLogEnable (value : BitVec 32)
  /-- REGISTER_WRITE (R4). A write to a register without behaviour of its own updates it under its access code. -/
  | registerWrite (fn : Nat) (offset : Nat) (value : BitVec 32)
  /-- HOST_WINDOW_ACCESS (R351). The bridge forwards a host access to a group member's window over the Serac
    links. -/
  | hostWindowAccess (member : Nat) (offset : Nat) (write : Bool) (value : BitVec 32)
  /-- SESSION_LOCK_WRITE (R362). A port requests or releases the management session. -/
  | sessionLockWrite (port : Nat) (value : BitVec 32)
  /-- SESSION_TIMEOUT (R459). The session is released after 10 s without a command from the holder. -/
  | sessionTimeout
  /-- READ_LIFE (R363). Returns the lifetime records. -/
  | readLife (port : Nat)
  /-- READ_STATE (R364). Returns a snapshot of a register or task-table slot to the session holder. -/
  | readState (port : Nat) (target : ReadTarget)
  /-- STAGE_FW (R456). Verifies a firmware image into the staging buffer. -/
  | stageFw (port : Nat) (image : FwImage)
  /-- ACTIVATE_FW (R456). Starts moving units onto staged firmware. -/
  | activateFw (port : Nat)
  /-- FW_UNIT_MOVE (R349). A unit finishes moving onto its new image, or back, and the measurement set switches
    after the last. -/
  | fwUnitMove (unit : FwUnit) (result : FwMove)
  /-- LIFETIME_ACCUMULATE (R363). The controller accumulates lifetime counts every 1 s. -/
  | lifetimeAccumulate (sample : LifeSample)
  /-- LIFETIME_COMMIT (R363). The controller commits lifetime records and the site table every 10 min. -/
  | lifetimeCommit
  /-- ORDERLY_SHUTDOWN (R363). An orderly shutdown commits the lifetime records. -/
  | orderlyShutdown
  /-- GET_VERSION (R348). SPDM request returning the supported version. -/
  | getVersion (req : SpdmReq)
  /-- GET_CAPABILITIES (R348). SPDM request returning capabilities. -/
  | getCapabilities (req : SpdmReq)
  /-- NEGOTIATE_ALGORITHMS (R348). SPDM request negotiating algorithms. -/
  | negotiateAlgorithms (req : SpdmReq)
  /-- GET_DIGESTS (R348). SPDM request returning certificate chain digests. -/
  | getDigests (req : SpdmReq)
  /-- GET_CERTIFICATE (R348). SPDM request returning a certificate chain. -/
  | getCertificate (req : SpdmReq)
  /-- CHALLENGE (R348). SPDM request authenticating the responder. -/
  | challenge (req : SpdmReq)
  /-- GET_MEASUREMENTS (R349). SPDM request returning signed measurement blocks from the current set. -/
  | getMeasurements (req : SpdmReq)
  /-- KEY_EXCHANGE (R348). SPDM request starting a secured session by ECDHE. -/
  | keyExchange (req : SpdmReq)
  /-- FINISH (R348). SPDM request completing a secured session. -/
  | finish (req : SpdmReq)
  /-- END_SESSION (R348). SPDM request ending a secured session. -/
  | endSession (req : SpdmReq)
  /-- COLD_RESET (R365). Resets the package to 500 MHz reduced service, applying pending retirements to the
    configuration block. -/
  | coldReset
  /-- FUNCTION_LEVEL_RESET (R459). A function-level reset of the physical function releases a session held by port
    0. -/
  | functionLevelReset
  /-- HOT_RESET (R459). A hot reset of the link releases a session held by port 0. -/
  | hotReset
  /-- MCTP_ENDPOINT_LOSS (R459). Loss of the MCTP endpoint releases a session held by port 1 or 2. -/
  | mctpEndpointLoss (port : Nat)
  /-- SECURITY_CORE_RESTART (R458). A security core restart ends secured sessions and enters ownership mode. -/
  | securityCoreRestart (up : Bool)
  /-- DIE_TRAINED (R365). A die whose HBM and links have trained sets its DIES bit. -/
  | dieTrained (die : Nat)
  /-- LINK_TRAINED (R352). A Serac link trains, checks its far end's pod index and sets LINKUP. -/
  | linkTrained (link : Nat) (farIndex : Nat)
  /-- TRAINING_DEADLINE (R454). At 2 s after cold reset the package enters service with what has trained, or stays
    out of service. -/
  | trainingDeadline
  /-- STRUCTURE_ERROR (R443). A protected structure detects a corrected or uncorrectable error and handles it by
    class. -/
  | structureError (report : ErrorReport)
  /-- PACKET_TAG_FAILURE (R450). A packet whose GCM tag fails is discarded and retransmitted, or lost after the
    third failure. -/
  | packetTagFailure (packet : PacketId)
  /-- LINK_RETRAIN (R451). A link or port whose replays fail 8 times retrains, or goes down if retraining fails. -/
  | linkRetrain (link : LinkId)
  /-- REPLICA_PIN (R307). The distributor pins a segment replica on a free core, loading its code and zeroing its
    scratch. -/
  | replicaPin (task : Nat)
  /-- SLED_INJECT (R314). At dispatch one team per 100 clocks enters as a start sled for segment 0. -/
  | sledInject (task : Nat)
  /-- SLED_STEER (R312). A steering slice sends an arriving sled to the replica of least depth. -/
  | sledSteer (sled : Nat)
  /-- SLED_ACCEPT (R313). A pinned core puts an arriving sled in its arrival queue or its overflow ring. -/
  | sledAccept (sled : Nat)
  /-- RING_REFILL (R313). A freed arrival-queue entry is refilled from the overflow ring. -/
  | ringRefill (core : Nat)
  /-- SLED_ADMIT (R316). The oldest queued sled is admitted when a warp slot and registers are free. -/
  | sledAdmit (core : Nat)
  /-- REPLICATION_WATCH (R317). A segment whose overflow use stays above THRESH for 100 µs gains a replica and a
    new epoch. -/
  | replicationWatch (task : Nat) (segment : Nat)
  /-- SLED_TIMEOUT (R439). A sled short of flits 100 µs after its header is discarded and its warp terminated. -/
  | sledTimeout (sled : Nat)
  /-- HOST_MEMORY_ACCESS (R281). A host read, write or PCIe AtomicOp reaches device memory and is performed at its
    home, in bridge order unless Relaxed Ordering is set. -/
  | hostMemoryAccess (access : HostAccess)
  /-- SCOREBOARD_RELEASE (R158). An instruction's latency runs out and the scoreboard releases its destinations,
    making dependent fragments ready. -/
  | scoreboardRelease (core : Nat) (slot : Nat) (hold : Nat)
  /-- ENTRY_CACHE_FILL (R162). A CALLI that missed the package's entry cache receives its entry from die 0 and
    proceeds. -/
  | entryCacheFill (core : Nat) (slot : Nat)
  /-- LINK_RETRAIN_DONE (R451). A retraining link or port finishes within 50 µs, coming back up and replaying
    unacknowledged flits, or going down. -/
  | linkRetrainDone (link : LinkId) (ok : Bool)
  /-- SECOND_STAGE_BUILT (R340). The security core finishes building the second stage from the ownership and seal
    tables, and the package leaves ownership mode. -/
  | secondStageBuilt
  /-- TEST_START (R340). The management controller starts a test, and the package enters ownership mode. -/
  | testStart
  /-- POWER_LOSS (R363). Power is lost, and lifetime counts and site-table counts not yet committed are lost. -/
  | powerLoss
  deriving DecidableEq, Repr, Inhabited

end Sys2Proof
end

