-- ==== Sys2Proof/WellFormed.lean ====
section
/-! DEFINITION. Which instructions are well formed: the checks of encoding rules 102 to 106 (R114, Table ADMF.3)
that a single instruction can break, as predicates on the decoded instruction, and, for the actions of other agents,
that each index lies in the range of the thing it names (R10, R11, R283, R297, R334, R361). -/

namespace Sys2Proof

/-- Which prefix fields a word accepts (Table ENC.4, R120): zeroing; guard; rounding; the immediate extension; the
fourth operand. -/
structure Accepts where
  zeroing : Bool
  guard : Bool
  rounding : Bool
  extend : Bool
  fourth : Bool
  deriving DecidableEq, Repr

/-- BR, CALL, BRC, BRZ. -/
def Accepts.branch : Accepts := ⟨false, false, false, true, false⟩
/-- Words that take zeroing and a guard only. -/
def Accepts.plain : Accepts := ⟨true, true, false, false, false⟩
/-- Integer words and atomics of Table ENC.7. -/
def Accepts.fourthOp : Accepts := ⟨true, true, false, false, true⟩
/-- Float words with a rounding mode. -/
def Accepts.rounded : Accepts := ⟨true, true, true, false, false⟩
/-- FFMA and FDOT2. -/
def Accepts.roundedFourth : Accepts := ⟨true, true, true, false, true⟩
/-- Words with an extensible immediate. -/
def Accepts.immediate : Accepts := ⟨true, true, false, true, false⟩
/-- XMOV, STREL. -/
def Accepts.guardOnly : Accepts := ⟨false, true, false, false, false⟩
/-- Plain loads. -/
def Accepts.load : Accepts := ⟨true, true, false, true, false⟩
/-- Plain stores and PREF. -/
def Accepts.store : Accepts := ⟨false, true, false, true, false⟩

/-- The fields that Table ENC.3 and Table ENC.4 require to be 0 are 0 (rule 102): RM without RV and GN without GV
among them. -/
def Accepts.zeroOk (k : Accepts) (p : Pfx) : Bool :=
  (k.zeroing || !p.z) && (k.guard || (!p.gv && !p.gn && p.g == 0#8)) && (k.rounding || (!p.rv && p.rm == 0#3)) &&
  (k.extend || p.x5 == 0#5) && (k.fourth || p.c == 0#8) && (p.rv || p.rm == 0#3) && (p.gv || !p.gn)

/-- A rounding code of Table ENC.9 (101 to 111 are reserved). -/
def rmOk (rm : BitVec 3) : Bool := rm.toNat ≤ 4

/-- An element-type code of Table ENC.9 (7 to 15 are reserved). -/
def etOk (et : BitVec 4) : Bool := et.toNat ≤ 6

/-- An index of Table ISAI.3 that is not reserved. -/
def specialOk (i : BitVec 8) : Bool := i.toNat ≤ 0x13 || (0x18 ≤ i.toNat && i.toNat ≤ 0x4F)

/-- An index of Table ISAI.3 whose register is a pair: TEAMDIM, REGION0-15, LEN0-15. -/
def specialPair (i : BitVec 8) : Bool := i.toNat == 9 || (0x20 ≤ i.toNat && i.toNat ≤ 0x3F)

/-- A pair is named by its even register (R111). -/
def evenReg (r : BitVec 8) : Bool := r.toNat % 2 == 0

/-- A run of four is named by a multiple of 4 (R111). -/
def quadReg (r : BitVec 8) : Bool := r.toNat % 4 == 0

/-- A run of `n` registers from `r` does not pass v255 (R111). -/
def runFits (r : BitVec 8) (n : Nat) : Bool := r.toNat + n ≤ 256

/-- A run of `n` registers that starts at a multiple of `n` and does not pass v255 (R191). -/
def runAt (r : BitVec 8) (n : Nat) : Bool := r.toNat % n == 0 && runFits r n

/-- The run length m of a CVTN or CVTW variant (R191). -/
def packLen (v : BitVec 2) : Nat := if v == 0#2 then 2 else if v == 3#2 then 8 else 4

/-- The fourth operand, where a prefix names one, is a pair (R121). -/
def evenC (p : Option Pfx) : Bool :=
  match p with
  | none => true
  | some x => evenReg x.c

/-- The prefix of an instruction that carries one, with the fields its word accepts (Table ENC.4). -/
def Instr.carried : Instr → Option (Accepts × Pfx)
  | .nop => none
  | .br p _ _ => p.map fun x => (Accepts.branch, x)
  | .brc p _ _ _ => p.map fun x => (Accepts.branch, x)
  | .brz p _ _ _ => p.map fun x => (Accepts.branch, x)
  | .call p _ _ => p.map fun x => (Accepts.branch, x)
  | .calli _ => none
  | .ret => none
  | .join => none
  | .exitw => none
  | .yield => none
  | .sleep _ => none
  | .trap _ => none
  | .brx _ _ => none
  | .setmode _ => none
  | .ipref _ _ => none
  | .add p _ _ _ => p.map fun x => (Accepts.plain, x)
  | .sub p _ _ _ => p.map fun x => (Accepts.plain, x)
  | .mul p _ _ _ => p.map fun x => (Accepts.plain, x)
  | .mulh p _ _ _ => p.map fun x => (Accepts.plain, x)
  | .mad p _ _ _ => p.map fun x => (Accepts.fourthOp, x)
  | .iand p _ _ _ => p.map fun x => (Accepts.plain, x)
  | .ior p _ _ _ => p.map fun x => (Accepts.plain, x)
  | .ixor p _ _ _ => p.map fun x => (Accepts.plain, x)
  | .shl p _ _ _ => p.map fun x => (Accepts.plain, x)
  | .shr p _ _ _ => p.map fun x => (Accepts.plain, x)
  | .sar p _ _ _ => p.map fun x => (Accepts.plain, x)
  | .imin p _ _ _ => p.map fun x => (Accepts.plain, x)
  | .imax p _ _ _ => p.map fun x => (Accepts.plain, x)
  | .sel p _ _ _ => p.map fun x => (Accepts.fourthOp, x)
  | .iabs p _ _ => p.map fun x => (Accepts.plain, x)
  | .ineg p _ _ => p.map fun x => (Accepts.plain, x)
  | .cmpeq p _ _ _ => p.map fun x => (Accepts.plain, x)
  | .cmpne p _ _ _ => p.map fun x => (Accepts.plain, x)
  | .cmplt p _ _ _ => p.map fun x => (Accepts.plain, x)
  | .cmple p _ _ _ => p.map fun x => (Accepts.plain, x)
  | .clz p _ _ => p.map fun x => (Accepts.plain, x)
  | .popc p _ _ => p.map fun x => (Accepts.plain, x)
  | .brev p _ _ => p.map fun x => (Accepts.plain, x)
  | .bfx p _ _ _ => p.map fun x => (Accepts.plain, x)
  | .bfi p _ _ _ => p.map fun x => (Accepts.fourthOp, x)
  | .prmt p _ _ _ => p.map fun x => (Accepts.plain, x)
  | .dp4 p _ _ _ => p.map fun x => (Accepts.fourthOp, x)
  | .dp4s p _ _ _ => p.map fun x => (Accepts.fourthOp, x)
  | .dp2 p _ _ _ => p.map fun x => (Accepts.fourthOp, x)
  | .dp2s p _ _ _ => p.map fun x => (Accepts.fourthOp, x)
  | .mov p _ _ => p.map fun x => (Accepts.plain, x)
  | .inot p _ _ => p.map fun x => (Accepts.plain, x)
  | .addi p _ _ _ => p.map fun x => (Accepts.immediate, x)
  | .andi p _ _ _ => p.map fun x => (Accepts.immediate, x)
  | .ori p _ _ _ => p.map fun x => (Accepts.immediate, x)
  | .xori p _ _ _ => p.map fun x => (Accepts.immediate, x)
  | .shli p _ _ _ => p.map fun x => (Accepts.plain, x)
  | .shri p _ _ _ => p.map fun x => (Accepts.plain, x)
  | .sari p _ _ _ => p.map fun x => (Accepts.plain, x)
  | .muli p _ _ _ => p.map fun x => (Accepts.immediate, x)
  | .cmpeqi p _ _ _ => p.map fun x => (Accepts.immediate, x)
  | .cmplti p _ _ _ => p.map fun x => (Accepts.immediate, x)
  | .movi p _ _ => p.map fun x => (Accepts.immediate, x)
  | .movhi p _ _ => p.map fun x => (Accepts.plain, x)
  | .movx p _ _ => p.map fun x => (Accepts.plain, x)
  | .xmov p _ _ => p.map fun x => (Accepts.guardOnly, x)
  | .movrd p _ _ => p.map fun x => (Accepts.plain, x)
  | .movrw p _ _ => p.map fun x => (Accepts.plain, x)
  | .add64 p _ _ _ => p.map fun x => (Accepts.plain, x)
  | .add64w p _ _ _ => p.map fun x => (Accepts.plain, x)
  | .sub64 p _ _ _ => p.map fun x => (Accepts.plain, x)
  | .addi64 p _ _ _ => p.map fun x => (Accepts.immediate, x)
  | .lea4 p _ _ _ => p.map fun x => (Accepts.plain, x)
  | .lea8 p _ _ _ => p.map fun x => (Accepts.plain, x)
  | .lea16 p _ _ _ => p.map fun x => (Accepts.plain, x)
  | .mov64 p _ _ => p.map fun x => (Accepts.plain, x)
  | .wmul p _ _ _ => p.map fun x => (Accepts.plain, x)
  | .wmad p _ _ _ => p.map fun x => (Accepts.fourthOp, x)
  | .shl64 p _ _ _ => p.map fun x => (Accepts.plain, x)
  | .shr64 p _ _ _ => p.map fun x => (Accepts.plain, x)
  | .cmplt64 p _ _ _ => p.map fun x => (Accepts.plain, x)
  | .chkb _ _ _ _ => none
  | .chkr _ _ => none
  | .chka _ _ _ _ => none
  | .fadd p _ _ _ => p.map fun x => (Accepts.rounded, x)
  | .fsub p _ _ _ => p.map fun x => (Accepts.rounded, x)
  | .fmul p _ _ _ => p.map fun x => (Accepts.rounded, x)
  | .ffma p _ _ _ => p.map fun x => (Accepts.roundedFourth, x)
  | .fmin p _ _ _ => p.map fun x => (Accepts.rounded, x)
  | .fmax p _ _ _ => p.map fun x => (Accepts.rounded, x)
  | .fminn p _ _ _ => p.map fun x => (Accepts.rounded, x)
  | .fmaxn p _ _ _ => p.map fun x => (Accepts.rounded, x)
  | .fcmpeq p _ _ _ => p.map fun x => (Accepts.plain, x)
  | .fcmplt p _ _ _ => p.map fun x => (Accepts.plain, x)
  | .fcmple p _ _ _ => p.map fun x => (Accepts.plain, x)
  | .fcmpun p _ _ _ => p.map fun x => (Accepts.plain, x)
  | .fabs p _ _ => p.map fun x => (Accepts.rounded, x)
  | .fneg p _ _ => p.map fun x => (Accepts.rounded, x)
  | .fclass p _ _ => p.map fun x => (Accepts.plain, x)
  | .fscale p _ _ _ => p.map fun x => (Accepts.rounded, x)
  | .frcp p _ _ => p.map fun x => (Accepts.rounded, x)
  | .frsq p _ _ => p.map fun x => (Accepts.rounded, x)
  | .fsqrt p _ _ => p.map fun x => (Accepts.rounded, x)
  | .fexp2 p _ _ => p.map fun x => (Accepts.rounded, x)
  | .flog2 p _ _ => p.map fun x => (Accepts.rounded, x)
  | .fsin p _ _ => p.map fun x => (Accepts.rounded, x)
  | .fcos p _ _ => p.map fun x => (Accepts.rounded, x)
  | .ftanh p _ _ => p.map fun x => (Accepts.rounded, x)
  | .frnd p _ _ => p.map fun x => (Accepts.rounded, x)
  | .fdot2 p _ _ _ => p.map fun x => (Accepts.roundedFourth, x)
  | .cvtf p _ _ _ _ => p.map fun x => (Accepts.plain, x)
  | .cvtfi p _ _ _ _ => p.map fun x => (Accepts.plain, x)
  | .cvtif p _ _ _ _ => p.map fun x => (Accepts.plain, x)
  | .cvtn p _ _ _ _ _ => p.map fun x => (Accepts.plain, x)
  | .cvtw p _ _ _ _ _ => p.map fun x => (Accepts.plain, x)
  | .shfl p _ _ _ => p.map fun x => (Accepts.plain, x)
  | .shflup p _ _ _ => p.map fun x => (Accepts.plain, x)
  | .shfldn p _ _ _ => p.map fun x => (Accepts.plain, x)
  | .shflx p _ _ _ => p.map fun x => (Accepts.plain, x)
  | .vall p _ _ => p.map fun x => (Accepts.plain, x)
  | .vany p _ _ => p.map fun x => (Accepts.plain, x)
  | .ballot p _ _ => p.map fun x => (Accepts.plain, x)
  | .redadd p _ _ => p.map fun x => (Accepts.plain, x)
  | .redmin p _ _ => p.map fun x => (Accepts.plain, x)
  | .redmax p _ _ => p.map fun x => (Accepts.plain, x)
  | .redand p _ _ => p.map fun x => (Accepts.plain, x)
  | .redor p _ _ => p.map fun x => (Accepts.plain, x)
  | .scan p _ _ _ _ => p.map fun x => (Accepts.plain, x)
  | .elect p _ => p.map fun x => (Accepts.plain, x)
  | .matchv p _ _ => p.map fun x => (Accepts.plain, x)
  | .xchg _ _ _ _ => none
  | .ldb p _ _ _ => p.map fun x => (Accepts.load, x)
  | .ldbs p _ _ _ => p.map fun x => (Accepts.load, x)
  | .ldh p _ _ _ => p.map fun x => (Accepts.load, x)
  | .ldhs p _ _ _ => p.map fun x => (Accepts.load, x)
  | .ldw p _ _ _ => p.map fun x => (Accepts.load, x)
  | .ldd p _ _ _ => p.map fun x => (Accepts.load, x)
  | .ldq p _ _ _ => p.map fun x => (Accepts.load, x)
  | .stb p _ _ _ => p.map fun x => (Accepts.store, x)
  | .sth p _ _ _ => p.map fun x => (Accepts.store, x)
  | .stw p _ _ _ => p.map fun x => (Accepts.store, x)
  | .std p _ _ _ => p.map fun x => (Accepts.store, x)
  | .stq p _ _ _ => p.map fun x => (Accepts.store, x)
  | .ldwr p _ _ _ => p.map fun x => (Accepts.load, x)
  | .ldqr p _ _ _ => p.map fun x => (Accepts.load, x)
  | .stnt p _ _ _ => p.map fun x => (Accepts.store, x)
  | .prefL1 p _ _ => p.map fun x => (Accepts.store, x)
  | .prefHome p _ _ => p.map fun x => (Accepts.store, x)
  | .ldacq p _ _ _ _ => p.map fun x => (Accepts.plain, x)
  | .strel p _ _ _ _ => p.map fun x => (Accepts.guardOnly, x)
  | .fence _ _ => none
  | .lds p _ _ _ => p.map fun x => (Accepts.load, x)
  | .sts p _ _ _ => p.map fun x => (Accepts.store, x)
  | .ldsq p _ _ _ => p.map fun x => (Accepts.load, x)
  | .stsq p _ _ _ => p.map fun x => (Accepts.store, x)
  | .ldm _ _ _ => none
  | .stm _ _ _ => none
  | .lock _ _ _ => none
  | .unlock _ _ _ => none
  | .aadd p _ _ _ _ => p.map fun x => (Accepts.plain, x)
  | .amin p _ _ _ _ => p.map fun x => (Accepts.plain, x)
  | .amax p _ _ _ _ => p.map fun x => (Accepts.plain, x)
  | .aand p _ _ _ _ => p.map fun x => (Accepts.plain, x)
  | .aor p _ _ _ _ => p.map fun x => (Accepts.plain, x)
  | .axor p _ _ _ _ => p.map fun x => (Accepts.plain, x)
  | .axchg p _ _ _ _ => p.map fun x => (Accepts.plain, x)
  | .acas p _ _ _ _ => p.map fun x => (Accepts.fourthOp, x)
  | .ainc p _ _ _ _ => p.map fun x => (Accepts.plain, x)
  | .afadd p _ _ _ _ => p.map fun x => (Accepts.plain, x)
  | .afadd2 p _ _ _ _ => p.map fun x => (Accepts.plain, x)
  | .aadd64 p _ _ _ _ => p.map fun x => (Accepts.plain, x)
  | .acas64 p _ _ _ _ => p.map fun x => (Accepts.fourthOp, x)
  | .sadd p _ _ _ _ => p.map fun x => (Accepts.plain, x)
  | .scas p _ _ _ _ => p.map fun x => (Accepts.fourthOp, x)
  | .sxchg p _ _ _ _ => p.map fun x => (Accepts.plain, x)
  | .bar _ _ _ => none
  | .bararv _ _ => none
  | .barwt _ _ _ => none
  | .barexp _ _ _ => none
  | .waitc _ _ _ _ => none
  | .waitr _ => none
  | .hwait _ _ _ => none
  | .hsetFree _ _ _ => none
  | .hsetFull _ _ _ => none
  | .hsetRel _ => none
  | .hsetFill _ => none
  | .ringadvNew _ _ _ => none
  | .ringadv _ _ => none
  | .copy _ _ _ => none
  | .copym _ _ _ => none
  | .copys _ _ _ => none
  | .launch _ _ => none
  | .job _ _ => none
  | .jobwt _ => none
  | .tbld _ _ _ _ _ => none
  | .tmma _ _ _ _ _ => none
  | .tmmab _ _ _ _ _ => none
  | .tmmap _ _ _ _ _ => none
  | .taccz _ _ _ => none
  | .taccld _ _ _ _ => none
  | .taccst _ _ _ _ => none
  | .trel => none
  | .trelArray => none
  | .clock _ => none
  | .perf _ _ => none
  | .eret => none
  | .traprd _ _ => none
  | .segq _ _ => none
  | .bkpt _ => none
  | .sleepExpiry _ _ _ => none
  | .warpEnd _ _ => none
  | .loadReply _ => none
  | .storePerformed _ => none
  | .lockHandoverReply _ _ _ => none
  | .lockRetry _ _ _ => none
  | .lockWaiterWake _ => none
  | .copyAccept _ => none
  | .copyLinePerformed _ _ => none
  | .copyComplete _ => none
  | .mergeEntryClose _ => none
  | .xchgMatch _ _ _ _ => none
  | .tbldLatch _ _ => none
  | .tileRetire _ _ => none
  | .tmmapFollowerTimeout _ => none
  | .jobComplete _ => none
  | .linkStackRefill _ _ => none
  | .comparisonPoint _ => none
  | .redundantWaitTimeout _ => none
  | .translationWalkComplete _ _ _ => none
  | .remoteTimeout _ => none
  | .demandFetch _ _ _ => none
  | .fetchAhead _ _ _ => none
  | .trapEntry _ _ => none
  | .impreciseFaultTake _ _ => none
  | .faultLogAck => none
  | .quantumExpiry _ => none
  | .teamPlace _ => none
  | .dieAdvertise _ => none
  | .migrationMessage _ => none
  | .migrationConfirmTimeout _ => none
  | .taskComplete _ => none
  | .kick _ _ => none
  | .queueEnWrite _ _ => none
  | .lapReread _ => none
  | .queueLapTimeout _ => none
  | .packetNop _ => none
  | .packetLaunch _ => none
  | .packetJob _ => none
  | .packetFence _ => none
  | .packetSignal _ => none
  | .packetWaitev _ => none
  | .waitevReread _ => none
  | .msixUnmask _ _ => none
  | .aduKick _ => none
  | .aduSlotReread _ => none
  | .aduRequestConsume _ => none
  | .admissionComplete _ => none
  | .worldSet => none
  | .map2 => none
  | .unmap2 => none
  | .inval => none
  | .teardown => none
  | .ploughPageClean _ => none
  | .ploughTimeout _ => none
  | .ploughRestart _ => none
  | .geninc _ => none
  | .vdevRegWrite _ _ _ => none
  | .vdevDisable _ => none
  | .vfEnableClear => none
  | .dbgenWrite _ => none
  | .resume _ => none
  | .faultLogEnable _ => none
  | .registerWrite _ _ _ => none
  | .hostWindowAccess _ _ _ _ => none
  | .sessionLockWrite _ _ => none
  | .sessionTimeout => none
  | .readLife _ => none
  | .readState _ _ => none
  | .stageFw _ _ => none
  | .activateFw _ => none
  | .fwUnitMove _ _ => none
  | .lifetimeAccumulate _ => none
  | .lifetimeCommit => none
  | .orderlyShutdown => none
  | .getVersion _ => none
  | .getCapabilities _ => none
  | .negotiateAlgorithms _ => none
  | .getDigests _ => none
  | .getCertificate _ => none
  | .challenge _ => none
  | .getMeasurements _ => none
  | .keyExchange _ => none
  | .finish _ => none
  | .endSession _ => none
  | .coldReset => none
  | .functionLevelReset => none
  | .hotReset => none
  | .mctpEndpointLoss _ => none
  | .securityCoreRestart _ => none
  | .dieTrained _ => none
  | .linkTrained _ _ => none
  | .trainingDeadline => none
  | .structureError _ => none
  | .packetTagFailure _ => none
  | .linkRetrain _ => none
  | .replicaPin _ => none
  | .sledInject _ => none
  | .sledSteer _ => none
  | .sledAccept _ => none
  | .ringRefill _ => none
  | .sledAdmit _ => none
  | .replicationWatch _ _ => none
  | .sledTimeout _ => none
  | .hostMemoryAccess _ => none
  | .scoreboardRelease _ _ _ => none
  | .entryCacheFill _ _ => none
  | .linkRetrainDone _ _ => none
  | .secondStageBuilt => none
  | .testStart => none
  | .powerLoss => none

/-- Rule 102 for the prefix fields. -/
def Instr.pfxZeroOk (i : Instr) : Bool :=
  match i.carried with
  | none => true
  | some (k, p) => k.zeroOk p

/-- Rule 104 for the prefix: a rounding code that is not reserved. -/
def Instr.pfxRmOk (i : Instr) : Bool :=
  match i.carried with
  | none => true
  | some (_, p) => rmOk p.rm

/-- Rule 103's demand on SEL: it requires a prefix (R121). -/
def Instr.selOk : Instr → Bool
  | .nop => true
  | .br _ _ _ => true
  | .brc _ _ _ _ => true
  | .brz _ _ _ _ => true
  | .call _ _ _ => true
  | .calli _ => true
  | .ret => true
  | .join => true
  | .exitw => true
  | .yield => true
  | .sleep _ => true
  | .trap _ => true
  | .brx _ _ => true
  | .setmode _ => true
  | .ipref _ _ => true
  | .add _ _ _ _ => true
  | .sub _ _ _ _ => true
  | .mul _ _ _ _ => true
  | .mulh _ _ _ _ => true
  | .mad _ _ _ _ => true
  | .iand _ _ _ _ => true
  | .ior _ _ _ _ => true
  | .ixor _ _ _ _ => true
  | .shl _ _ _ _ => true
  | .shr _ _ _ _ => true
  | .sar _ _ _ _ => true
  | .imin _ _ _ _ => true
  | .imax _ _ _ _ => true
  | .sel p _ _ _ => p.isSome
  | .iabs _ _ _ => true
  | .ineg _ _ _ => true
  | .cmpeq _ _ _ _ => true
  | .cmpne _ _ _ _ => true
  | .cmplt _ _ _ _ => true
  | .cmple _ _ _ _ => true
  | .clz _ _ _ => true
  | .popc _ _ _ => true
  | .brev _ _ _ => true
  | .bfx _ _ _ _ => true
  | .bfi _ _ _ _ => true
  | .prmt _ _ _ _ => true
  | .dp4 _ _ _ _ => true
  | .dp4s _ _ _ _ => true
  | .dp2 _ _ _ _ => true
  | .dp2s _ _ _ _ => true
  | .mov _ _ _ => true
  | .inot _ _ _ => true
  | .addi _ _ _ _ => true
  | .andi _ _ _ _ => true
  | .ori _ _ _ _ => true
  | .xori _ _ _ _ => true
  | .shli _ _ _ _ => true
  | .shri _ _ _ _ => true
  | .sari _ _ _ _ => true
  | .muli _ _ _ _ => true
  | .cmpeqi _ _ _ _ => true
  | .cmplti _ _ _ _ => true
  | .movi _ _ _ => true
  | .movhi _ _ _ => true
  | .movx _ _ _ => true
  | .xmov _ _ _ => true
  | .movrd _ _ _ => true
  | .movrw _ _ _ => true
  | .add64 _ _ _ _ => true
  | .add64w _ _ _ _ => true
  | .sub64 _ _ _ _ => true
  | .addi64 _ _ _ _ => true
  | .lea4 _ _ _ _ => true
  | .lea8 _ _ _ _ => true
  | .lea16 _ _ _ _ => true
  | .mov64 _ _ _ => true
  | .wmul _ _ _ _ => true
  | .wmad _ _ _ _ => true
  | .shl64 _ _ _ _ => true
  | .shr64 _ _ _ _ => true
  | .cmplt64 _ _ _ _ => true
  | .chkb _ _ _ _ => true
  | .chkr _ _ => true
  | .chka _ _ _ _ => true
  | .fadd _ _ _ _ => true
  | .fsub _ _ _ _ => true
  | .fmul _ _ _ _ => true
  | .ffma _ _ _ _ => true
  | .fmin _ _ _ _ => true
  | .fmax _ _ _ _ => true
  | .fminn _ _ _ _ => true
  | .fmaxn _ _ _ _ => true
  | .fcmpeq _ _ _ _ => true
  | .fcmplt _ _ _ _ => true
  | .fcmple _ _ _ _ => true
  | .fcmpun _ _ _ _ => true
  | .fabs _ _ _ => true
  | .fneg _ _ _ => true
  | .fclass _ _ _ => true
  | .fscale _ _ _ _ => true
  | .frcp _ _ _ => true
  | .frsq _ _ _ => true
  | .fsqrt _ _ _ => true
  | .fexp2 _ _ _ => true
  | .flog2 _ _ _ => true
  | .fsin _ _ _ => true
  | .fcos _ _ _ => true
  | .ftanh _ _ _ => true
  | .frnd _ _ _ => true
  | .fdot2 _ _ _ _ => true
  | .cvtf _ _ _ _ _ => true
  | .cvtfi _ _ _ _ _ => true
  | .cvtif _ _ _ _ _ => true
  | .cvtn _ _ _ _ _ _ => true
  | .cvtw _ _ _ _ _ _ => true
  | .shfl _ _ _ _ => true
  | .shflup _ _ _ _ => true
  | .shfldn _ _ _ _ => true
  | .shflx _ _ _ _ => true
  | .vall _ _ _ => true
  | .vany _ _ _ => true
  | .ballot _ _ _ => true
  | .redadd _ _ _ => true
  | .redmin _ _ _ => true
  | .redmax _ _ _ => true
  | .redand _ _ _ => true
  | .redor _ _ _ => true
  | .scan _ _ _ _ _ => true
  | .elect _ _ => true
  | .matchv _ _ _ => true
  | .xchg _ _ _ _ => true
  | .ldb _ _ _ _ => true
  | .ldbs _ _ _ _ => true
  | .ldh _ _ _ _ => true
  | .ldhs _ _ _ _ => true
  | .ldw _ _ _ _ => true
  | .ldd _ _ _ _ => true
  | .ldq _ _ _ _ => true
  | .stb _ _ _ _ => true
  | .sth _ _ _ _ => true
  | .stw _ _ _ _ => true
  | .std _ _ _ _ => true
  | .stq _ _ _ _ => true
  | .ldwr _ _ _ _ => true
  | .ldqr _ _ _ _ => true
  | .stnt _ _ _ _ => true
  | .prefL1 _ _ _ => true
  | .prefHome _ _ _ => true
  | .ldacq _ _ _ _ _ => true
  | .strel _ _ _ _ _ => true
  | .fence _ _ => true
  | .lds _ _ _ _ => true
  | .sts _ _ _ _ => true
  | .ldsq _ _ _ _ => true
  | .stsq _ _ _ _ => true
  | .ldm _ _ _ => true
  | .stm _ _ _ => true
  | .lock _ _ _ => true
  | .unlock _ _ _ => true
  | .aadd _ _ _ _ _ => true
  | .amin _ _ _ _ _ => true
  | .amax _ _ _ _ _ => true
  | .aand _ _ _ _ _ => true
  | .aor _ _ _ _ _ => true
  | .axor _ _ _ _ _ => true
  | .axchg _ _ _ _ _ => true
  | .acas _ _ _ _ _ => true
  | .ainc _ _ _ _ _ => true
  | .afadd _ _ _ _ _ => true
  | .afadd2 _ _ _ _ _ => true
  | .aadd64 _ _ _ _ _ => true
  | .acas64 _ _ _ _ _ => true
  | .sadd _ _ _ _ _ => true
  | .scas _ _ _ _ _ => true
  | .sxchg _ _ _ _ _ => true
  | .bar _ _ _ => true
  | .bararv _ _ => true
  | .barwt _ _ _ => true
  | .barexp _ _ _ => true
  | .waitc _ _ _ _ => true
  | .waitr _ => true
  | .hwait _ _ _ => true
  | .hsetFree _ _ _ => true
  | .hsetFull _ _ _ => true
  | .hsetRel _ => true
  | .hsetFill _ => true
  | .ringadvNew _ _ _ => true
  | .ringadv _ _ => true
  | .copy _ _ _ => true
  | .copym _ _ _ => true
  | .copys _ _ _ => true
  | .launch _ _ => true
  | .job _ _ => true
  | .jobwt _ => true
  | .tbld _ _ _ _ _ => true
  | .tmma _ _ _ _ _ => true
  | .tmmab _ _ _ _ _ => true
  | .tmmap _ _ _ _ _ => true
  | .taccz _ _ _ => true
  | .taccld _ _ _ _ => true
  | .taccst _ _ _ _ => true
  | .trel => true
  | .trelArray => true
  | .clock _ => true
  | .perf _ _ => true
  | .eret => true
  | .traprd _ _ => true
  | .segq _ _ => true
  | .bkpt _ => true
  | .sleepExpiry _ _ _ => true
  | .warpEnd _ _ => true
  | .loadReply _ => true
  | .storePerformed _ => true
  | .lockHandoverReply _ _ _ => true
  | .lockRetry _ _ _ => true
  | .lockWaiterWake _ => true
  | .copyAccept _ => true
  | .copyLinePerformed _ _ => true
  | .copyComplete _ => true
  | .mergeEntryClose _ => true
  | .xchgMatch _ _ _ _ => true
  | .tbldLatch _ _ => true
  | .tileRetire _ _ => true
  | .tmmapFollowerTimeout _ => true
  | .jobComplete _ => true
  | .linkStackRefill _ _ => true
  | .comparisonPoint _ => true
  | .redundantWaitTimeout _ => true
  | .translationWalkComplete _ _ _ => true
  | .remoteTimeout _ => true
  | .demandFetch _ _ _ => true
  | .fetchAhead _ _ _ => true
  | .trapEntry _ _ => true
  | .impreciseFaultTake _ _ => true
  | .faultLogAck => true
  | .quantumExpiry _ => true
  | .teamPlace _ => true
  | .dieAdvertise _ => true
  | .migrationMessage _ => true
  | .migrationConfirmTimeout _ => true
  | .taskComplete _ => true
  | .kick _ _ => true
  | .queueEnWrite _ _ => true
  | .lapReread _ => true
  | .queueLapTimeout _ => true
  | .packetNop _ => true
  | .packetLaunch _ => true
  | .packetJob _ => true
  | .packetFence _ => true
  | .packetSignal _ => true
  | .packetWaitev _ => true
  | .waitevReread _ => true
  | .msixUnmask _ _ => true
  | .aduKick _ => true
  | .aduSlotReread _ => true
  | .aduRequestConsume _ => true
  | .admissionComplete _ => true
  | .worldSet => true
  | .map2 => true
  | .unmap2 => true
  | .inval => true
  | .teardown => true
  | .ploughPageClean _ => true
  | .ploughTimeout _ => true
  | .ploughRestart _ => true
  | .geninc _ => true
  | .vdevRegWrite _ _ _ => true
  | .vdevDisable _ => true
  | .vfEnableClear => true
  | .dbgenWrite _ => true
  | .resume _ => true
  | .faultLogEnable _ => true
  | .registerWrite _ _ _ => true
  | .hostWindowAccess _ _ _ _ => true
  | .sessionLockWrite _ _ => true
  | .sessionTimeout => true
  | .readLife _ => true
  | .readState _ _ => true
  | .stageFw _ _ => true
  | .activateFw _ => true
  | .fwUnitMove _ _ => true
  | .lifetimeAccumulate _ => true
  | .lifetimeCommit => true
  | .orderlyShutdown => true
  | .getVersion _ => true
  | .getCapabilities _ => true
  | .negotiateAlgorithms _ => true
  | .getDigests _ => true
  | .getCertificate _ => true
  | .challenge _ => true
  | .getMeasurements _ => true
  | .keyExchange _ => true
  | .finish _ => true
  | .endSession _ => true
  | .coldReset => true
  | .functionLevelReset => true
  | .hotReset => true
  | .mctpEndpointLoss _ => true
  | .securityCoreRestart _ => true
  | .dieTrained _ => true
  | .linkTrained _ _ => true
  | .trainingDeadline => true
  | .structureError _ => true
  | .packetTagFailure _ => true
  | .linkRetrain _ => true
  | .replicaPin _ => true
  | .sledInject _ => true
  | .sledSteer _ => true
  | .sledAccept _ => true
  | .ringRefill _ => true
  | .sledAdmit _ => true
  | .replicationWatch _ _ => true
  | .sledTimeout _ => true
  | .hostMemoryAccess _ => true
  | .scoreboardRelease _ _ _ => true
  | .entryCacheFill _ _ => true
  | .linkRetrainDone _ _ => true
  | .secondStageBuilt => true
  | .testStart => true
  | .powerLoss => true

/-- Rule 104 for the word's own fields: no field holds a reserved value (R110, R114, Table ADMF.3).  For the actions
of other agents: each index lies in the range of what it names. -/
def Instr.reservedOk : Instr → Bool
  | .nop => true
  | .br _ h _ => h != 3#2
  | .brc _ _ _ _ => true
  | .brz _ _ _ _ => true
  | .call _ h _ => h != 3#2
  | .calli _ => true
  | .ret => true
  | .join => true
  | .exitw => true
  | .yield => true
  | .sleep _ => true
  | .trap _ => true
  | .brx _ _ => true
  | .setmode p => etOk (p.extractLsb' 10 4) && rmOk (p.extractLsb' 14 3)
  | .ipref c _ => 1 ≤ c.toNat && c.toNat ≤ 64
  | .add _ _ _ _ => true
  | .sub _ _ _ _ => true
  | .mul _ _ _ _ => true
  | .mulh _ _ _ _ => true
  | .mad _ _ _ _ => true
  | .iand _ _ _ _ => true
  | .ior _ _ _ _ => true
  | .ixor _ _ _ _ => true
  | .shl _ _ _ _ => true
  | .shr _ _ _ _ => true
  | .sar _ _ _ _ => true
  | .imin _ _ _ _ => true
  | .imax _ _ _ _ => true
  | .sel _ _ _ _ => true
  | .iabs _ _ _ => true
  | .ineg _ _ _ => true
  | .cmpeq _ _ _ _ => true
  | .cmpne _ _ _ _ => true
  | .cmplt _ _ _ _ => true
  | .cmple _ _ _ _ => true
  | .clz _ _ _ => true
  | .popc _ _ _ => true
  | .brev _ _ _ => true
  | .bfx _ _ _ _ => true
  | .bfi _ _ _ _ => true
  | .prmt _ _ _ _ => true
  | .dp4 _ _ _ _ => true
  | .dp4s _ _ _ _ => true
  | .dp2 _ _ _ _ => true
  | .dp2s _ _ _ _ => true
  | .mov _ _ _ => true
  | .inot _ _ _ => true
  | .addi _ _ _ _ => true
  | .andi _ _ _ _ => true
  | .ori _ _ _ _ => true
  | .xori _ _ _ _ => true
  | .shli _ _ _ _ => true
  | .shri _ _ _ _ => true
  | .sari _ _ _ _ => true
  | .muli _ _ _ _ => true
  | .cmpeqi _ _ _ _ => true
  | .cmplti _ _ _ _ => true
  | .movi _ _ _ => true
  | .movhi _ _ _ => true
  | .movx _ _ i => specialOk i
  | .xmov _ _ i => i == 0#8 || i == 2#8 || i == 3#8
  | .movrd _ _ _ => true
  | .movrw _ _ _ => true
  | .add64 _ _ _ _ => true
  | .add64w _ _ _ _ => true
  | .sub64 _ _ _ _ => true
  | .addi64 _ _ _ _ => true
  | .lea4 _ _ _ _ => true
  | .lea8 _ _ _ _ => true
  | .lea16 _ _ _ _ => true
  | .mov64 _ _ _ => true
  | .wmul _ _ _ _ => true
  | .wmad _ _ _ _ => true
  | .shl64 _ _ _ _ => true
  | .shr64 _ _ _ _ => true
  | .cmplt64 _ _ _ _ => true
  | .chkb _ _ _ _ => true
  | .chkr _ n => n != 0#16
  | .chka _ _ _ m => m != 0#10
  | .fadd _ _ _ _ => true
  | .fsub _ _ _ _ => true
  | .fmul _ _ _ _ => true
  | .ffma _ _ _ _ => true
  | .fmin _ _ _ _ => true
  | .fmax _ _ _ _ => true
  | .fminn _ _ _ _ => true
  | .fmaxn _ _ _ _ => true
  | .fcmpeq _ _ _ _ => true
  | .fcmplt _ _ _ _ => true
  | .fcmple _ _ _ _ => true
  | .fcmpun _ _ _ _ => true
  | .fabs _ _ _ => true
  | .fneg _ _ _ => true
  | .fclass _ _ _ => true
  | .fscale _ _ _ _ => true
  | .frcp _ _ _ => true
  | .frsq _ _ _ => true
  | .fsqrt _ _ _ => true
  | .fexp2 _ _ _ => true
  | .flog2 _ _ _ => true
  | .fsin _ _ _ => true
  | .fcos _ _ _ => true
  | .ftanh _ _ _ => true
  | .frnd _ _ _ => true
  | .fdot2 _ _ _ _ => true
  | .cvtf _ _ _ k _ => rmOk k
  | .cvtfi _ _ _ k _ => rmOk k
  | .cvtif _ _ _ k _ => rmOk k
  | .cvtn _ _ _ _ k _ => rmOk k
  | .cvtw _ _ _ _ k _ => rmOk k
  | .shfl _ _ _ _ => true
  | .shflup _ _ _ _ => true
  | .shfldn _ _ _ _ => true
  | .shflx _ _ _ _ => true
  | .vall _ _ _ => true
  | .vany _ _ _ => true
  | .ballot _ _ _ => true
  | .redadd _ _ _ => true
  | .redmin _ _ _ => true
  | .redmax _ _ _ => true
  | .redand _ _ _ => true
  | .redor _ _ _ => true
  | .scan _ _ _ _ _ => true
  | .elect _ _ => true
  | .matchv _ _ _ => true
  | .xchg _ _ _ _ => true
  | .ldb _ _ _ _ => true
  | .ldbs _ _ _ _ => true
  | .ldh _ _ _ _ => true
  | .ldhs _ _ _ _ => true
  | .ldw _ _ _ _ => true
  | .ldd _ _ _ _ => true
  | .ldq _ _ _ _ => true
  | .stb _ _ _ _ => true
  | .sth _ _ _ _ => true
  | .stw _ _ _ _ => true
  | .std _ _ _ _ => true
  | .stq _ _ _ _ => true
  | .ldwr _ _ _ _ => true
  | .ldqr _ _ _ _ => true
  | .stnt _ _ _ _ => true
  | .prefL1 _ _ _ => true
  | .prefHome _ _ _ => true
  | .ldacq _ _ _ s q => s != 7#3 && (q == 0#3 || q == 1#3 || q == 4#3)
  | .strel _ _ _ s q => s != 7#3 && (q == 0#3 || q == 2#3 || q == 4#3)
  | .fence s q => s != 7#3 && 1 ≤ q.toNat && q.toNat ≤ 4
  | .lds _ _ _ _ => true
  | .sts _ _ _ _ => true
  | .ldsq _ _ _ _ => true
  | .stsq _ _ _ _ => true
  | .ldm _ _ _ => true
  | .stm _ _ _ => true
  | .lock _ _ s => s != 0#3 && s != 7#3
  | .unlock _ _ s => s != 0#3 && s != 7#3
  | .aadd _ _ _ s q => s != 7#3 && q.toNat ≤ 4
  | .amin _ _ _ s q => s != 7#3 && q.toNat ≤ 4
  | .amax _ _ _ s q => s != 7#3 && q.toNat ≤ 4
  | .aand _ _ _ s q => s != 7#3 && q.toNat ≤ 4
  | .aor _ _ _ s q => s != 7#3 && q.toNat ≤ 4
  | .axor _ _ _ s q => s != 7#3 && q.toNat ≤ 4
  | .axchg _ _ _ s q => s != 7#3 && q.toNat ≤ 4
  | .acas _ _ _ s q => s != 7#3 && q.toNat ≤ 4
  | .ainc _ _ _ s q => s != 7#3 && q.toNat ≤ 4
  | .afadd _ _ _ s q => s != 7#3 && q.toNat ≤ 4
  | .afadd2 _ _ _ s q => s != 7#3 && q.toNat ≤ 4
  | .aadd64 _ _ _ s q => s != 7#3 && q.toNat ≤ 4
  | .acas64 _ _ _ s q => s != 7#3 && q.toNat ≤ 4
  | .sadd _ _ _ s q => s.toNat ≤ 1 && q.toNat ≤ 4
  | .scas _ _ _ s q => s.toNat ≤ 1 && q.toNat ≤ 4
  | .sxchg _ _ _ s q => s.toNat ≤ 1 && q.toNat ≤ 4
  | .bar _ _ s => 1 ≤ s.toNat && s.toNat ≤ 5
  | .bararv _ s => 1 ≤ s.toNat && s.toNat ≤ 5
  | .barwt _ _ s => 1 ≤ s.toNat && s.toNat ≤ 5
  | .barexp _ _ s => 1 ≤ s.toNat && s.toNat ≤ 5
  | .waitc _ _ _ _ => true
  | .waitr _ => true
  | .hwait _ _ _ => true
  | .hsetFree _ _ _ => true
  | .hsetFull _ _ _ => true
  | .hsetRel _ => true
  | .hsetFill _ => true
  | .ringadvNew _ _ _ => true
  | .ringadv _ _ => true
  | .copy _ _ _ => true
  | .copym _ _ _ => true
  | .copys _ _ _ => true
  | .launch _ _ => true
  | .job _ _ => true
  | .jobwt _ => true
  | .tbld _ _ k _ _ => k != 3#2
  | .tmma _ _ _ _ _ => true
  | .tmmab _ _ _ _ _ => true
  | .tmmap _ _ _ _ _ => true
  | .taccz _ _ _ => true
  | .taccld _ _ _ _ => true
  | .taccst _ _ k _ => k != 3#2
  | .trel => true
  | .trelArray => true
  | .clock _ => true
  | .perf _ n => n.toNat ≤ 10
  | .eret => true
  | .traprd _ _ => true
  | .segq _ _ => true
  | .bkpt _ => true
  | .sleepExpiry core slot _ => decide (core < 1024) && decide (slot < 64)
  | .warpEnd core slot => decide (core < 1024) && decide (slot < 64)
  | .loadReply _ => true
  | .storePerformed _ => true
  | .lockHandoverReply core slot _ => decide (core < 1024) && decide (slot < 64)
  | .lockRetry core slot _ => decide (core < 1024) && decide (slot < 64)
  | .lockWaiterWake _ => true
  | .copyAccept _ => true
  | .copyLinePerformed _ _ => true
  | .copyComplete _ => true
  | .mergeEntryClose _ => true
  | .xchgMatch core slot partnerCore partnerSlot => decide (core < 1024) && decide (slot < 64) && decide (partnerCore < 1024) && decide (partnerSlot < 64)
  | .tbldLatch core half => decide (core < 1024) && decide (half < 2)
  | .tileRetire core half => decide (core < 1024) && decide (half < 2)
  | .tmmapFollowerTimeout core => decide (core < 1024)
  | .jobComplete _ => true
  | .linkStackRefill core slot => decide (core < 1024) && decide (slot < 64)
  | .comparisonPoint _ => true
  | .redundantWaitTimeout _ => true
  | .translationWalkComplete quad world _ => decide (quad < 256) && decide (world < 64)
  | .remoteTimeout _ => true
  | .demandFetch core slot _ => decide (core < 1024) && decide (slot < 64)
  | .fetchAhead core world _ => decide (core < 1024) && decide (world < 64)
  | .trapEntry core slot => decide (core < 1024) && decide (slot < 64)
  | .impreciseFaultTake core slot => decide (core < 1024) && decide (slot < 64)
  | .faultLogAck => true
  | .quantumExpiry _ => true
  | .teamPlace die => decide (die < 32)
  | .dieAdvertise die => decide (die < 32)
  | .migrationMessage _ => true
  | .migrationConfirmTimeout _ => true
  | .taskComplete _ => true
  | .kick queue _ => decide (queue < 256)
  | .queueEnWrite queue _ => decide (queue < 256)
  | .lapReread queue => decide (queue < 256)
  | .queueLapTimeout queue => decide (queue < 256)
  | .packetNop queue => decide (queue < 256)
  | .packetLaunch queue => decide (queue < 256)
  | .packetJob queue => decide (queue < 256)
  | .packetFence queue => decide (queue < 256)
  | .packetSignal queue => decide (queue < 256)
  | .packetWaitev queue => decide (queue < 256)
  | .waitevReread queue => decide (queue < 256)
  | .msixUnmask fn _ => decide (fn < 64)
  | .aduKick world => decide (world < 64)
  | .aduSlotReread world => decide (world < 64)
  | .aduRequestConsume world => decide (world < 64)
  | .admissionComplete world => decide (world < 64)
  | .worldSet => true
  | .map2 => true
  | .unmap2 => true
  | .inval => true
  | .teardown => true
  | .ploughPageClean die => decide (die < 32)
  | .ploughTimeout die => decide (die < 32)
  | .ploughRestart die => decide (die < 32)
  | .geninc _ => true
  | .vdevRegWrite vdev _ _ => decide (vdev < 64)
  | .vdevDisable vdev => decide (vdev < 64)
  | .vfEnableClear => true
  | .dbgenWrite _ => true
  | .resume _ => true
  | .faultLogEnable _ => true
  | .registerWrite fn _ _ => decide (fn < 64)
  | .hostWindowAccess member _ _ _ => decide (member < 8)
  | .sessionLockWrite port _ => decide (port < 4)
  | .sessionTimeout => true
  | .readLife port => decide (port < 4)
  | .readState port _ => decide (port < 4)
  | .stageFw port _ => decide (port < 4)
  | .activateFw port => decide (port < 4)
  | .fwUnitMove _ _ => true
  | .lifetimeAccumulate _ => true
  | .lifetimeCommit => true
  | .orderlyShutdown => true
  | .getVersion _ => true
  | .getCapabilities _ => true
  | .negotiateAlgorithms _ => true
  | .getDigests _ => true
  | .getCertificate _ => true
  | .challenge _ => true
  | .getMeasurements _ => true
  | .keyExchange _ => true
  | .finish _ => true
  | .endSession _ => true
  | .coldReset => true
  | .functionLevelReset => true
  | .hotReset => true
  | .mctpEndpointLoss port => decide (port < 4)
  | .securityCoreRestart _ => true
  | .dieTrained die => decide (die < 32)
  | .linkTrained _ farIndex => decide (farIndex < 64)
  | .trainingDeadline => true
  | .structureError _ => true
  | .packetTagFailure _ => true
  | .linkRetrain _ => true
  | .replicaPin _ => true
  | .sledInject _ => true
  | .sledSteer _ => true
  | .sledAccept _ => true
  | .ringRefill core => decide (core < 1024)
  | .sledAdmit core => decide (core < 1024)
  | .replicationWatch _ _ => true
  | .sledTimeout _ => true
  | .hostMemoryAccess _ => true
  | .scoreboardRelease core slot _ => decide (core < 1024) && decide (slot < 64)
  | .entryCacheFill core slot => decide (core < 1024) && decide (slot < 64)
  | .linkRetrainDone _ _ => true
  | .secondStageBuilt => true
  | .testStart => true
  | .powerLoss => true

/-- Rule 106: pairs are even, runs start and end as R111 and the instruction's own rule say. -/
def Instr.pairsOk : Instr → Bool
  | .nop => true
  | .br _ _ _ => true
  | .brc _ _ _ _ => true
  | .brz _ _ _ _ => true
  | .call _ _ _ => true
  | .calli _ => true
  | .ret => true
  | .join => true
  | .exitw => true
  | .yield => true
  | .sleep _ => true
  | .trap _ => true
  | .brx _ _ => true
  | .setmode _ => true
  | .ipref _ _ => true
  | .add _ _ _ _ => true
  | .sub _ _ _ _ => true
  | .mul _ _ _ _ => true
  | .mulh _ _ _ _ => true
  | .mad _ _ _ _ => true
  | .iand _ _ _ _ => true
  | .ior _ _ _ _ => true
  | .ixor _ _ _ _ => true
  | .shl _ _ _ _ => true
  | .shr _ _ _ _ => true
  | .sar _ _ _ _ => true
  | .imin _ _ _ _ => true
  | .imax _ _ _ _ => true
  | .sel _ _ _ _ => true
  | .iabs _ _ _ => true
  | .ineg _ _ _ => true
  | .cmpeq _ _ _ _ => true
  | .cmpne _ _ _ _ => true
  | .cmplt _ _ _ _ => true
  | .cmple _ _ _ _ => true
  | .clz _ _ _ => true
  | .popc _ _ _ => true
  | .brev _ _ _ => true
  | .bfx _ _ _ _ => true
  | .bfi _ _ _ _ => true
  | .prmt _ _ _ _ => true
  | .dp4 _ _ _ _ => true
  | .dp4s _ _ _ _ => true
  | .dp2 _ _ _ _ => true
  | .dp2s _ _ _ _ => true
  | .mov _ _ _ => true
  | .inot _ _ _ => true
  | .addi _ _ _ _ => true
  | .andi _ _ _ _ => true
  | .ori _ _ _ _ => true
  | .xori _ _ _ _ => true
  | .shli _ _ _ _ => true
  | .shri _ _ _ _ => true
  | .sari _ _ _ _ => true
  | .muli _ _ _ _ => true
  | .cmpeqi _ _ _ _ => true
  | .cmplti _ _ _ _ => true
  | .movi _ _ _ => true
  | .movhi _ _ _ => true
  | .movx _ d i => (!specialPair i || evenReg d)
  | .xmov _ _ _ => true
  | .movrd _ _ _ => true
  | .movrw _ _ _ => true
  | .add64 _ d a b => evenReg d && evenReg a && evenReg b
  | .add64w _ d a _ => evenReg d && evenReg a
  | .sub64 _ d a b => evenReg d && evenReg a && evenReg b
  | .addi64 _ d a _ => evenReg d && evenReg a
  | .lea4 _ d a _ => evenReg d && evenReg a
  | .lea8 _ d a _ => evenReg d && evenReg a
  | .lea16 _ d a _ => evenReg d && evenReg a
  | .mov64 _ d a => evenReg d && evenReg a
  | .wmul _ d _ _ => evenReg d
  | .wmad p d _ _ => evenReg d && evenC p
  | .shl64 _ d a _ => evenReg d && evenReg a
  | .shr64 _ d a _ => evenReg d && evenReg a
  | .cmplt64 _ _ a b => evenReg a && evenReg b
  | .chkb d _ _ _ => evenReg d
  | .chkr _ _ => true
  | .chka _ _ _ _ => true
  | .fadd _ _ _ _ => true
  | .fsub _ _ _ _ => true
  | .fmul _ _ _ _ => true
  | .ffma _ _ _ _ => true
  | .fmin _ _ _ _ => true
  | .fmax _ _ _ _ => true
  | .fminn _ _ _ _ => true
  | .fmaxn _ _ _ _ => true
  | .fcmpeq _ _ _ _ => true
  | .fcmplt _ _ _ _ => true
  | .fcmple _ _ _ _ => true
  | .fcmpun _ _ _ _ => true
  | .fabs _ _ _ => true
  | .fneg _ _ _ => true
  | .fclass _ _ _ => true
  | .fscale _ _ _ _ => true
  | .frcp _ _ _ => true
  | .frsq _ _ _ => true
  | .fsqrt _ _ _ => true
  | .fexp2 _ _ _ => true
  | .flog2 _ _ _ => true
  | .fsin _ _ _ => true
  | .fcos _ _ _ => true
  | .ftanh _ _ _ => true
  | .frnd _ _ _ => true
  | .fdot2 _ _ _ _ => true
  | .cvtf _ _ a _ v => (2 ≤ v.toNat || evenReg a)
  | .cvtfi _ _ _ _ _ => true
  | .cvtif _ _ _ _ _ => true
  | .cvtn _ _ a _ _ v => runAt a (packLen v)
  | .cvtw _ d _ _ _ v => runAt d (packLen v)
  | .shfl _ _ _ _ => true
  | .shflup _ _ _ _ => true
  | .shfldn _ _ _ _ => true
  | .shflx _ _ _ _ => true
  | .vall _ _ _ => true
  | .vany _ _ _ => true
  | .ballot _ _ _ => true
  | .redadd _ _ _ => true
  | .redmin _ _ _ => true
  | .redmax _ _ _ => true
  | .redand _ _ _ => true
  | .redor _ _ _ => true
  | .scan _ _ _ _ _ => true
  | .elect _ _ => true
  | .matchv _ _ _ => true
  | .xchg d s _ n => runFits d (n.toNat + 1) && runFits s (n.toNat + 1)
  | .ldb _ _ a _ => evenReg a
  | .ldbs _ _ a _ => evenReg a
  | .ldh _ _ a _ => evenReg a
  | .ldhs _ _ a _ => evenReg a
  | .ldw _ _ a _ => evenReg a
  | .ldd _ d a _ => evenReg a && evenReg d
  | .ldq _ d a _ => evenReg a && quadReg d
  | .stb _ _ a _ => evenReg a
  | .sth _ _ a _ => evenReg a
  | .stw _ _ a _ => evenReg a
  | .std _ d a _ => evenReg a && evenReg d
  | .stq _ d a _ => evenReg a && quadReg d
  | .ldwr _ _ a _ => evenReg a
  | .ldqr _ d a _ => evenReg a && quadReg d
  | .stnt _ _ a _ => evenReg a
  | .prefL1 _ a _ => evenReg a
  | .prefHome _ a _ => evenReg a
  | .ldacq _ _ a _ _ => evenReg a
  | .strel _ _ a _ _ => evenReg a
  | .fence _ _ => true
  | .lds _ _ _ _ => true
  | .sts _ _ _ _ => true
  | .ldsq _ d _ _ => quadReg d
  | .stsq _ d _ _ => quadReg d
  | .ldm d a n => evenReg a && runFits d (n.toNat + 1)
  | .stm d a n => evenReg a && runFits d (n.toNat + 1)
  | .lock _ a _ => evenReg a
  | .unlock _ a _ => evenReg a
  | .aadd _ _ a _ _ => evenReg a
  | .amin _ _ a _ _ => evenReg a
  | .amax _ _ a _ _ => evenReg a
  | .aand _ _ a _ _ => evenReg a
  | .aor _ _ a _ _ => evenReg a
  | .axor _ _ a _ _ => evenReg a
  | .axchg _ _ a _ _ => evenReg a
  | .acas _ _ a _ _ => evenReg a
  | .ainc _ _ a _ _ => evenReg a
  | .afadd _ _ a _ _ => evenReg a
  | .afadd2 _ _ a _ _ => evenReg a
  | .aadd64 _ d a _ _ => evenReg a && evenReg d
  | .acas64 p d a _ _ => evenReg a && evenReg d && evenC p
  | .sadd _ _ _ _ _ => true
  | .scas _ _ _ _ _ => true
  | .sxchg _ _ _ _ _ => true
  | .bar _ _ _ => true
  | .bararv _ _ => true
  | .barwt _ _ _ => true
  | .barexp _ _ _ => true
  | .waitc _ _ _ _ => true
  | .waitr _ => true
  | .hwait _ _ _ => true
  | .hsetFree _ _ _ => true
  | .hsetFull _ _ _ => true
  | .hsetRel _ => true
  | .hsetFill _ => true
  | .ringadvNew _ _ _ => true
  | .ringadv _ _ => true
  | .copy _ _ b => evenReg b
  | .copym _ _ b => evenReg b
  | .copys _ _ b => quadReg b
  | .launch _ a => evenReg a
  | .job _ a => evenReg a
  | .jobwt _ => true
  | .tbld _ _ _ _ _ => true
  | .tmma _ a _ _ _ => a.toNat % 16 == 0
  | .tmmab _ a _ _ _ => a.toNat % 16 == 0
  | .tmmap _ a _ _ _ => a.toNat % 16 == 0
  | .taccz _ _ _ => true
  | .taccld d _ _ _ => evenReg d
  | .taccst _ _ _ _ => true
  | .trel => true
  | .trelArray => true
  | .clock d => evenReg d
  | .perf _ _ => true
  | .eret => true
  | .traprd _ _ => true
  | .segq d a => evenReg d && evenReg a
  | .bkpt _ => true
  | .sleepExpiry _ _ _ => true
  | .warpEnd _ _ => true
  | .loadReply _ => true
  | .storePerformed _ => true
  | .lockHandoverReply _ _ _ => true
  | .lockRetry _ _ _ => true
  | .lockWaiterWake _ => true
  | .copyAccept _ => true
  | .copyLinePerformed _ _ => true
  | .copyComplete _ => true
  | .mergeEntryClose _ => true
  | .xchgMatch _ _ _ _ => true
  | .tbldLatch _ _ => true
  | .tileRetire _ _ => true
  | .tmmapFollowerTimeout _ => true
  | .jobComplete _ => true
  | .linkStackRefill _ _ => true
  | .comparisonPoint _ => true
  | .redundantWaitTimeout _ => true
  | .translationWalkComplete _ _ _ => true
  | .remoteTimeout _ => true
  | .demandFetch _ _ _ => true
  | .fetchAhead _ _ _ => true
  | .trapEntry _ _ => true
  | .impreciseFaultTake _ _ => true
  | .faultLogAck => true
  | .quantumExpiry _ => true
  | .teamPlace _ => true
  | .dieAdvertise _ => true
  | .migrationMessage _ => true
  | .migrationConfirmTimeout _ => true
  | .taskComplete _ => true
  | .kick _ _ => true
  | .queueEnWrite _ _ => true
  | .lapReread _ => true
  | .queueLapTimeout _ => true
  | .packetNop _ => true
  | .packetLaunch _ => true
  | .packetJob _ => true
  | .packetFence _ => true
  | .packetSignal _ => true
  | .packetWaitev _ => true
  | .waitevReread _ => true
  | .msixUnmask _ _ => true
  | .aduKick _ => true
  | .aduSlotReread _ => true
  | .aduRequestConsume _ => true
  | .admissionComplete _ => true
  | .worldSet => true
  | .map2 => true
  | .unmap2 => true
  | .inval => true
  | .teardown => true
  | .ploughPageClean _ => true
  | .ploughTimeout _ => true
  | .ploughRestart _ => true
  | .geninc _ => true
  | .vdevRegWrite _ _ _ => true
  | .vdevDisable _ => true
  | .vfEnableClear => true
  | .dbgenWrite _ => true
  | .resume _ => true
  | .faultLogEnable _ => true
  | .registerWrite _ _ _ => true
  | .hostWindowAccess _ _ _ _ => true
  | .sessionLockWrite _ _ => true
  | .sessionTimeout => true
  | .readLife _ => true
  | .readState _ _ => true
  | .stageFw _ _ => true
  | .activateFw _ => true
  | .fwUnitMove _ _ => true
  | .lifetimeAccumulate _ => true
  | .lifetimeCommit => true
  | .orderlyShutdown => true
  | .getVersion _ => true
  | .getCapabilities _ => true
  | .negotiateAlgorithms _ => true
  | .getDigests _ => true
  | .getCertificate _ => true
  | .challenge _ => true
  | .getMeasurements _ => true
  | .keyExchange _ => true
  | .finish _ => true
  | .endSession _ => true
  | .coldReset => true
  | .functionLevelReset => true
  | .hotReset => true
  | .mctpEndpointLoss _ => true
  | .securityCoreRestart _ => true
  | .dieTrained _ => true
  | .linkTrained _ _ => true
  | .trainingDeadline => true
  | .structureError _ => true
  | .packetTagFailure _ => true
  | .linkRetrain _ => true
  | .replicaPin _ => true
  | .sledInject _ => true
  | .sledSteer _ => true
  | .sledAccept _ => true
  | .ringRefill _ => true
  | .sledAdmit _ => true
  | .replicationWatch _ _ => true
  | .sledTimeout _ => true
  | .hostMemoryAccess _ => true
  | .scoreboardRelease _ _ _ => true
  | .entryCacheFill _ _ => true
  | .linkRetrainDone _ _ => true
  | .secondStageBuilt => true
  | .testStart => true
  | .powerLoss => true

/-- A well-formed instruction breaks none of rules 102, 103, 104 and 106. -/
def Instr.wellFormed (i : Instr) : Bool :=
  i.pfxZeroOk && i.selOk && i.pfxRmOk && i.reservedOk && i.pairsOk

end Sys2Proof
end

