-- ==== Sys2Proof/Decode.lean ====
section
/-! DEFINITION. Decoding and encoding (R108 to R121, Table ENC.2 and Table ENC.3).

Words are little-endian 32-bit words.  The decoder is total on byte lists: it answers the instruction and the bytes
after it, or the admission rule by which R113 and R114 turn the bytes away, lowest rule first.  The encoder writes an
instruction from the same tables of the spec. -/

namespace Sys2Proof

/-- Why bytes are no instruction: the encoding rules of R114, and `truncated` where the bytes end inside a word. -/
inductive Reject where
  /-- Rule 101: the opcode names no instruction. -/
  | opcode
  /-- Rule 102: a field required to be 0 is not 0. -/
  | zeroField
  /-- Rule 103: misuse of a prefix, or SEL without one. -/
  | pfxUse
  /-- Rule 104: a reserved value. -/
  | reserved
  /-- Rule 106: a pair or run that breaks R111. -/
  | pairRun
  /-- The bytes end before the instruction does. -/
  | truncated
  deriving DecidableEq, Repr

/-- One row of the opcode map: the bits its format and entry require to be 0, whether Table ENC.4 lets it carry a
prefix, and the instruction its fields make. -/
structure OpRow where
  zeros : Word
  takesPfx : Bool
  build : Option Pfx → Word → Instr

/-- The `n` bits of a word from bit `lo` upward. -/
def fieldOf (w : Word) (lo n : Nat) : BitVec n := w.extractLsb' lo n

/-- One bit of a word. -/
def bitOf (w : Word) (i : Nat) : Bool := w.getLsbD i

/-- A prefix word's fields (Table ENC.3). -/
def pfxOf (w : Word) : Pfx :=
  { z := bitOf w 27, rv := bitOf w 26, rm := fieldOf w 23 3, g := fieldOf w 15 8, gv := bitOf w 14,
    gn := bitOf w 13, x5 := fieldOf w 8 5, c := fieldOf w 0 8 }

/-- A prefix word: bits 31:28 are 1111. -/
def isPfxWord (w : Word) : Bool := fieldOf w 28 4 == 0xF#4

/-- Opcodes 0x00 to 0x0F of Table ENC.2. -/
def opRow0 (_ : Word) (lo : Nat) : Option OpRow :=
  match lo with
  | 1 => some ⟨0xFFFFFF#32, false, fun _ _ => .nop⟩
  | 2 => some ⟨0x000000#32, true, fun p w => .br p (fieldOf w 22 2) (fieldOf w 0 22)⟩
  | 3 => some ⟨0x000000#32, true, fun p w => .brc p (fieldOf w 16 8) (fieldOf w 14 2) (fieldOf w 0 14)⟩
  | 4 => some ⟨0x000000#32, true, fun p w => .brz p (fieldOf w 16 8) (fieldOf w 14 2) (fieldOf w 0 14)⟩
  | 5 => some ⟨0x000000#32, true, fun p w => .call p (fieldOf w 22 2) (fieldOf w 0 22)⟩
  | 6 => some ⟨0xFF00FF#32, false, fun _ w => .calli (fieldOf w 8 8)⟩
  | 7 => some ⟨0xFFFFFF#32, false, fun _ _ => .ret⟩
  | 8 => some ⟨0xFFFFFF#32, false, fun _ _ => .join⟩
  | 9 => some ⟨0xFFFFFF#32, false, fun _ _ => .exitw⟩
  | 10 => some ⟨0xFFFFFF#32, false, fun _ _ => .yield⟩
  | 11 => some ⟨0xFF0000#32, false, fun _ w => .sleep (fieldOf w 0 16)⟩
  | 12 => some ⟨0xFF0000#32, false, fun _ w => .trap (fieldOf w 0 16)⟩
  | 13 => some ⟨0x00C000#32, false, fun _ w => .brx (fieldOf w 16 8) (fieldOf w 0 14)⟩
  | 14 => some ⟨0xF00000#32, false, fun _ w => .setmode (fieldOf w 0 20)⟩
  | 15 => some ⟨0x00C000#32, false, fun _ w => .ipref (fieldOf w 16 8) (fieldOf w 0 14)⟩
  | _ => none

/-- Opcodes 0x10 to 0x1F of Table ENC.2. -/
def opRow1 (_ : Word) (lo : Nat) : Option OpRow :=
  match lo with
  | 0 => some ⟨0x000000#32, true, fun p w => .add p (fieldOf w 16 8) (fieldOf w 8 8) (fieldOf w 0 8)⟩
  | 1 => some ⟨0x000000#32, true, fun p w => .sub p (fieldOf w 16 8) (fieldOf w 8 8) (fieldOf w 0 8)⟩
  | 2 => some ⟨0x000000#32, true, fun p w => .mul p (fieldOf w 16 8) (fieldOf w 8 8) (fieldOf w 0 8)⟩
  | 3 => some ⟨0x000000#32, true, fun p w => .mulh p (fieldOf w 16 8) (fieldOf w 8 8) (fieldOf w 0 8)⟩
  | 4 => some ⟨0x000000#32, true, fun p w => .mad p (fieldOf w 16 8) (fieldOf w 8 8) (fieldOf w 0 8)⟩
  | 5 => some ⟨0x000000#32, true, fun p w => .iand p (fieldOf w 16 8) (fieldOf w 8 8) (fieldOf w 0 8)⟩
  | 6 => some ⟨0x000000#32, true, fun p w => .ior p (fieldOf w 16 8) (fieldOf w 8 8) (fieldOf w 0 8)⟩
  | 7 => some ⟨0x000000#32, true, fun p w => .ixor p (fieldOf w 16 8) (fieldOf w 8 8) (fieldOf w 0 8)⟩
  | 8 => some ⟨0x000000#32, true, fun p w => .shl p (fieldOf w 16 8) (fieldOf w 8 8) (fieldOf w 0 8)⟩
  | 9 => some ⟨0x000000#32, true, fun p w => .shr p (fieldOf w 16 8) (fieldOf w 8 8) (fieldOf w 0 8)⟩
  | 10 => some ⟨0x000000#32, true, fun p w => .sar p (fieldOf w 16 8) (fieldOf w 8 8) (fieldOf w 0 8)⟩
  | 11 => some ⟨0x000000#32, true, fun p w => .imin p (fieldOf w 16 8) (fieldOf w 8 8) (fieldOf w 0 8)⟩
  | 12 => some ⟨0x000000#32, true, fun p w => .imax p (fieldOf w 16 8) (fieldOf w 8 8) (fieldOf w 0 8)⟩
  | 13 => some ⟨0x000000#32, true, fun p w => .sel p (fieldOf w 16 8) (fieldOf w 8 8) (fieldOf w 0 8)⟩
  | 14 => some ⟨0x0000FF#32, true, fun p w => .iabs p (fieldOf w 16 8) (fieldOf w 8 8)⟩
  | 15 => some ⟨0x0000FF#32, true, fun p w => .ineg p (fieldOf w 16 8) (fieldOf w 8 8)⟩
  | _ => none

/-- Opcodes 0x20 to 0x2F of Table ENC.2. -/
def opRow2 (_ : Word) (lo : Nat) : Option OpRow :=
  match lo with
  | 0 => some ⟨0x000000#32, true, fun p w => .cmpeq p (fieldOf w 16 8) (fieldOf w 8 8) (fieldOf w 0 8)⟩
  | 1 => some ⟨0x000000#32, true, fun p w => .cmpne p (fieldOf w 16 8) (fieldOf w 8 8) (fieldOf w 0 8)⟩
  | 2 => some ⟨0x000000#32, true, fun p w => .cmplt p (fieldOf w 16 8) (fieldOf w 8 8) (fieldOf w 0 8)⟩
  | 3 => some ⟨0x000000#32, true, fun p w => .cmple p (fieldOf w 16 8) (fieldOf w 8 8) (fieldOf w 0 8)⟩
  | 4 => some ⟨0x0000FF#32, true, fun p w => .clz p (fieldOf w 16 8) (fieldOf w 8 8)⟩
  | 5 => some ⟨0x0000FF#32, true, fun p w => .popc p (fieldOf w 16 8) (fieldOf w 8 8)⟩
  | 6 => some ⟨0x0000FF#32, true, fun p w => .brev p (fieldOf w 16 8) (fieldOf w 8 8)⟩
  | 7 => some ⟨0x000000#32, true, fun p w => .bfx p (fieldOf w 16 8) (fieldOf w 8 8) (fieldOf w 0 8)⟩
  | 8 => some ⟨0x000000#32, true, fun p w => .bfi p (fieldOf w 16 8) (fieldOf w 8 8) (fieldOf w 0 8)⟩
  | 9 => some ⟨0x000000#32, true, fun p w => .prmt p (fieldOf w 16 8) (fieldOf w 8 8) (fieldOf w 0 8)⟩
  | 10 => some ⟨0x000000#32, true, fun p w => .dp4 p (fieldOf w 16 8) (fieldOf w 8 8) (fieldOf w 0 8)⟩
  | 11 => some ⟨0x000000#32, true, fun p w => .dp4s p (fieldOf w 16 8) (fieldOf w 8 8) (fieldOf w 0 8)⟩
  | 12 => some ⟨0x000000#32, true, fun p w => .dp2 p (fieldOf w 16 8) (fieldOf w 8 8) (fieldOf w 0 8)⟩
  | 13 => some ⟨0x000000#32, true, fun p w => .dp2s p (fieldOf w 16 8) (fieldOf w 8 8) (fieldOf w 0 8)⟩
  | 14 => some ⟨0x0000FF#32, true, fun p w => .mov p (fieldOf w 16 8) (fieldOf w 8 8)⟩
  | 15 => some ⟨0x0000FF#32, true, fun p w => .inot p (fieldOf w 16 8) (fieldOf w 8 8)⟩
  | _ => none

/-- Opcodes 0x30 to 0x3F of Table ENC.2. -/
def opRow3 (_ : Word) (lo : Nat) : Option OpRow :=
  match lo with
  | 0 => some ⟨0x000000#32, true, fun p w => .addi p (fieldOf w 16 8) (fieldOf w 8 8) (fieldOf w 0 8)⟩
  | 1 => some ⟨0x000000#32, true, fun p w => .andi p (fieldOf w 16 8) (fieldOf w 8 8) (fieldOf w 0 8)⟩
  | 2 => some ⟨0x000000#32, true, fun p w => .ori p (fieldOf w 16 8) (fieldOf w 8 8) (fieldOf w 0 8)⟩
  | 3 => some ⟨0x000000#32, true, fun p w => .xori p (fieldOf w 16 8) (fieldOf w 8 8) (fieldOf w 0 8)⟩
  | 4 => some ⟨0x0000E0#32, true, fun p w => .shli p (fieldOf w 16 8) (fieldOf w 8 8) (fieldOf w 0 5)⟩
  | 5 => some ⟨0x0000E0#32, true, fun p w => .shri p (fieldOf w 16 8) (fieldOf w 8 8) (fieldOf w 0 5)⟩
  | 6 => some ⟨0x0000E0#32, true, fun p w => .sari p (fieldOf w 16 8) (fieldOf w 8 8) (fieldOf w 0 5)⟩
  | 7 => some ⟨0x000000#32, true, fun p w => .muli p (fieldOf w 16 8) (fieldOf w 8 8) (fieldOf w 0 8)⟩
  | 8 => some ⟨0x000000#32, true, fun p w => .cmpeqi p (fieldOf w 16 8) (fieldOf w 8 8) (fieldOf w 0 8)⟩
  | 9 => some ⟨0x000000#32, true, fun p w => .cmplti p (fieldOf w 16 8) (fieldOf w 8 8) (fieldOf w 0 8)⟩
  | 10 => some ⟨0x000000#32, true, fun p w => .movi p (fieldOf w 16 8) (fieldOf w 0 16)⟩
  | 11 => some ⟨0x000000#32, true, fun p w => .movhi p (fieldOf w 16 8) (fieldOf w 0 16)⟩
  | 12 => some ⟨0x00FF00#32, true, fun p w => .movx p (fieldOf w 16 8) (fieldOf w 0 8)⟩
  | 13 => some ⟨0xFF0000#32, true, fun p w => .xmov p (fieldOf w 8 8) (fieldOf w 0 8)⟩
  | 14 => some ⟨0x0000FF#32, true, fun p w => .movrd p (fieldOf w 16 8) (fieldOf w 8 8)⟩
  | 15 => some ⟨0x0000FF#32, true, fun p w => .movrw p (fieldOf w 16 8) (fieldOf w 8 8)⟩
  | _ => none

/-- Opcodes 0x40 to 0x4F of Table ENC.2. -/
def opRow4 (_ : Word) (lo : Nat) : Option OpRow :=
  match lo with
  | 0 => some ⟨0x000000#32, true, fun p w => .add64 p (fieldOf w 16 8) (fieldOf w 8 8) (fieldOf w 0 8)⟩
  | 1 => some ⟨0x000000#32, true, fun p w => .add64w p (fieldOf w 16 8) (fieldOf w 8 8) (fieldOf w 0 8)⟩
  | 2 => some ⟨0x000000#32, true, fun p w => .sub64 p (fieldOf w 16 8) (fieldOf w 8 8) (fieldOf w 0 8)⟩
  | 3 => some ⟨0x000000#32, true, fun p w => .addi64 p (fieldOf w 16 8) (fieldOf w 8 8) (fieldOf w 0 8)⟩
  | 4 => some ⟨0x000000#32, true, fun p w => .lea4 p (fieldOf w 16 8) (fieldOf w 8 8) (fieldOf w 0 8)⟩
  | 5 => some ⟨0x000000#32, true, fun p w => .lea8 p (fieldOf w 16 8) (fieldOf w 8 8) (fieldOf w 0 8)⟩
  | 6 => some ⟨0x000000#32, true, fun p w => .lea16 p (fieldOf w 16 8) (fieldOf w 8 8) (fieldOf w 0 8)⟩
  | 7 => some ⟨0x0000FF#32, true, fun p w => .mov64 p (fieldOf w 16 8) (fieldOf w 8 8)⟩
  | 8 => some ⟨0x000000#32, true, fun p w => .wmul p (fieldOf w 16 8) (fieldOf w 8 8) (fieldOf w 0 8)⟩
  | 9 => some ⟨0x000000#32, true, fun p w => .wmad p (fieldOf w 16 8) (fieldOf w 8 8) (fieldOf w 0 8)⟩
  | 10 => some ⟨0x000000#32, true, fun p w => .shl64 p (fieldOf w 16 8) (fieldOf w 8 8) (fieldOf w 0 8)⟩
  | 11 => some ⟨0x000000#32, true, fun p w => .shr64 p (fieldOf w 16 8) (fieldOf w 8 8) (fieldOf w 0 8)⟩
  | 12 => some ⟨0x000000#32, true, fun p w => .cmplt64 p (fieldOf w 16 8) (fieldOf w 8 8) (fieldOf w 0 8)⟩
  | 13 => some ⟨0x000000#32, false, fun _ w => .chkb (fieldOf w 16 8) (fieldOf w 12 4) (fieldOf w 6 6) (fieldOf w 0 6)⟩
  | 14 => some ⟨0x000000#32, false, fun _ w => .chkr (fieldOf w 16 8) (fieldOf w 0 16)⟩
  | 15 => some ⟨0x000000#32, false, fun _ w => .chka (fieldOf w 16 8) (fieldOf w 15 1) (fieldOf w 10 5) (fieldOf w 0 10)⟩
  | _ => none

/-- Opcodes 0x50 to 0x5F of Table ENC.2. -/
def opRow5 (_ : Word) (lo : Nat) : Option OpRow :=
  match lo with
  | 0 => some ⟨0x000000#32, true, fun p w => .fadd p (fieldOf w 16 8) (fieldOf w 8 8) (fieldOf w 0 8)⟩
  | 1 => some ⟨0x000000#32, true, fun p w => .fsub p (fieldOf w 16 8) (fieldOf w 8 8) (fieldOf w 0 8)⟩
  | 2 => some ⟨0x000000#32, true, fun p w => .fmul p (fieldOf w 16 8) (fieldOf w 8 8) (fieldOf w 0 8)⟩
  | 3 => some ⟨0x000000#32, true, fun p w => .ffma p (fieldOf w 16 8) (fieldOf w 8 8) (fieldOf w 0 8)⟩
  | 4 => some ⟨0x000000#32, true, fun p w => .fmin p (fieldOf w 16 8) (fieldOf w 8 8) (fieldOf w 0 8)⟩
  | 5 => some ⟨0x000000#32, true, fun p w => .fmax p (fieldOf w 16 8) (fieldOf w 8 8) (fieldOf w 0 8)⟩
  | 6 => some ⟨0x000000#32, true, fun p w => .fminn p (fieldOf w 16 8) (fieldOf w 8 8) (fieldOf w 0 8)⟩
  | 7 => some ⟨0x000000#32, true, fun p w => .fmaxn p (fieldOf w 16 8) (fieldOf w 8 8) (fieldOf w 0 8)⟩
  | 8 => some ⟨0x000000#32, true, fun p w => .fcmpeq p (fieldOf w 16 8) (fieldOf w 8 8) (fieldOf w 0 8)⟩
  | 9 => some ⟨0x000000#32, true, fun p w => .fcmplt p (fieldOf w 16 8) (fieldOf w 8 8) (fieldOf w 0 8)⟩
  | 10 => some ⟨0x000000#32, true, fun p w => .fcmple p (fieldOf w 16 8) (fieldOf w 8 8) (fieldOf w 0 8)⟩
  | 11 => some ⟨0x000000#32, true, fun p w => .fcmpun p (fieldOf w 16 8) (fieldOf w 8 8) (fieldOf w 0 8)⟩
  | 12 => some ⟨0x0000FF#32, true, fun p w => .fabs p (fieldOf w 16 8) (fieldOf w 8 8)⟩
  | 13 => some ⟨0x0000FF#32, true, fun p w => .fneg p (fieldOf w 16 8) (fieldOf w 8 8)⟩
  | 14 => some ⟨0x0000FF#32, true, fun p w => .fclass p (fieldOf w 16 8) (fieldOf w 8 8)⟩
  | 15 => some ⟨0x000000#32, true, fun p w => .fscale p (fieldOf w 16 8) (fieldOf w 8 8) (fieldOf w 0 8)⟩
  | _ => none

/-- Opcodes 0x60 to 0x6F of Table ENC.2. -/
def opRow6 (_ : Word) (lo : Nat) : Option OpRow :=
  match lo with
  | 0 => some ⟨0x0000FF#32, true, fun p w => .frcp p (fieldOf w 16 8) (fieldOf w 8 8)⟩
  | 1 => some ⟨0x0000FF#32, true, fun p w => .frsq p (fieldOf w 16 8) (fieldOf w 8 8)⟩
  | 2 => some ⟨0x0000FF#32, true, fun p w => .fsqrt p (fieldOf w 16 8) (fieldOf w 8 8)⟩
  | 3 => some ⟨0x0000FF#32, true, fun p w => .fexp2 p (fieldOf w 16 8) (fieldOf w 8 8)⟩
  | 4 => some ⟨0x0000FF#32, true, fun p w => .flog2 p (fieldOf w 16 8) (fieldOf w 8 8)⟩
  | 5 => some ⟨0x0000FF#32, true, fun p w => .fsin p (fieldOf w 16 8) (fieldOf w 8 8)⟩
  | 6 => some ⟨0x0000FF#32, true, fun p w => .fcos p (fieldOf w 16 8) (fieldOf w 8 8)⟩
  | 7 => some ⟨0x0000FF#32, true, fun p w => .ftanh p (fieldOf w 16 8) (fieldOf w 8 8)⟩
  | 8 => some ⟨0x0000FF#32, true, fun p w => .frnd p (fieldOf w 16 8) (fieldOf w 8 8)⟩
  | 9 => some ⟨0x000000#32, true, fun p w => .fdot2 p (fieldOf w 16 8) (fieldOf w 8 8) (fieldOf w 0 8)⟩
  | 10 => some ⟨0x0000E0#32, true, fun p w => .cvtf p (fieldOf w 16 8) (fieldOf w 8 8) (fieldOf w 2 3) (fieldOf w 0 2)⟩
  | 11 => some ⟨0x0000E0#32, true, fun p w => .cvtfi p (fieldOf w 16 8) (fieldOf w 8 8) (fieldOf w 2 3) (fieldOf w 0 2)⟩
  | 12 => some ⟨0x0000E0#32, true, fun p w => .cvtif p (fieldOf w 16 8) (fieldOf w 8 8) (fieldOf w 2 3) (fieldOf w 0 2)⟩
  | 13 => some ⟨0x000000#32, true, fun p w => .cvtn p (fieldOf w 16 8) (fieldOf w 8 8) (fieldOf w 5 3) (fieldOf w 2 3) (fieldOf w 0 2)⟩
  | 14 => some ⟨0x000000#32, true, fun p w => .cvtw p (fieldOf w 16 8) (fieldOf w 8 8) (fieldOf w 5 3) (fieldOf w 2 3) (fieldOf w 0 2)⟩
  | _ => none

/-- Opcodes 0x70 to 0x7F of Table ENC.2. -/
def opRow7 (_ : Word) (lo : Nat) : Option OpRow :=
  match lo with
  | 0 => some ⟨0x000000#32, true, fun p w => .shfl p (fieldOf w 16 8) (fieldOf w 8 8) (fieldOf w 0 8)⟩
  | 1 => some ⟨0x000000#32, true, fun p w => .shflup p (fieldOf w 16 8) (fieldOf w 8 8) (fieldOf w 0 8)⟩
  | 2 => some ⟨0x000000#32, true, fun p w => .shfldn p (fieldOf w 16 8) (fieldOf w 8 8) (fieldOf w 0 8)⟩
  | 3 => some ⟨0x000000#32, true, fun p w => .shflx p (fieldOf w 16 8) (fieldOf w 8 8) (fieldOf w 0 8)⟩
  | 4 => some ⟨0x0000FF#32, true, fun p w => .vall p (fieldOf w 16 8) (fieldOf w 8 8)⟩
  | 5 => some ⟨0x0000FF#32, true, fun p w => .vany p (fieldOf w 16 8) (fieldOf w 8 8)⟩
  | 6 => some ⟨0x0000FF#32, true, fun p w => .ballot p (fieldOf w 16 8) (fieldOf w 8 8)⟩
  | 7 => some ⟨0x0000FF#32, true, fun p w => .redadd p (fieldOf w 16 8) (fieldOf w 8 8)⟩
  | 8 => some ⟨0x0000FF#32, true, fun p w => .redmin p (fieldOf w 16 8) (fieldOf w 8 8)⟩
  | 9 => some ⟨0x0000FF#32, true, fun p w => .redmax p (fieldOf w 16 8) (fieldOf w 8 8)⟩
  | 10 => some ⟨0x0000FF#32, true, fun p w => .redand p (fieldOf w 16 8) (fieldOf w 8 8)⟩
  | 11 => some ⟨0x0000FF#32, true, fun p w => .redor p (fieldOf w 16 8) (fieldOf w 8 8)⟩
  | 12 => some ⟨0x0000F8#32, true, fun p w => .scan p (fieldOf w 16 8) (fieldOf w 8 8) (fieldOf w 2 1) (fieldOf w 0 2)⟩
  | 13 => some ⟨0x00FFFF#32, true, fun p w => .elect p (fieldOf w 16 8)⟩
  | 14 => some ⟨0x0000FF#32, true, fun p w => .matchv p (fieldOf w 16 8) (fieldOf w 8 8)⟩
  | 15 => some ⟨0x000000#32, false, fun _ w => .xchg (fieldOf w 16 8) (fieldOf w 8 8) (fieldOf w 4 4) (fieldOf w 0 4)⟩
  | _ => none

/-- Opcodes 0x80 to 0x8F of Table ENC.2. -/
def opRow8 (w : Word) (lo : Nat) : Option OpRow :=
  match lo with
  | 0 => some ⟨0x000000#32, true, fun p w => .ldb p (fieldOf w 16 8) (fieldOf w 8 8) (fieldOf w 0 8)⟩
  | 1 => some ⟨0x000000#32, true, fun p w => .ldbs p (fieldOf w 16 8) (fieldOf w 8 8) (fieldOf w 0 8)⟩
  | 2 => some ⟨0x000000#32, true, fun p w => .ldh p (fieldOf w 16 8) (fieldOf w 8 8) (fieldOf w 0 8)⟩
  | 3 => some ⟨0x000000#32, true, fun p w => .ldhs p (fieldOf w 16 8) (fieldOf w 8 8) (fieldOf w 0 8)⟩
  | 4 => some ⟨0x000000#32, true, fun p w => .ldw p (fieldOf w 16 8) (fieldOf w 8 8) (fieldOf w 0 8)⟩
  | 5 => some ⟨0x000000#32, true, fun p w => .ldd p (fieldOf w 16 8) (fieldOf w 8 8) (fieldOf w 0 8)⟩
  | 6 => some ⟨0x000000#32, true, fun p w => .ldq p (fieldOf w 16 8) (fieldOf w 8 8) (fieldOf w 0 8)⟩
  | 7 => some ⟨0x000000#32, true, fun p w => .stb p (fieldOf w 16 8) (fieldOf w 8 8) (fieldOf w 0 8)⟩
  | 8 => some ⟨0x000000#32, true, fun p w => .sth p (fieldOf w 16 8) (fieldOf w 8 8) (fieldOf w 0 8)⟩
  | 9 => some ⟨0x000000#32, true, fun p w => .stw p (fieldOf w 16 8) (fieldOf w 8 8) (fieldOf w 0 8)⟩
  | 10 => some ⟨0x000000#32, true, fun p w => .std p (fieldOf w 16 8) (fieldOf w 8 8) (fieldOf w 0 8)⟩
  | 11 => some ⟨0x000000#32, true, fun p w => .stq p (fieldOf w 16 8) (fieldOf w 8 8) (fieldOf w 0 8)⟩
  | 12 => some ⟨0x000000#32, true, fun p w => .ldwr p (fieldOf w 16 8) (fieldOf w 8 8) (fieldOf w 0 8)⟩
  | 13 => some ⟨0x000000#32, true, fun p w => .ldqr p (fieldOf w 16 8) (fieldOf w 8 8) (fieldOf w 0 8)⟩
  | 14 => some ⟨0x000000#32, true, fun p w => .stnt p (fieldOf w 16 8) (fieldOf w 8 8) (fieldOf w 0 8)⟩
  | 15 => if fieldOf w 16 8 == 0#8 then some ⟨0xFF0000#32, true, fun p w => .prefL1 p (fieldOf w 8 8) (fieldOf w 0 8)⟩
    else some ⟨0xFE0000#32, true, fun p w => .prefHome p (fieldOf w 8 8) (fieldOf w 0 8)⟩
  | _ => none

/-- Opcodes 0x90 to 0x9F of Table ENC.2. -/
def opRow9 (_ : Word) (lo : Nat) : Option OpRow :=
  match lo with
  | 0 => some ⟨0x000003#32, true, fun p w => .ldacq p (fieldOf w 16 8) (fieldOf w 8 8) (fieldOf w 5 3) (fieldOf w 2 3)⟩
  | 1 => some ⟨0x000003#32, true, fun p w => .strel p (fieldOf w 16 8) (fieldOf w 8 8) (fieldOf w 5 3) (fieldOf w 2 3)⟩
  | 2 => some ⟨0xFFFF03#32, false, fun _ w => .fence (fieldOf w 5 3) (fieldOf w 2 3)⟩
  | 3 => some ⟨0x000000#32, true, fun p w => .lds p (fieldOf w 16 8) (fieldOf w 8 8) (fieldOf w 0 8)⟩
  | 4 => some ⟨0x000000#32, true, fun p w => .sts p (fieldOf w 16 8) (fieldOf w 8 8) (fieldOf w 0 8)⟩
  | 5 => some ⟨0x000000#32, true, fun p w => .ldsq p (fieldOf w 16 8) (fieldOf w 8 8) (fieldOf w 0 8)⟩
  | 6 => some ⟨0x000000#32, true, fun p w => .stsq p (fieldOf w 16 8) (fieldOf w 8 8) (fieldOf w 0 8)⟩
  | 7 => some ⟨0x000007#32, false, fun _ w => .ldm (fieldOf w 16 8) (fieldOf w 8 8) (fieldOf w 3 5)⟩
  | 8 => some ⟨0x000007#32, false, fun _ w => .stm (fieldOf w 16 8) (fieldOf w 8 8) (fieldOf w 3 5)⟩
  | 9 => some ⟨0x1F001F#32, false, fun _ w => .lock (fieldOf w 21 3) (fieldOf w 8 8) (fieldOf w 5 3)⟩
  | 10 => some ⟨0x1F001F#32, false, fun _ w => .unlock (fieldOf w 21 3) (fieldOf w 8 8) (fieldOf w 5 3)⟩
  | _ => none

/-- Opcodes 0xA0 to 0xAF of Table ENC.2. -/
def opRowA (_ : Word) (lo : Nat) : Option OpRow :=
  match lo with
  | 0 => some ⟨0x000003#32, true, fun p w => .aadd p (fieldOf w 16 8) (fieldOf w 8 8) (fieldOf w 5 3) (fieldOf w 2 3)⟩
  | 1 => some ⟨0x000003#32, true, fun p w => .amin p (fieldOf w 16 8) (fieldOf w 8 8) (fieldOf w 5 3) (fieldOf w 2 3)⟩
  | 2 => some ⟨0x000003#32, true, fun p w => .amax p (fieldOf w 16 8) (fieldOf w 8 8) (fieldOf w 5 3) (fieldOf w 2 3)⟩
  | 3 => some ⟨0x000003#32, true, fun p w => .aand p (fieldOf w 16 8) (fieldOf w 8 8) (fieldOf w 5 3) (fieldOf w 2 3)⟩
  | 4 => some ⟨0x000003#32, true, fun p w => .aor p (fieldOf w 16 8) (fieldOf w 8 8) (fieldOf w 5 3) (fieldOf w 2 3)⟩
  | 5 => some ⟨0x000003#32, true, fun p w => .axor p (fieldOf w 16 8) (fieldOf w 8 8) (fieldOf w 5 3) (fieldOf w 2 3)⟩
  | 6 => some ⟨0x000003#32, true, fun p w => .axchg p (fieldOf w 16 8) (fieldOf w 8 8) (fieldOf w 5 3) (fieldOf w 2 3)⟩
  | 7 => some ⟨0x000003#32, true, fun p w => .acas p (fieldOf w 16 8) (fieldOf w 8 8) (fieldOf w 5 3) (fieldOf w 2 3)⟩
  | 8 => some ⟨0x000003#32, true, fun p w => .ainc p (fieldOf w 16 8) (fieldOf w 8 8) (fieldOf w 5 3) (fieldOf w 2 3)⟩
  | 9 => some ⟨0x000003#32, true, fun p w => .afadd p (fieldOf w 16 8) (fieldOf w 8 8) (fieldOf w 5 3) (fieldOf w 2 3)⟩
  | 10 => some ⟨0x000003#32, true, fun p w => .afadd2 p (fieldOf w 16 8) (fieldOf w 8 8) (fieldOf w 5 3) (fieldOf w 2 3)⟩
  | 11 => some ⟨0x000003#32, true, fun p w => .aadd64 p (fieldOf w 16 8) (fieldOf w 8 8) (fieldOf w 5 3) (fieldOf w 2 3)⟩
  | 12 => some ⟨0x000003#32, true, fun p w => .acas64 p (fieldOf w 16 8) (fieldOf w 8 8) (fieldOf w 5 3) (fieldOf w 2 3)⟩
  | 13 => some ⟨0x000003#32, true, fun p w => .sadd p (fieldOf w 16 8) (fieldOf w 8 8) (fieldOf w 5 3) (fieldOf w 2 3)⟩
  | 14 => some ⟨0x000003#32, true, fun p w => .scas p (fieldOf w 16 8) (fieldOf w 8 8) (fieldOf w 5 3) (fieldOf w 2 3)⟩
  | 15 => some ⟨0x000003#32, true, fun p w => .sxchg p (fieldOf w 16 8) (fieldOf w 8 8) (fieldOf w 5 3) (fieldOf w 2 3)⟩
  | _ => none

/-- Opcodes 0xB0 to 0xBF of Table ENC.2. -/
def opRowB (w : Word) (lo : Nat) : Option OpRow :=
  match lo with
  | 0 => some ⟨0x00001F#32, false, fun _ w => .bar (fieldOf w 16 8) (fieldOf w 8 8) (fieldOf w 5 3)⟩
  | 1 => some ⟨0xFF001F#32, false, fun _ w => .bararv (fieldOf w 8 8) (fieldOf w 5 3)⟩
  | 2 => some ⟨0x00001F#32, false, fun _ w => .barwt (fieldOf w 16 8) (fieldOf w 8 8) (fieldOf w 5 3)⟩
  | 3 => some ⟨0x00001F#32, false, fun _ w => .barexp (fieldOf w 16 8) (fieldOf w 8 8) (fieldOf w 5 3)⟩
  | 4 => some ⟨0x000000#32, false, fun _ w => .waitc (fieldOf w 18 6) (fieldOf w 12 6) (fieldOf w 6 6) (fieldOf w 0 6)⟩
  | 5 => some ⟨0xFF00FF#32, false, fun _ w => .waitr (fieldOf w 8 8)⟩
  | 6 => some ⟨0xFF003F#32, false, fun _ w => .hwait (fieldOf w 8 8) (fieldOf w 7 1) (fieldOf w 6 1)⟩
  | 7 =>
    match (fieldOf w 6 2).toNat with
    | 0 => some ⟨0x0000C0#32, false, fun _ w => .hsetFree (fieldOf w 16 8) (fieldOf w 8 8) (fieldOf w 0 6)⟩
    | 1 => some ⟨0x000080#32, false, fun _ w => .hsetFull (fieldOf w 16 8) (fieldOf w 8 8) (fieldOf w 0 6)⟩
    | 2 => some ⟨0x00FF7F#32, false, fun _ w => .hsetRel (fieldOf w 16 8)⟩
    | _ => some ⟨0x00FF3F#32, false, fun _ w => .hsetFill (fieldOf w 16 8)⟩
  | 8 => if bitOf w 7 then some ⟨0x000000#32, false, fun _ w => .ringadvNew (fieldOf w 16 8) (fieldOf w 8 8) (fieldOf w 0 7)⟩
    else some ⟨0x0000FF#32, false, fun _ w => .ringadv (fieldOf w 16 8) (fieldOf w 8 8)⟩
  | _ => none

/-- Opcodes 0xC0 to 0xCF of Table ENC.2. -/
def opRowC (_ : Word) (lo : Nat) : Option OpRow :=
  match lo with
  | 0 => some ⟨0x000000#32, false, fun _ w => .copy (fieldOf w 16 8) (fieldOf w 8 8) (fieldOf w 0 8)⟩
  | 1 => some ⟨0x000000#32, false, fun _ w => .copym (fieldOf w 16 8) (fieldOf w 8 8) (fieldOf w 0 8)⟩
  | 2 => some ⟨0x000000#32, false, fun _ w => .copys (fieldOf w 16 8) (fieldOf w 8 8) (fieldOf w 0 8)⟩
  | 3 => some ⟨0x0000FF#32, false, fun _ w => .launch (fieldOf w 16 8) (fieldOf w 8 8)⟩
  | 4 => some ⟨0x0000FF#32, false, fun _ w => .job (fieldOf w 16 8) (fieldOf w 8 8)⟩
  | 5 => some ⟨0xFF00FF#32, false, fun _ w => .jobwt (fieldOf w 8 8)⟩
  | _ => none

/-- Opcodes 0xD0 to 0xDF of Table ENC.2. -/
def opRowD (w : Word) (lo : Nat) : Option OpRow :=
  match lo with
  | 0 => some ⟨0x00FF01#32, false, fun _ w => .tbld (fieldOf w 16 8) (fieldOf w 5 3) (fieldOf w 3 2) (fieldOf w 2 1) (fieldOf w 1 1)⟩
  | 1 => some ⟨0x000007#32, false, fun _ w => .tmma (fieldOf w 16 8) (fieldOf w 8 8) (fieldOf w 5 3) (fieldOf w 4 1) (fieldOf w 3 1)⟩
  | 2 => some ⟨0x000007#32, false, fun _ w => .tmmab (fieldOf w 16 8) (fieldOf w 8 8) (fieldOf w 5 3) (fieldOf w 4 1) (fieldOf w 3 1)⟩
  | 3 => some ⟨0x000007#32, false, fun _ w => .tmmap (fieldOf w 16 8) (fieldOf w 8 8) (fieldOf w 5 3) (fieldOf w 4 1) (fieldOf w 3 1)⟩
  | 4 => some ⟨0x00FF07#32, false, fun _ w => .taccz (fieldOf w 16 8) (fieldOf w 4 4) (fieldOf w 3 1)⟩
  | 5 => some ⟨0x000007#32, false, fun _ w => .taccld (fieldOf w 16 8) (fieldOf w 8 8) (fieldOf w 4 4) (fieldOf w 3 1)⟩
  | 6 => some ⟨0x00001F#32, false, fun _ w => .taccst (fieldOf w 16 8) (fieldOf w 8 8) (fieldOf w 6 2) (fieldOf w 5 1)⟩
  | 7 => if bitOf w 0 then some ⟨0xFFFFFE#32, false, fun _ _ => .trelArray⟩ else some ⟨0xFFFFFF#32, false, fun _ _ => .trel⟩
  | _ => none

/-- Opcodes 0xE0 to 0xEF of Table ENC.2. -/
def opRowE (_ : Word) (lo : Nat) : Option OpRow :=
  match lo with
  | 0 => some ⟨0x00FFFF#32, false, fun _ w => .clock (fieldOf w 16 8)⟩
  | 1 => some ⟨0x00FF00#32, false, fun _ w => .perf (fieldOf w 16 8) (fieldOf w 0 8)⟩
  | 2 => some ⟨0xFFFFFF#32, false, fun _ _ => .eret⟩
  | 3 => some ⟨0x00FFF0#32, false, fun _ w => .traprd (fieldOf w 16 8) (fieldOf w 0 4)⟩
  | 4 => some ⟨0x0000FF#32, false, fun _ w => .segq (fieldOf w 16 8) (fieldOf w 8 8)⟩
  | 5 => some ⟨0xFF0000#32, false, fun _ w => .bkpt (fieldOf w 0 16)⟩
  | _ => none

/-- The row of Table ENC.2 that a word's opcode names, if any. -/
def opRow (w : Word) : Option OpRow :=
  let lo := (fieldOf w 24 4).toNat
  match (fieldOf w 28 4).toNat with
  | 0 => opRow0 w lo
  | 1 => opRow1 w lo
  | 2 => opRow2 w lo
  | 3 => opRow3 w lo
  | 4 => opRow4 w lo
  | 5 => opRow5 w lo
  | 6 => opRow6 w lo
  | 7 => opRow7 w lo
  | 8 => opRow8 w lo
  | 9 => opRow9 w lo
  | 10 => opRowA w lo
  | 11 => opRowB w lo
  | 12 => opRowC w lo
  | 13 => opRowD w lo
  | 14 => opRowE w lo
  | _ => none

/-- The PREF levels 2 to 255 are reserved (R209): the only reserved value that selects between rows. -/
def levelOk (w : Word) : Bool := fieldOf w 24 8 != 0x8F#8 || (fieldOf w 16 8).toNat ≤ 1

/-- The bits of the word that its row requires to be 0, leaving the PREF level to rule 104. -/
def zerosOf (w : Word) (r : OpRow) : Word := if fieldOf w 24 8 == 0x8F#8 then 0 else r.zeros

/-- One instruction from its words: an optional prefix and one non-prefix word.  The rules are tested in ascending
order, but that rule 103 is reported without testing the prefix fields (R119). -/
def decodeWord (p : Option Pfx) (w : Word) : Except Reject Instr :=
  match opRow w with
  | none => .error .opcode
  | some r =>
    if w &&& zerosOf w r != 0 then .error .zeroField
    else
      let i := r.build p w
      if (p.isSome && !r.takesPfx) || !i.selOk then .error .pfxUse
      else if !i.pfxZeroOk then .error .zeroField
      else if !levelOk w || !i.pfxRmOk || !i.reservedOk then .error .reserved
      else if !i.pairsOk then .error .pairRun
      else .ok i

/-- A little-endian word from four bytes (R108). -/
def wordOfBytes (b0 b1 b2 b3 : Byte) : Word := b3 ++ b2 ++ b1 ++ b0

/-- The four bytes of a word, lowest address first. -/
def bytesOfWord (w : Word) : List Byte := [fieldOf w 0 8, fieldOf w 8 8, fieldOf w 16 8, fieldOf w 24 8]

/-- The first word of a byte list, with the bytes after it. -/
def takeWord : List Byte → Option (Word × List Byte)
  | b0 :: b1 :: b2 :: b3 :: rest => some (wordOfBytes b0 b1 b2 b3, rest)
  | _ => none

/-- The instruction of one or two words. -/
def decodePair (w : Word) (next : Option Word) : Except Reject Instr :=
  if isPfxWord w then
    match next with
    | none => .error .truncated
    | some v => if isPfxWord v then .error .pfxUse else decodeWord (some (pfxOf w)) v
  else decodeWord none w

/-- The first instruction of a byte list, with the bytes after it (R108). -/
def decodeBytes (bs : List Byte) : Except Reject (Instr × List Byte) :=
  match takeWord bs with
  | none => .error .truncated
  | some (w, rest) =>
    match takeWord rest with
    | none => (decodePair w none).map (fun i => (i, rest))
    | some (v, rest') => (decodePair w (some v)).map (fun i => (i, if isPfxWord w then rest' else rest))

/-- The bytes of an instruction of `nbits` bits numbered as the opcode table numbers them, and zeros above them up to
the longest instruction, which is a prefix and a word. -/
def tableBytes (nbits w : Nat) : List Byte :=
  let v := w % 2 ^ nbits
  bytesOfWord (BitVec.ofNat 32 v) ++ bytesOfWord (BitVec.ofNat 32 (v / 2 ^ 32))

/-- The instruction the decoder reads from such bytes. -/
def decodeTableWord (nbits w : Nat) : Option Instr :=
  match decodeBytes (tableBytes nbits w) with
  | .ok (i, _) => some i
  | .error _ => none

/-- The prefix word of given fields (Table ENC.3). -/
def pfxWord (p : Pfx) : Word :=
  0xF#4 ++ BitVec.ofBool p.z ++ BitVec.ofBool p.rv ++ p.rm ++ p.g ++ BitVec.ofBool p.gv ++ BitVec.ofBool p.gn ++
    p.x5 ++ p.c

/-- The prefix word, if there is one, before the word. -/
def withPfx (p : Option Pfx) (w : Word) : List Word :=
  match p with
  | none => [w]
  | some x => [pfxWord x, w]

/-- The words of an instruction (Tables ENC.1 and ENC.2); none for the actions of other agents, which no word
encodes. -/
def encode : Instr → Option (List Word)
  | .nop => some [(0x01000000#32 : BitVec 32)]
  | .br p h x => some (withPfx p (0x02#8 ++ h ++ x : BitVec 32))
  | .brc p c h x => some (withPfx p (0x03#8 ++ c ++ h ++ x : BitVec 32))
  | .brz p c h x => some (withPfx p (0x04#8 ++ c ++ h ++ x : BitVec 32))
  | .call p h x => some (withPfx p (0x05#8 ++ h ++ x : BitVec 32))
  | .calli a => some [(0x0600#16 ++ a ++ 0x00#8 : BitVec 32)]
  | .ret => some [(0x07000000#32 : BitVec 32)]
  | .join => some [(0x08000000#32 : BitVec 32)]
  | .exitw => some [(0x09000000#32 : BitVec 32)]
  | .yield => some [(0x0A000000#32 : BitVec 32)]
  | .sleep n => some [(0x0B00#16 ++ n : BitVec 32)]
  | .trap n => some [(0x0C00#16 ++ n : BitVec 32)]
  | .brx i t => some [(0x0D#8 ++ i ++ 0x0#2 ++ t : BitVec 32)]
  | .setmode p => some [(0x0E0#12 ++ p : BitVec 32)]
  | .ipref c x => some [(0x0F#8 ++ c ++ 0x0#2 ++ x : BitVec 32)]
  | .add p d a b => some (withPfx p (0x10#8 ++ d ++ a ++ b : BitVec 32))
  | .sub p d a b => some (withPfx p (0x11#8 ++ d ++ a ++ b : BitVec 32))
  | .mul p d a b => some (withPfx p (0x12#8 ++ d ++ a ++ b : BitVec 32))
  | .mulh p d a b => some (withPfx p (0x13#8 ++ d ++ a ++ b : BitVec 32))
  | .mad p d a b => some (withPfx p (0x14#8 ++ d ++ a ++ b : BitVec 32))
  | .iand p d a b => some (withPfx p (0x15#8 ++ d ++ a ++ b : BitVec 32))
  | .ior p d a b => some (withPfx p (0x16#8 ++ d ++ a ++ b : BitVec 32))
  | .ixor p d a b => some (withPfx p (0x17#8 ++ d ++ a ++ b : BitVec 32))
  | .shl p d a b => some (withPfx p (0x18#8 ++ d ++ a ++ b : BitVec 32))
  | .shr p d a b => some (withPfx p (0x19#8 ++ d ++ a ++ b : BitVec 32))
  | .sar p d a b => some (withPfx p (0x1A#8 ++ d ++ a ++ b : BitVec 32))
  | .imin p d a b => some (withPfx p (0x1B#8 ++ d ++ a ++ b : BitVec 32))
  | .imax p d a b => some (withPfx p (0x1C#8 ++ d ++ a ++ b : BitVec 32))
  | .sel p d a b => some (withPfx p (0x1D#8 ++ d ++ a ++ b : BitVec 32))
  | .iabs p d a => some (withPfx p (0x1E#8 ++ d ++ a ++ 0x00#8 : BitVec 32))
  | .ineg p d a => some (withPfx p (0x1F#8 ++ d ++ a ++ 0x00#8 : BitVec 32))
  | .cmpeq p d a b => some (withPfx p (0x20#8 ++ d ++ a ++ b : BitVec 32))
  | .cmpne p d a b => some (withPfx p (0x21#8 ++ d ++ a ++ b : BitVec 32))
  | .cmplt p d a b => some (withPfx p (0x22#8 ++ d ++ a ++ b : BitVec 32))
  | .cmple p d a b => some (withPfx p (0x23#8 ++ d ++ a ++ b : BitVec 32))
  | .clz p d a => some (withPfx p (0x24#8 ++ d ++ a ++ 0x00#8 : BitVec 32))
  | .popc p d a => some (withPfx p (0x25#8 ++ d ++ a ++ 0x00#8 : BitVec 32))
  | .brev p d a => some (withPfx p (0x26#8 ++ d ++ a ++ 0x00#8 : BitVec 32))
  | .bfx p d a b => some (withPfx p (0x27#8 ++ d ++ a ++ b : BitVec 32))
  | .bfi p d a b => some (withPfx p (0x28#8 ++ d ++ a ++ b : BitVec 32))
  | .prmt p d a b => some (withPfx p (0x29#8 ++ d ++ a ++ b : BitVec 32))
  | .dp4 p d a b => some (withPfx p (0x2A#8 ++ d ++ a ++ b : BitVec 32))
  | .dp4s p d a b => some (withPfx p (0x2B#8 ++ d ++ a ++ b : BitVec 32))
  | .dp2 p d a b => some (withPfx p (0x2C#8 ++ d ++ a ++ b : BitVec 32))
  | .dp2s p d a b => some (withPfx p (0x2D#8 ++ d ++ a ++ b : BitVec 32))
  | .mov p d a => some (withPfx p (0x2E#8 ++ d ++ a ++ 0x00#8 : BitVec 32))
  | .inot p d a => some (withPfx p (0x2F#8 ++ d ++ a ++ 0x00#8 : BitVec 32))
  | .addi p d a i => some (withPfx p (0x30#8 ++ d ++ a ++ i : BitVec 32))
  | .andi p d a i => some (withPfx p (0x31#8 ++ d ++ a ++ i : BitVec 32))
  | .ori p d a i => some (withPfx p (0x32#8 ++ d ++ a ++ i : BitVec 32))
  | .xori p d a i => some (withPfx p (0x33#8 ++ d ++ a ++ i : BitVec 32))
  | .shli p d a i => some (withPfx p (0x34#8 ++ d ++ a ++ 0x0#3 ++ i : BitVec 32))
  | .shri p d a i => some (withPfx p (0x35#8 ++ d ++ a ++ 0x0#3 ++ i : BitVec 32))
  | .sari p d a i => some (withPfx p (0x36#8 ++ d ++ a ++ 0x0#3 ++ i : BitVec 32))
  | .muli p d a i => some (withPfx p (0x37#8 ++ d ++ a ++ i : BitVec 32))
  | .cmpeqi p d a i => some (withPfx p (0x38#8 ++ d ++ a ++ i : BitVec 32))
  | .cmplti p d a i => some (withPfx p (0x39#8 ++ d ++ a ++ i : BitVec 32))
  | .movi p d i => some (withPfx p (0x3A#8 ++ d ++ i : BitVec 32))
  | .movhi p d i => some (withPfx p (0x3B#8 ++ d ++ i : BitVec 32))
  | .movx p d i => some (withPfx p (0x3C#8 ++ d ++ 0x00#8 ++ i : BitVec 32))
  | .xmov p a i => some (withPfx p (0x3D00#16 ++ a ++ i : BitVec 32))
  | .movrd p d i => some (withPfx p (0x3E#8 ++ d ++ i ++ 0x00#8 : BitVec 32))
  | .movrw p s i => some (withPfx p (0x3F#8 ++ s ++ i ++ 0x00#8 : BitVec 32))
  | .add64 p d a b => some (withPfx p (0x40#8 ++ d ++ a ++ b : BitVec 32))
  | .add64w p d a b => some (withPfx p (0x41#8 ++ d ++ a ++ b : BitVec 32))
  | .sub64 p d a b => some (withPfx p (0x42#8 ++ d ++ a ++ b : BitVec 32))
  | .addi64 p d a i => some (withPfx p (0x43#8 ++ d ++ a ++ i : BitVec 32))
  | .lea4 p d a b => some (withPfx p (0x44#8 ++ d ++ a ++ b : BitVec 32))
  | .lea8 p d a b => some (withPfx p (0x45#8 ++ d ++ a ++ b : BitVec 32))
  | .lea16 p d a b => some (withPfx p (0x46#8 ++ d ++ a ++ b : BitVec 32))
  | .mov64 p d a => some (withPfx p (0x47#8 ++ d ++ a ++ 0x00#8 : BitVec 32))
  | .wmul p d a b => some (withPfx p (0x48#8 ++ d ++ a ++ b : BitVec 32))
  | .wmad p d a b => some (withPfx p (0x49#8 ++ d ++ a ++ b : BitVec 32))
  | .shl64 p d a b => some (withPfx p (0x4A#8 ++ d ++ a ++ b : BitVec 32))
  | .shr64 p d a b => some (withPfx p (0x4B#8 ++ d ++ a ++ b : BitVec 32))
  | .cmplt64 p d a b => some (withPfx p (0x4C#8 ++ d ++ a ++ b : BitVec 32))
  | .chkb d k b n => some [(0x4D#8 ++ d ++ k ++ b ++ n : BitVec 32)]
  | .chkr d n => some [(0x4E#8 ++ d ++ n : BitVec 32)]
  | .chka d s e m => some [(0x4F#8 ++ d ++ s ++ e ++ m : BitVec 32)]
  | .fadd p d a b => some (withPfx p (0x50#8 ++ d ++ a ++ b : BitVec 32))
  | .fsub p d a b => some (withPfx p (0x51#8 ++ d ++ a ++ b : BitVec 32))
  | .fmul p d a b => some (withPfx p (0x52#8 ++ d ++ a ++ b : BitVec 32))
  | .ffma p d a b => some (withPfx p (0x53#8 ++ d ++ a ++ b : BitVec 32))
  | .fmin p d a b => some (withPfx p (0x54#8 ++ d ++ a ++ b : BitVec 32))
  | .fmax p d a b => some (withPfx p (0x55#8 ++ d ++ a ++ b : BitVec 32))
  | .fminn p d a b => some (withPfx p (0x56#8 ++ d ++ a ++ b : BitVec 32))
  | .fmaxn p d a b => some (withPfx p (0x57#8 ++ d ++ a ++ b : BitVec 32))
  | .fcmpeq p d a b => some (withPfx p (0x58#8 ++ d ++ a ++ b : BitVec 32))
  | .fcmplt p d a b => some (withPfx p (0x59#8 ++ d ++ a ++ b : BitVec 32))
  | .fcmple p d a b => some (withPfx p (0x5A#8 ++ d ++ a ++ b : BitVec 32))
  | .fcmpun p d a b => some (withPfx p (0x5B#8 ++ d ++ a ++ b : BitVec 32))
  | .fabs p d a => some (withPfx p (0x5C#8 ++ d ++ a ++ 0x00#8 : BitVec 32))
  | .fneg p d a => some (withPfx p (0x5D#8 ++ d ++ a ++ 0x00#8 : BitVec 32))
  | .fclass p d a => some (withPfx p (0x5E#8 ++ d ++ a ++ 0x00#8 : BitVec 32))
  | .fscale p d a b => some (withPfx p (0x5F#8 ++ d ++ a ++ b : BitVec 32))
  | .frcp p d a => some (withPfx p (0x60#8 ++ d ++ a ++ 0x00#8 : BitVec 32))
  | .frsq p d a => some (withPfx p (0x61#8 ++ d ++ a ++ 0x00#8 : BitVec 32))
  | .fsqrt p d a => some (withPfx p (0x62#8 ++ d ++ a ++ 0x00#8 : BitVec 32))
  | .fexp2 p d a => some (withPfx p (0x63#8 ++ d ++ a ++ 0x00#8 : BitVec 32))
  | .flog2 p d a => some (withPfx p (0x64#8 ++ d ++ a ++ 0x00#8 : BitVec 32))
  | .fsin p d a => some (withPfx p (0x65#8 ++ d ++ a ++ 0x00#8 : BitVec 32))
  | .fcos p d a => some (withPfx p (0x66#8 ++ d ++ a ++ 0x00#8 : BitVec 32))
  | .ftanh p d a => some (withPfx p (0x67#8 ++ d ++ a ++ 0x00#8 : BitVec 32))
  | .frnd p d a => some (withPfx p (0x68#8 ++ d ++ a ++ 0x00#8 : BitVec 32))
  | .fdot2 p d a b => some (withPfx p (0x69#8 ++ d ++ a ++ b : BitVec 32))
  | .cvtf p d a k v => some (withPfx p (0x6A#8 ++ d ++ a ++ 0x0#3 ++ k ++ v : BitVec 32))
  | .cvtfi p d a k v => some (withPfx p (0x6B#8 ++ d ++ a ++ 0x0#3 ++ k ++ v : BitVec 32))
  | .cvtif p d a k v => some (withPfx p (0x6C#8 ++ d ++ a ++ 0x0#3 ++ k ++ v : BitVec 32))
  | .cvtn p d a s k v => some (withPfx p (0x6D#8 ++ d ++ a ++ s ++ k ++ v : BitVec 32))
  | .cvtw p d a s k v => some (withPfx p (0x6E#8 ++ d ++ a ++ s ++ k ++ v : BitVec 32))
  | .shfl p d a b => some (withPfx p (0x70#8 ++ d ++ a ++ b : BitVec 32))
  | .shflup p d a b => some (withPfx p (0x71#8 ++ d ++ a ++ b : BitVec 32))
  | .shfldn p d a b => some (withPfx p (0x72#8 ++ d ++ a ++ b : BitVec 32))
  | .shflx p d a b => some (withPfx p (0x73#8 ++ d ++ a ++ b : BitVec 32))
  | .vall p d a => some (withPfx p (0x74#8 ++ d ++ a ++ 0x00#8 : BitVec 32))
  | .vany p d a => some (withPfx p (0x75#8 ++ d ++ a ++ 0x00#8 : BitVec 32))
  | .ballot p d a => some (withPfx p (0x76#8 ++ d ++ a ++ 0x00#8 : BitVec 32))
  | .redadd p d a => some (withPfx p (0x77#8 ++ d ++ a ++ 0x00#8 : BitVec 32))
  | .redmin p d a => some (withPfx p (0x78#8 ++ d ++ a ++ 0x00#8 : BitVec 32))
  | .redmax p d a => some (withPfx p (0x79#8 ++ d ++ a ++ 0x00#8 : BitVec 32))
  | .redand p d a => some (withPfx p (0x7A#8 ++ d ++ a ++ 0x00#8 : BitVec 32))
  | .redor p d a => some (withPfx p (0x7B#8 ++ d ++ a ++ 0x00#8 : BitVec 32))
  | .scan p d a e q => some (withPfx p (0x7C#8 ++ d ++ a ++ 0x00#5 ++ e ++ q : BitVec 32))
  | .elect p d => some (withPfx p (0x7D#8 ++ d ++ 0x0000#16 : BitVec 32))
  | .matchv p d a => some (withPfx p (0x7E#8 ++ d ++ a ++ 0x00#8 : BitVec 32))
  | .xchg d s k n => some [(0x7F#8 ++ d ++ s ++ k ++ n : BitVec 32)]
  | .ldb p d a o => some (withPfx p (0x80#8 ++ d ++ a ++ o : BitVec 32))
  | .ldbs p d a o => some (withPfx p (0x81#8 ++ d ++ a ++ o : BitVec 32))
  | .ldh p d a o => some (withPfx p (0x82#8 ++ d ++ a ++ o : BitVec 32))
  | .ldhs p d a o => some (withPfx p (0x83#8 ++ d ++ a ++ o : BitVec 32))
  | .ldw p d a o => some (withPfx p (0x84#8 ++ d ++ a ++ o : BitVec 32))
  | .ldd p d a o => some (withPfx p (0x85#8 ++ d ++ a ++ o : BitVec 32))
  | .ldq p d a o => some (withPfx p (0x86#8 ++ d ++ a ++ o : BitVec 32))
  | .stb p d a o => some (withPfx p (0x87#8 ++ d ++ a ++ o : BitVec 32))
  | .sth p d a o => some (withPfx p (0x88#8 ++ d ++ a ++ o : BitVec 32))
  | .stw p d a o => some (withPfx p (0x89#8 ++ d ++ a ++ o : BitVec 32))
  | .std p d a o => some (withPfx p (0x8A#8 ++ d ++ a ++ o : BitVec 32))
  | .stq p d a o => some (withPfx p (0x8B#8 ++ d ++ a ++ o : BitVec 32))
  | .ldwr p d a o => some (withPfx p (0x8C#8 ++ d ++ a ++ o : BitVec 32))
  | .ldqr p d a o => some (withPfx p (0x8D#8 ++ d ++ a ++ o : BitVec 32))
  | .stnt p d a o => some (withPfx p (0x8E#8 ++ d ++ a ++ o : BitVec 32))
  | .prefL1 p a o => some (withPfx p (0x8F00#16 ++ a ++ o : BitVec 32))
  | .prefHome p a o => some (withPfx p (0x8F01#16 ++ a ++ o : BitVec 32))
  | .ldacq p d a s q => some (withPfx p (0x90#8 ++ d ++ a ++ s ++ q ++ 0x0#2 : BitVec 32))
  | .strel p d a s q => some (withPfx p (0x91#8 ++ d ++ a ++ s ++ q ++ 0x0#2 : BitVec 32))
  | .fence s q => some [(0x920000#24 ++ s ++ q ++ 0x0#2 : BitVec 32)]
  | .lds p d a o => some (withPfx p (0x93#8 ++ d ++ a ++ o : BitVec 32))
  | .sts p d a o => some (withPfx p (0x94#8 ++ d ++ a ++ o : BitVec 32))
  | .ldsq p d a o => some (withPfx p (0x95#8 ++ d ++ a ++ o : BitVec 32))
  | .stsq p d a o => some (withPfx p (0x96#8 ++ d ++ a ++ o : BitVec 32))
  | .ldm d a n => some [(0x97#8 ++ d ++ a ++ n ++ 0x0#3 : BitVec 32)]
  | .stm d a n => some [(0x98#8 ++ d ++ a ++ n ++ 0x0#3 : BitVec 32)]
  | .lock t a s => some [(0x99#8 ++ t ++ 0x00#5 ++ a ++ s ++ 0x00#5 : BitVec 32)]
  | .unlock t a s => some [(0x9A#8 ++ t ++ 0x00#5 ++ a ++ s ++ 0x00#5 : BitVec 32)]
  | .aadd p d a s q => some (withPfx p (0xA0#8 ++ d ++ a ++ s ++ q ++ 0x0#2 : BitVec 32))
  | .amin p d a s q => some (withPfx p (0xA1#8 ++ d ++ a ++ s ++ q ++ 0x0#2 : BitVec 32))
  | .amax p d a s q => some (withPfx p (0xA2#8 ++ d ++ a ++ s ++ q ++ 0x0#2 : BitVec 32))
  | .aand p d a s q => some (withPfx p (0xA3#8 ++ d ++ a ++ s ++ q ++ 0x0#2 : BitVec 32))
  | .aor p d a s q => some (withPfx p (0xA4#8 ++ d ++ a ++ s ++ q ++ 0x0#2 : BitVec 32))
  | .axor p d a s q => some (withPfx p (0xA5#8 ++ d ++ a ++ s ++ q ++ 0x0#2 : BitVec 32))
  | .axchg p d a s q => some (withPfx p (0xA6#8 ++ d ++ a ++ s ++ q ++ 0x0#2 : BitVec 32))
  | .acas p d a s q => some (withPfx p (0xA7#8 ++ d ++ a ++ s ++ q ++ 0x0#2 : BitVec 32))
  | .ainc p d a s q => some (withPfx p (0xA8#8 ++ d ++ a ++ s ++ q ++ 0x0#2 : BitVec 32))
  | .afadd p d a s q => some (withPfx p (0xA9#8 ++ d ++ a ++ s ++ q ++ 0x0#2 : BitVec 32))
  | .afadd2 p d a s q => some (withPfx p (0xAA#8 ++ d ++ a ++ s ++ q ++ 0x0#2 : BitVec 32))
  | .aadd64 p d a s q => some (withPfx p (0xAB#8 ++ d ++ a ++ s ++ q ++ 0x0#2 : BitVec 32))
  | .acas64 p d a s q => some (withPfx p (0xAC#8 ++ d ++ a ++ s ++ q ++ 0x0#2 : BitVec 32))
  | .sadd p d a s q => some (withPfx p (0xAD#8 ++ d ++ a ++ s ++ q ++ 0x0#2 : BitVec 32))
  | .scas p d a s q => some (withPfx p (0xAE#8 ++ d ++ a ++ s ++ q ++ 0x0#2 : BitVec 32))
  | .sxchg p d a s q => some (withPfx p (0xAF#8 ++ d ++ a ++ s ++ q ++ 0x0#2 : BitVec 32))
  | .bar d b s => some [(0xB0#8 ++ d ++ b ++ s ++ 0x00#5 : BitVec 32)]
  | .bararv b s => some [(0xB100#16 ++ b ++ s ++ 0x00#5 : BitVec 32)]
  | .barwt d b s => some [(0xB2#8 ++ d ++ b ++ s ++ 0x00#5 : BitVec 32)]
  | .barexp n b s => some [(0xB3#8 ++ n ++ b ++ s ++ 0x00#5 : BitVec 32)]
  | .waitc l s c t => some [(0xB4#8 ++ l ++ s ++ c ++ t : BitVec 32)]
  | .waitr a => some [(0xB500#16 ++ a ++ 0x00#8 : BitVec 32)]
  | .hwait a k f => some [(0xB600#16 ++ a ++ k ++ f ++ 0x00#6 : BitVec 32)]
  | .hsetFree h b s => some [(0xB7#8 ++ h ++ b ++ 0x0#2 ++ s : BitVec 32)]
  | .hsetFull h b s => some [(0xB7#8 ++ h ++ b ++ 0x1#2 ++ s : BitVec 32)]
  | .hsetRel h => some [(0xB7#8 ++ h ++ 0x0080#16 : BitVec 32)]
  | .hsetFill h => some [(0xB7#8 ++ h ++ 0x00C0#16 : BitVec 32)]
  | .ringadvNew d a c => some [(0xB8#8 ++ d ++ a ++ 0x1#1 ++ c : BitVec 32)]
  | .ringadv d a => some [(0xB8#8 ++ d ++ a ++ 0x00#8 : BitVec 32)]
  | .copy d a b => some [(0xC0#8 ++ d ++ a ++ b : BitVec 32)]
  | .copym d a b => some [(0xC1#8 ++ d ++ a ++ b : BitVec 32)]
  | .copys d a b => some [(0xC2#8 ++ d ++ a ++ b : BitVec 32)]
  | .launch d a => some [(0xC3#8 ++ d ++ a ++ 0x00#8 : BitVec 32)]
  | .job d a => some [(0xC4#8 ++ d ++ a ++ 0x00#8 : BitVec 32)]
  | .jobwt a => some [(0xC500#16 ++ a ++ 0x00#8 : BitVec 32)]
  | .tbld s b k p w => some [(0xD0#8 ++ s ++ 0x00#8 ++ b ++ k ++ p ++ w ++ 0x0#1 : BitVec 32)]
  | .tmma c a s r z => some [(0xD1#8 ++ c ++ a ++ s ++ r ++ z ++ 0x0#3 : BitVec 32)]
  | .tmmab c a s r z => some [(0xD2#8 ++ c ++ a ++ s ++ r ++ z ++ 0x0#3 : BitVec 32)]
  | .tmmap c a s r z => some [(0xD3#8 ++ c ++ a ++ s ++ r ++ z ++ 0x0#3 : BitVec 32)]
  | .taccz c n p => some [(0xD4#8 ++ c ++ 0x00#8 ++ n ++ p ++ 0x0#3 : BitVec 32)]
  | .taccld d c m p => some [(0xD5#8 ++ d ++ c ++ m ++ p ++ 0x0#3 : BitVec 32)]
  | .taccst s c k p => some [(0xD6#8 ++ s ++ c ++ k ++ p ++ 0x00#5 : BitVec 32)]
  | .trel => some [(0xD7000000#32 : BitVec 32)]
  | .trelArray => some [(0xD7000001#32 : BitVec 32)]
  | .clock d => some [(0xE0#8 ++ d ++ 0x0000#16 : BitVec 32)]
  | .perf d n => some [(0xE1#8 ++ d ++ 0x00#8 ++ n : BitVec 32)]
  | .eret => some [(0xE2000000#32 : BitVec 32)]
  | .traprd d n => some [(0xE3#8 ++ d ++ 0x000#12 ++ n : BitVec 32)]
  | .segq d a => some [(0xE4#8 ++ d ++ a ++ 0x00#8 : BitVec 32)]
  | .bkpt n => some [(0xE500#16 ++ n : BitVec 32)]
  | .sleepExpiry _ _ _ => none
  | .warpEnd _ _ => none
  | .loadReply _ => none
  | .storePerformed _ => none
  | .lockHandoverReply _ _ _ => none
  | .lockRetry _ _ _ => none
  | .lockWaiterWake _ => none
  | .copyAccept _ => none
  | .copyLinePerformed _ _ => none
  | .copyComplete _ => none
  | .mergeEntryClose _ => none
  | .xchgMatch _ _ _ _ => none
  | .tbldLatch _ _ => none
  | .tileRetire _ _ => none
  | .tmmapFollowerTimeout _ => none
  | .jobComplete _ => none
  | .linkStackRefill _ _ => none
  | .comparisonPoint _ => none
  | .redundantWaitTimeout _ => none
  | .translationWalkComplete _ _ _ => none
  | .remoteTimeout _ => none
  | .demandFetch _ _ _ => none
  | .fetchAhead _ _ _ => none
  | .trapEntry _ _ => none
  | .impreciseFaultTake _ _ => none
  | .faultLogAck => none
  | .quantumExpiry _ => none
  | .teamPlace _ => none
  | .dieAdvertise _ => none
  | .migrationMessage _ => none
  | .migrationConfirmTimeout _ => none
  | .taskComplete _ => none
  | .kick _ _ => none
  | .queueEnWrite _ _ => none
  | .lapReread _ => none
  | .queueLapTimeout _ => none
  | .packetNop _ => none
  | .packetLaunch _ => none
  | .packetJob _ => none
  | .packetFence _ => none
  | .packetSignal _ => none
  | .packetWaitev _ => none
  | .waitevReread _ => none
  | .msixUnmask _ _ => none
  | .aduKick _ => none
  | .aduSlotReread _ => none
  | .aduRequestConsume _ => none
  | .admissionComplete _ => none
  | .worldSet => none
  | .map2 => none
  | .unmap2 => none
  | .inval => none
  | .teardown => none
  | .ploughPageClean _ => none
  | .ploughTimeout _ => none
  | .ploughRestart _ => none
  | .geninc _ => none
  | .vdevRegWrite _ _ _ => none
  | .vdevDisable _ => none
  | .vfEnableClear => none
  | .dbgenWrite _ => none
  | .resume _ => none
  | .faultLogEnable _ => none
  | .registerWrite _ _ _ => none
  | .hostWindowAccess _ _ _ _ => none
  | .sessionLockWrite _ _ => none
  | .sessionTimeout => none
  | .readLife _ => none
  | .readState _ _ => none
  | .stageFw _ _ => none
  | .activateFw _ => none
  | .fwUnitMove _ _ => none
  | .lifetimeAccumulate _ => none
  | .lifetimeCommit => none
  | .orderlyShutdown => none
  | .getVersion _ => none
  | .getCapabilities _ => none
  | .negotiateAlgorithms _ => none
  | .getDigests _ => none
  | .getCertificate _ => none
  | .challenge _ => none
  | .getMeasurements _ => none
  | .keyExchange _ => none
  | .finish _ => none
  | .endSession _ => none
  | .coldReset => none
  | .functionLevelReset => none
  | .hotReset => none
  | .mctpEndpointLoss _ => none
  | .securityCoreRestart _ => none
  | .dieTrained _ => none
  | .linkTrained _ _ => none
  | .trainingDeadline => none
  | .structureError _ => none
  | .packetTagFailure _ => none
  | .linkRetrain _ => none
  | .replicaPin _ => none
  | .sledInject _ => none
  | .sledSteer _ => none
  | .sledAccept _ => none
  | .ringRefill _ => none
  | .sledAdmit _ => none
  | .replicationWatch _ _ => none
  | .sledTimeout _ => none
  | .hostMemoryAccess _ => none
  | .scoreboardRelease _ _ _ => none
  | .entryCacheFill _ _ => none
  | .linkRetrainDone _ _ => none
  | .secondStageBuilt => none
  | .testStart => none
  | .powerLoss => none

/-- The bytes of an instruction, as they lie in memory. -/
def encodeBytes (i : Instr) : Option (List Byte) := (encode i).map fun ws => ws.flatMap bytesOfWord

end Sys2Proof
end

