-- ==== Sys2Proof/Config.lean ====
section
/-! DEFINITION. What an implementation fixes and the spec leaves open: free values, which have no body, so that no proof
can see what they are. -/

namespace Sys2Proof.Config

/-- Nanoseconds of the package time base that pass at the model's step `n` (R173; the spec fixes no rate of steps). (Log 3: DESIGN CHOICE, safe.) -/
opaque stepNs : Nat → Nat

/-- Core clocks that pass at the model's step `n` (R256). (Log 3: DESIGN CHOICE, safe.) -/
opaque stepClk : Nat → Nat

/-- Which entry a cache or TLB that is full gives up (R463), by the structure and the model's count of steps. (Log 11: DESIGN CHOICE, safe.) -/
opaque victim : Nat → Nat → Nat

/-- What "the lowest lane of EXEC" of a register gives when EXEC holds no lane, by the register and the model's count of
steps (R159 and R162 state no value for CALL and CALLI then). (Log 13: DESIGN CHOICE, safe.) -/
opaque noLane : Nat → Nat → BitVec 32

/-- Where a warp's sealed spill region begins (R31), by task, team index and warp index. (Log 14: DESIGN CHOICE, safe.) -/
opaque spillBase : Nat → Nat → Nat → BitVec 64

/-- The fixed mapping of the six approximations within their bounds (R187): which of the allowed results an operand
gets, by opcode and FP32 operand bits; and, 256 above the opcode, whether a tiny one raises UF. (Log 15: DESIGN CHOICE, safe.) -/
opaque approx : Nat → Nat → Nat

/-- The code that Nearest gives an infinity when every entry of the codebook is a NaN (R154 names none). (Log 16: DESIGN CHOICE, safe.) -/
opaque noEntry : Bool → Nat

/-- Whether the slice line that an uncorrectable error strikes is dirty (Table REL.2); nothing constrains it. (Log 17: DESIGN CHOICE, safe.) -/
opaque sliceDirty : Nat → Bool

/-- Whether a firmware image's signature verifies under Ikioth's firmware key (R347): by unit, SVN, digest and signature. (Log 18: DESIGN CHOICE, safe.) -/
opaque fwSigned : Nat → BitVec 32 → BitVec 384 → BitVec 768 → Bool

/-- The SHA-384 digest of the boot ROM (Table SEC.5, block 1). (Log 19: DESIGN CHOICE, safe.) -/
opaque romDigest : BitVec 384

/-- The certificate chain in a slot (R347), by the digest of the firmware that an alias certificate is for. (Log 20: DESIGN CHOICE, safe.) -/
opaque certChain : Nat → BitVec 384 → List (BitVec 8)

/-- What the security core draws from its random source, by the number of the draw (R341, R348). (Log 21: DESIGN CHOICE, safe.) -/
opaque randomBytes : Nat → List (BitVec 8)

/-- The signature of the attestation key over a transcript, by the number of the draw and the bytes signed (R348). (Log 22: DESIGN CHOICE, safe.) -/
opaque attestation : Nat → List (BitVec 8) → List (BitVec 8)

/-- The responder's capability fields, whose layout DMTF SPDM 1.3 gives (R348). (Log 23: DESIGN CHOICE, safe.) -/
opaque spdmCapabilities : List (BitVec 8)

/-- The fields that name the chosen algorithms, by their numbers in R348's order, whose layout DMTF SPDM 1.3 gives. (Log 23: DESIGN CHOICE, safe.) -/
opaque spdmAlgorithms : List Nat → List (BitVec 8)

/-- The responder's ECDHE P-384 share, by the number of the draw that makes its private half (R348). (Log 160: DESIGN CHOICE, safe.) -/
opaque ecdheShare : Nat → List (BitVec 8)

/-- A message sealed with AES-256-GCM under the session keys, by the responder's draw, the requester's share and the message (R348). (Log 160: DESIGN CHOICE, safe.) -/
opaque sessionSeal : Nat → List (BitVec 8) → List (BitVec 8) → List (BitVec 8)

/-- How many pod barriers the package with PODIDX 0 has free, for a package that asks it (R354), by the model's count of steps. (Log 154: DESIGN CHOICE, safe.) -/
opaque podPool : Nat → Nat

end Sys2Proof.Config
end

