-- ==== Sys2Proof/Machine/State.lean ====
section
/-! DEFINITION. The state of one X9 package, as plain data, and the state after a cold reset.

Every piece of state that spec/00 to spec/25 give the machine has a home here.  Tables of fixed size whose entries
start alike (worlds, queues, virtual devices) are dense lists; large spaces (memory, pages, caches) are sparse lists
whose unlisted entries read as the reset value that an accessor of Machine/Ops.lean names.  Warps, teams and tasks are
flat lists, and refer to one another by number. -/

namespace Sys2Proof.Machine

open Sys2Proof

/-! ## Registers, lanes and fault records -/

/-- One lane of a register: its 32 bits and its poison side bit (R26, R373). -/
structure Lane where
  val : Word := 0
  poison : Bool := false
  deriving DecidableEq, Repr, Inhabited

/-- One register of a warp: 32 lanes, lane 0 first (R24). -/
abbrev Row := List Lane

/-- The roles of Table EXEC.4, in the codes of special register ROLE. -/
inductive Role where
  | vector
  | copy
  | matrix
  | system
  deriving DecidableEq, Repr, Inhabited

/-- The four outstanding counters (R29). -/
inductive Ctr where
  | ld
  | st
  | cp
  | tl
  deriving DecidableEq, Repr, Inhabited

/-- A fault record (Table FLT.1). -/
structure FaultRec where
  cls : Nat := 0
  code : Nat := 0
  prec : Bool := true
  res : Bool := false
  pois : Bool := false
  world : Nat := 0
  core : Nat := 0
  warpId : Nat := 0
  slot : Nat := 0
  frag : Word := 0
  lanes : Word := 0
  pc : Pc := 0
  addr : DWord := 0
  instr : Word := 0
  pfxWord : Word := 0
  tenant : Nat := 0
  entry : Nat := 0
  info : Word := 0
  time : Nat := 0
  teamX : Nat := 0
  teamY : Nat := 0
  teamZ : Nat := 0
  vdev : Nat := 0
  deriving DecidableEq, Repr, Inhabited

/-! ## Memory -/

/-- Storage by machine-physical byte address (R51): HBM, scratchpads and accumulator stores at their window addresses
(R56).  `cells` is in canonical form (addresses strictly rising, no byte equal to 0, which is what an unlisted address
reads as, R70); `poison` lists, rising, the addresses of the 4-byte words that carry the memory poison code (R373). (Log 136: DESIGN CHOICE, unsafe.) -/
structure Memory where
  cells : List Host.Cell := []
  poison : List Nat := []
  deriving DecidableEq, Repr, Inhabited

/-! ## Fragments and warps -/

/-- One open split of a fragment (R33): its number (later splits have larger numbers), the join address, the fragment
that split, and the identity of the member created on the favoured side (R49). -/
structure Split where
  id : Nat
  join : Pc
  parent : Nat
  favoured : Nat
  deriving DecidableEq, Repr, Inhabited

/-- The state of a handle (Table ISAE.2); STATE 3, `corrupt`, is never produced (R396). (Log 55: DESIGN CHOICE, unsafe.) -/
inductive HState where
  | free
  | full
  | draining
  | corrupt
  deriving DecidableEq, Repr, Inhabited

/-- A condition that an instruction which has not issued waits for; the fragment is ready again, at the same PC, when
it holds (R29, R34, R48). -/
inductive Cond where
  /-- The counter stands below its maximum (R29). -/
  | counter (c : Ctr)
  /-- Each counter is at most its field, where 63 never holds (R29, R230). -/
  | atMost (ld st cp tl : Nat)
  /-- A split-table entry of the core is free (R34). -/
  | splitEntry
  /-- Every earlier access of the warp is complete; `stnt`: STNT stores among them (R211). -/
  | drained (stnt : Bool)
  /-- The open phase of the barrier that this warp has arrived at completes (R227). -/
  | phaseOver (bar : Nat)
  /-- The handle holds the state, and the phase where one is named (R235). -/
  | handle (team h : Nat) (want : HState) (phase : Option Bool)
  /-- No entry of the handle is draining (Table ISAE.3). -/
  | undrained (team h : Nat)
  /-- The copy engine's queue, or the array's queue, has a free entry (R237, R244). -/
  | copyQueue
  | arrayQueue
  /-- The core's copy engine has accepted every descriptor of its queue (R237). -/
  | accepted
  /-- An array, half or pair that the team may claim is free (R254). -/
  | claim
  /-- The task named by the task word has completed (R243). -/
  | task (word : Word)
  /-- No tile that an array has queued or is working on holds a byte of the accesses of `size` bytes at these places (R60, R276). -/
  | tiles (at' : List Nat) (size : Nat)
  /-- FLAGS writes of earlier instructions settle (R174). -/
  | settled
  /-- Register and FLAGS writes of earlier instructions settle (R405). -/
  | quiet
  deriving DecidableEq, Repr, Inhabited

/-- Why a fragment is not ready (R48). -/
inductive Wait where
  /-- It waits on nothing of its own. -/
  | none
  /-- An instruction at its PC waits to issue. -/
  | poll (c : Cond)
  /-- SLEEP: the clocks it was given (R165). -/
  | sleep (n : Nat)
  /-- It stands at the JOIN of the split (R33). -/
  | join (split : Nat)
  /-- It waits for a barrier phase (R227); `dest` is the status register of BAR or BARWT, `scope` its scope. -/
  | barrier (bar : Nat) (dest : Nat) (scope : Nat)
  /-- Its phase is over, with this status for `dest`, but a handler of the warp runs: it goes on after the handler's ERET (R404). -/
  | released (dest : Nat) (scope : Nat) (status : Word)
  /-- LOCK: registered as a waiter on the word (R220). -/
  | lock (word : Nat)
  /-- LOCK: the waiter list was full (R220). -/
  | lockRetry (word : Nat)
  /-- LOCK: its request, by number and virtual address, has left the core and has no route to the word's home (R416). -/
  | lockSent (word id : Nat) (va : DWord)
  /-- XCHG: waiting for its match, with its snapshot (R199). -/
  | xchg
  /-- RET: the spilled block is on its way, by the number of its request (R162, R416). -/
  | linkRefill (id : Nat)
  /-- CALLI: the entry is on its way from die 0 (R162). -/
  | entryMiss (entry : Nat)
  /-- A comparison point of a redundant team, by its kind in INFO bits 3:0 (R44, R448). -/
  | compare (kind : Nat)
  /-- BKPT stopped it (R260, R360); `logged` once the stop log holds it. -/
  | stopped (logged : Bool)
  deriving DecidableEq, Repr, Inhabited

/-- A fragment (R26, R32): PC, EXEC and FRAG; what it waits for; its aging count (R49); its open splits, innermost
first; whether it is a
trap handler; whether the handler of its warp has stopped it (R369); whether YIELD gave up its next turn (R165); whether
the comparison point it stands at has been passed (R44); the operations whose return an acquire's later accesses wait for (R211); and
the line it last issued an instruction from (R419). -/
structure Frag where
  id : Nat := 0
  pc : Pc := 0
  exec : Word := 0xFFFFFFFF#32
  frag : Word := 0xFFFFFFFF#32
  wait : Wait := .none
  passed : Nat := 0
  splits : List Split := []
  handler : Bool := false
  held : Bool := false
  yielded : Bool := false
  compared : Bool := false
  acquire : List Nat := []
  line : Option Nat := .none
  deriving DecidableEq, Repr, Inhabited

/-- One entry of the link stack: the return address, and the stack pointer pair with the side bits of its two registers
(R31, R95, R402). -/
structure LinkEntry where
  ret : Pc := 0
  sp : DWord := 0
  poisonLo : Bool := false
  poisonHi : Bool := false
  deriving DecidableEq, Repr, Inhabited

/-- One of the token slots L0 to L7 of a warp (R370). -/
structure Token where
  addr : DWord := 0
  held : Bool := false
  scope : Nat := 0
  deriving DecidableEq, Repr, Inhabited

/-- Registers that the scoreboard holds until an instruction's latency runs out or its reply arrives (R158, R205);
`flags`: it still has FLAGS to raise. -/
structure Hold where
  id : Nat
  regs : List Nat
  flags : Bool := false
  deriving DecidableEq, Repr, Inhabited

/-- A pending imprecise fault (R368): its class, code and RES, the failed operation's FRAG at issue and address, the
counter entry it keeps, LANES, ADDR and poison, and the time of its detection (R366). -/
structure Pending where
  cls : Nat
  code : Nat
  res : Bool
  pois : Bool
  frag : Word
  pc : Pc
  instr : Word := 0
  pfxWord : Word := 0
  ctr : Option Ctr
  lanes : Word := 0
  addr : DWord := 0
  info : Option Word := .none
  time : Nat := 0
  deriving DecidableEq, Repr, Inhabited

/-- A fault whose entry waits for the warp's register writes and flags to settle (R369): the served fragment,
the record, and the resume address RPC. -/
structure TrapReq where
  frag : Nat
  record : FaultRec
  rpc : Pc
  deriving DecidableEq, Repr, Inhabited

/-- A waiting XCHG (R199): its window region, its ordinal on that window, the snapshot of S .. S+n-1, the sender's
EXEC, D with n and the scoreboard's hold on them, its word, and the partner team it was counted toward. -/
structure Xchg where
  region : Nat
  word : Word
  ordinal : Nat
  dest : Nat
  count : Nat
  exec : Word
  snapshot : List Row
  frag : Nat
  hold : Nat
  team : Nat
  deriving DecidableEq, Repr, Inhabited

/-- A warp (Table EXEC.1) with what the core keeps for it: where it sits, the team and its index and role in it; its
fragments and the numbers to be given next; MODE, FLAGS, CNT, DIRTY; the link stack, newest first, with how many of
its entries are on the core and the next free spill address; the registers; CLOCKHI; the token slots; the kept trap
record and the fragment the handler serves; pending faults; the trap waiting for settlement; scoreboard holds; lanes
exited; the address of the transfer that made it depart (R309); marks of its end; its signature (R43), with the signatures that
records left since the last comparison and the number of records compared (R44). (Log 14: DESIGN CHOICE, safe.) -/
structure Warp where
  core : Nat := 0
  slot : Nat := 0
  team : Nat := 0
  wid : Nat := 0
  role : Role := .vector
  frags : List Frag := []
  nextFrag : Nat := 1
  nextSplit : Nat := 1
  mode : BitVec 24 := 0
  flags : BitVec 5 := 0
  cntLd : Nat := 0
  cntSt : Nat := 0
  cntCp : Nat := 0
  cntTl : Nat := 0
  dirty : BitVec 256 := 0
  link : List LinkEntry := []
  onCore : Nat := 0
  spill : DWord := 0
  regs : List Row := []
  clockHi : Word := 0
  tokens : List Token := []
  kept : FaultRec := {}
  served : Option Nat := .none
  pending : List Pending := []
  trap : Option TrapReq := .none
  holds : List Hold := []
  exited : Word := 0
  passed : Nat := 0
  blocked : Bool := false
  departing : Bool := false
  leftAt : Pc := 0
  halted : Bool := false
  saving : Bool := false
  saved : Bool := false
  ended : Bool := false
  sig : BitVec 64 := 0
  sigLog : List (BitVec 64) := []
  sigBase : Nat := 0
  xchg : Option Xchg := .none
  xchgSent : List (Nat × Nat) := []
  deriving DecidableEq, Repr, Inhabited

/-! ## Launch records and tasks -/

/-- A region descriptor (Table SCHED.4). -/
structure Region where
  base : DWord := 0
  self : Bool := false
  cls : Nat := 0
  rights : Nat := 0
  len : Nat := 0
  deriving DecidableEq, Repr, Inhabited

/-- A format slot (Table NUM.6) with the codebook loaded at dispatch (R153). -/
structure Slot where
  fmt : Nat := 0
  acc : Nat := 0
  scale : Int := 0
  sat : Bool := false
  book : DWord := 0
  table : List (BitVec 16) := []
  deriving DecidableEq, Repr, Inhabited

/-- A launch record (Table SCHED.3) with its slots, regions and parameters. -/
structure Launch where
  entry : Nat := 0
  gridX : Nat := 1
  gridY : Nat := 1
  gridZ : Nat := 1
  nVec : Nat := 1
  nCopy : Nat := 0
  nMat : Nat := 0
  handles : Nat := 0
  regs : Nat := 256
  scratch : Nat := 0
  accb : Nat := 0
  bCore : Nat := 0
  bQuad : Nat := 0
  bDie : Nat := 0
  bPkg : Nat := 0
  bPod : Nat := 0
  prio : Nat := 0
  passClass : Nat := 0
  travelling : Bool := false
  redundant : Bool := false
  pair : Bool := false
  half : Bool := false
  tenant : Nat := 0
  vdev : Nat := 0
  world : Nat := 0
  av : Bool := false
  variant : Nat := 0
  baseGen : Word := 0
  trapEnt : Nat := 0xFFFF
  save : DWord := 0
  travMap : DWord := 0
  slots : List Slot := []
  regions : List Region := []
  params : List Word := []
  deriving DecidableEq, Repr, Inhabited

/-- A job card (Table ISAE.5). -/
structure JobCard where
  kind : Nat := 0
  dst : DWord := 0
  src : DWord := 0
  len : Nat := 0
  deriving DecidableEq, Repr, Inhabited

/-- Task states (Table SCHED.5); `free` is a slot that holds none. -/
inductive TaskState where
  | free
  | held
  | ready
  | placing
  | running
  deriving DecidableEq, Repr, Inhabited

/-- A range of a task's footprint (R278): base, length, whether it is written, the lock word that its region declares as
its guard, and the lock words that lie in it under a declaration of the task (R333). -/
structure Span where
  base : Nat
  len : Nat
  write : Bool
  guard : Option Nat := .none
  locks : List Nat := []
  deriving DecidableEq, Repr, Inhabited

/-- Where a task came from: a queue with the packet's number, ADDR and word 0 (R433); or a warp (team and index) with the
PC, word and FRAG of its JOB or LAUNCH (R241, R426).  The front end's own jobs (R359) have neither. -/
structure Origin where
  queue : Option Nat := .none
  packet : Nat := 0
  addr : DWord := 0
  word : Word := 0
  warp : Option (Nat × Nat) := .none
  pc : Pc := 0
  frag : Word := 0
  deriving DecidableEq, Repr, Inhabited

/-- What a task runs. -/
inductive Body where
  | launch (l : Launch)
  | job (card : JobCard)
  deriving DecidableEq, Repr, Inhabited

/-- A range of consecutive unplaced team indices of a task that a die holds (R295). -/
structure TeamRange where
  die : Nat
  lo : Nat
  hi : Nat
  deriving DecidableEq, Repr, Inhabited

/-- An edge that a task waits for (R278): the slot and sequence number of the other task, and the byte ranges where the two tasks'
regions meet. -/
structure Edge where
  slot : Nat
  seq : BitVec 22
  ranges : List (Nat × Nat) := []
  deriving DecidableEq, Repr, Inhabited

/-- A slot of the task table (R290), with the task's ordinal of acceptance, what it runs and under which identity, where it
came from, its ancestors (slot and sequence number, R241), the adaptation entry it loads with the doubleword resolved
(R359), its edges and footprint, the teams placed and ended, the ranges that dies hold (R295), the redundant teams to
place a second time with the cores they avoid (R449), whether it is faulted (R372); of a travelling launch, when its last replica was pinned, whether it is being saved, and whether it stands saved
(R319). -/
structure Task where
  state : TaskState := .free
  seq : BitVec 22 := 0
  order : Nat := 0
  body : Body := .job {}
  vdev : Nat := 0
  world : Nat := 0
  tenant : Nat := 0
  prio : Nat := 0
  entry : Nat := 0
  origin : Origin := {}
  ancestors : List (Nat × BitVec 22) := []
  coldEntry : Option (Nat × DWord) := .none
  edges : List Edge := []
  span : List Span := []
  nextTeam : Nat := 0
  placed : Nat := 0
  ended : Nat := 0
  ranges : List TeamRange := []
  again : List (Nat × List Nat) := []
  faulted : Bool := false
  pinnedAt : Nat := 0
  saving : Bool := false
  saved : Bool := false
  deriving DecidableEq, Repr, Inhabited

/-! ## Teams and core-local engines -/

/-- One gated write of a redundant copy (R42): the warp that made it, the record of its signature that covers it (R43), the
machine-physical address, the bytes, and whether they are poisoned. -/
structure GateWrite where
  wid : Nat
  ord : Nat
  addr : Nat
  data : List Byte
  poison : Bool
  deriving DecidableEq, Repr, Inhabited

/-- A team (R36): its task slot, linear index and coordinates, copy number, the core it sits on, its allocations (first
register granule, scratchpad byte and accumulator byte), the matrix half it claims, the counters of Table ISAE.6, the
store gate, a broken pair (R428), the second run of a redundant team (R448) with the cores it avoids, its end, the
time from which its residency counts (R299), and, of a travelling warp on its way, the entries in its sealed spill region
(R311), the registers that its sled's ring slot has no room for, and whether a steering slice counts it at a replica (R312). (Log 14: DESIGN CHOICE, safe; 77: DEDUCED, unsafe.) -/
structure Team where
  id : Nat := 0
  task : Nat := 0
  index : Nat := 0
  x : Nat := 0
  y : Nat := 0
  z : Nat := 0
  copy : Nat := 0
  core : Nat := 0
  resident : Bool := true
  regBase : Nat := 0
  scrBase : Nat := 0
  accBase : Nat := 0
  half : Nat := 2
  perf : List Word := []
  gate : List GateWrite := []
  pairBroken : Bool := false
  retry : Bool := false
  ended : Bool := false
  avoid : List Nat := []
  since : Nat := 0
  spilled : List LinkEntry := []
  carry : List (Nat × Row) := []
  /-- The ring that holds the team's sled, its slot, and a number that rises with each sled put in a ring (R439). -/
  inRing : Option (Nat × Nat × Nat) := .none
  steered : Bool := false
  deriving DecidableEq, Repr, Inhabited

/-- A barrier allocated to a launch (R225): the model's number for it, its level of Table EXEC.6, its number in the launch, the task, the teams
that take part, the unit of its level that it takes one of (none while its teams are saved), and its counts; `phaseNo` counts completed phases, its lowest bit being PHASE. -/
structure Barrier where
  id : Nat := 0
  scope : Nat := 1
  index : Nat := 0
  task : Nat := 0
  teams : List Nat := []
  unit : Option Nat := .none
  expect : Nat := 0
  arrived : Nat := 0
  pend : Int := 0
  pendNx : Int := 0
  phaseNo : Nat := 0
  marks : List (Nat × Nat) := []
  abandoned : Bool := false
  deriving DecidableEq, Repr, Inhabited

/-- A handle of a team's buffer table, on the leader's or the follower's side (Table ISAE.2, R252). -/
structure Handle where
  team : Nat := 0
  follower : Bool := false
  num : Nat := 0
  state : HState := .free
  phase : Bool := false
  base : Nat := 0
  size : Nat := 0
  deriving DecidableEq, Repr, Inhabited

/-- Where a copy's bytes go or come from (Table ISAE.4): a virtual address, or an offset in the team's scratchpad
allocation, a handle standing for the offset of its buffer. -/
inductive Place where
  | mem (addr : Nat)
  | scratch (off : Nat)
  deriving DecidableEq, Repr, Inhabited

/-- A copy descriptor in the engine's queue of 64 (R237): who issued it, its operands, the phase tag of its credits
(barrier and completed-phase number), the operations it waits for at acceptance, its record in the signature (R43), and, once accepted, the bytes read (by
their place in the transfer), the merge entries that still owe it a line, and the destination lines not yet performed. -/
structure Copy where
  id : Nat := 0
  core : Nat := 0
  team : Nat := 0
  wid : Nat := 0
  merged : Bool := false
  dst : Place := .mem 0
  src : Place := .mem 0
  follower : Bool := false
  len : Nat := 0
  rows : Nat := 1
  srcPitch : Nat := 0
  dstPitch : Nat := 0
  mask : BitVec 16 := 0
  fill : Option Nat := .none
  bar : Bool := false
  credit : Option (Nat × Nat) := .none
  pc : Pc := 0
  instr : Word := 0
  frag : Word := 0
  after : List Nat := []
  ord : Nat := 0
  accepted : Bool := false
  data : Memory := {}
  owed : List Nat := []
  lines : List Nat := []
  discard : Bool := false
  deriving DecidableEq, Repr, Inhabited

/-- A COPYM merge entry at a home slice, for one line (R240, R329): its key, the line's virtual and machine-physical
addresses, the copies that have requested it, and the clock at which it opened. -/
structure Merge where
  id : Nat
  world : Nat
  addr : Nat
  len : Nat
  mask : BitVec 16
  group : Nat
  line : Nat
  place : Nat
  waiting : List Nat
  opened : Nat := 0
  deriving DecidableEq, Repr, Inhabited

/-- One B bank of an array (R244 to R246): the slot it is decoded through, its K-width, and the code and poison of
each cell, by row. -/
structure Bank where
  slot : Slot := {}
  wide : Bool := false
  kw : Nat := 64
  codes : List (List (BitVec 16 × Bool)) := []
  deriving DecidableEq, Repr, Inhabited

/-- The reuse latch (R249): tag (warp index, A field, A slot) and the sixteen latched registers. -/
structure Latch where
  wid : Nat
  a : Nat
  slot : Nat
  rows : List Row
  deriving DecidableEq, Repr, Inhabited

/-- A row of an array whose parity fails while an instruction is performed (R427): one of the A latch, or one of cells and banks, which is a column of
the accumulators. -/
structure Struck where
  latch : Bool
  row : Nat
  deriving DecidableEq, Repr, Inhabited

/-- A queued tile instruction (R244). -/
inductive TileKind where
  /-- TBLD from a handle (or a ring's current handle), or from an offset. -/
  | load (handle : Option Nat) (off slot : Nat) (pair wide : Bool)
  | mma (t a slot : Nat) (reuse zf : Bool)
  | mmaB (t a slot : Nat) (reuse zf : Bool)
  | mmaPair (t a slot : Nat) (reuse zf : Bool)
  | zero (t n : Nat) (pair : Bool)
  /-- TACCLD, with its lane set and the lanes it zeroes. -/
  | readAcc (d t m : Nat) (pair : Bool) (exec zeroed : Word)
  | store (handle : Option Nat) (off t : Nat) (pair : Bool)
  /-- TREL; `array`: it ends the claim. -/
  | release (array : Bool)
  deriving DecidableEq, Repr, Inhabited

/-- An entry of an array's queue: who issued it, what it does, and the scoreboard hold of its destinations. -/
structure TileOp where
  wid : Nat
  kind : TileKind
  pc : Pc
  instr : Word
  frag : Word
  hold : Option Nat
  deriving DecidableEq, Repr, Inhabited

/-- A claimed array (R244): its core, the half (2: the whole array), the team that holds it, whether it is the
follower of a pair, its queue, the descriptors that a save has recorded of it (R255), banks, which bank is current, the shadow of the bank
that the last issued TBLD will make current (R394), and the latch. -/
structure Array where
  core : Nat := 0
  half : Nat := 2
  team : Nat := 0
  follower : Bool := false
  queue : List TileOp := []
  stopped : List TileOp := []
  bank0 : Bank := {}
  bank1 : Bank := {}
  current : Bool := false
  shadowSlot : Slot := {}
  shadowKw : Nat := 64
  latch : Option Latch := .none
  releasing : Bool := false
  /-- The rows struck while the head of the queue is performed. -/
  struck : List Struck := []
  deriving DecidableEq, Repr, Inhabited

/-! ## Caches, translation and operations in flight -/

/-- The tag of an L1 line (Table MEM.3); a CORE line is a `norm` line with a dirty byte. -/
inductive LineKind where
  | priv
  | ro
  | norm
  deriving DecidableEq, Repr, Inhabited

/-- An L1 line of a core (R62, R462): the machine-physical address of its first byte, which of its 128 bytes are
present and which are dirty, and the bytes themselves, keyed by offset; absent bytes are kept at 0. -/
structure L1Line where
  core : Nat
  base : Nat
  kind : LineKind
  present : BitVec 128
  dirty : BitVec 128
  data : Memory
  deriving DecidableEq, Repr, Inhabited

/-- A line of a core's write-combining buffer (R208): its bytes, and the STNT operations whose bytes it holds. -/
structure WcbLine where
  core : Nat
  base : Nat
  present : BitVec 128
  data : Memory
  ops : List Nat
  deriving DecidableEq, Repr, Inhabited

/-- A translation held by an L1 TLB (`quad` = false, unit a core) or an L2 TLB (unit a quad) (R55), for one
64 KiB page: its virtual page number, the machine-physical address of its frame, and its stage-one rights. -/
structure TlbEntry where
  quad : Bool
  unit : Nat
  world : Nat
  page : Nat
  frame : Nat
  r : Bool
  w : Bool
  x : Bool
  deriving DecidableEq, Repr, Inhabited

/-- A walk in flight for fetches ahead (R410, R419), with the cores that asked and the lines they asked for. -/
structure Walk where
  quad : Nat
  world : Nat
  page : Nat
  asked : List (Nat × Nat)
  deriving DecidableEq, Repr, Inhabited

/-- A line of a core's I-cache or of a pinned instruction store (R101, R418): the sixteen words from a 64-byte
aligned virtual address, the positions among them of words that carry the memory poison code (R444), whether the line is of the segment pinned
on the core (R307), and the machine page it was read from. -/
structure ILine where
  core : Nat
  world : Nat
  base : Nat
  words : List Word
  poisoned : List Nat := []
  store : Bool := false
  frame : Nat := 0
  deriving DecidableEq, Repr, Inhabited

/-- A load, store or atomic in flight (R205): its warp, the counter it occupies, what its reply writes (register and
row), under the lane mask it was issued with and zeroing the other lanes of FRAG where it zeroes (R124), its scoreboard
hold, what a failure would report, and the machine-physical lines whose homes or windows it asks (R59, R64). -/
structure Op where
  id : Nat
  core : Nat
  team : Nat
  wid : Nat
  ctr : Ctr
  writes : List (Nat × Row)
  active : Word
  zero : Word
  hold : Option Nat
  fragId : Nat
  frag : Word
  pc : Pc
  instr : Word
  pfxWord : Word
  addr : DWord
  stnt : Bool
  homes : List Nat := []
  deriving DecidableEq, Repr, Inhabited

/-- A fragment waiting on a lock word, in registration order (R220): the word's machine-physical address, the warp,
the fragment, the token, scope and the pair's virtual address; `granted` once an UNLOCK has handed it the word (R221),
`woken` once another write has reached the word (R220); `id` numbers the request that a granted one's reply answers. -/
structure Waiter where
  word : Nat
  core : Nat
  slot : Nat
  frag : Nat
  token : Nat
  scope : Nat
  vaddr : DWord
  granted : Bool
  woken : Bool
  id : Nat := 0
  deriving DecidableEq, Repr, Inhabited

/-! ## Admission -/

/-- The state of a code page (Table ADM.2), held by machine page; unlisted pages are open. -/
inductive PageState where
  | opened
  | checking
  | sealed
  deriving DecidableEq, Repr, Inhabited

/-- What the admission unit keeps of a sealed module (R76), with the image's length and what the admission unit builds beside the code: the code's address and
length, the join map (R160, by address), the jump tables (R161), the travel table and L (R305), and the segment starts. -/
structure Seal where
  world : Nat
  modId : Nat
  digest : BitVec 384
  kind : Nat
  bytes : Nat
  code : Nat
  words : Nat
  pages : Nat
  firstExport : Nat
  exportCount : Nat
  joins : List (Nat × Nat)
  jumps : List (Nat × List Int)
  travel : Bool
  live : List (Nat × BitVec 256)
  maxLive : Nat
  segments : List Nat
  deriving DecidableEq, Repr, Inhabited

/-- An entry of the seal table (R100): a sealed code page, by its machine page, with the world, the module and the digest of the image. -/
structure SealPage where
  page : Nat
  world : Nat
  modId : Nat
  digest : BitVec 384
  deriving DecidableEq, Repr, Inhabited

/-- A region that a kernel header declares: class, rights (0: none declared), minimum length, and its guard, the region
and offset of the lock word (R77, R90). -/
structure RegionDecl where
  cls : Nat := 0
  rights : Nat := 0
  minLen : Nat := 0
  guard : Option (Nat × Nat) := .none
  deriving DecidableEq, Repr, Inhabited

/-- The resources a kernel header declares (Table ADM.3), which R77 compares with a launch record. -/
structure KernelDecl where
  regs : Nat := 256
  roles : Nat := 1
  handles : Nat := 0
  bCore : Nat := 0
  bQuad : Nat := 0
  bDie : Nat := 0
  bPkg : Nat := 0
  bPod : Nat := 0
  scratch : Nat := 0
  accb : Nat := 0
  stack : Nat := 0
  params : List Nat := []
  regions : List RegionDecl := []
  deriving DecidableEq, Repr, Inhabited

/-- An entry of a world's global entry table (R102). -/
structure Entry where
  world : Nat
  index : Nat
  modId : Nat
  name : BitVec 64
  isFn : Bool
  code : List (Option Nat)
  frame : Nat
  sigRole : Nat
  sigBytes : List Byte
  decl : KernelDecl
  deriving DecidableEq, Repr, Inhabited

/-- The request of a world that the admission unit is checking (R72 to R75): its fields, the digest and bytes of the image as
submitted, and the virtual and machine pages of its code section. -/
structure AduJob where
  world : Nat
  kind : Nat
  addr : Nat
  len : Nat
  status : Nat
  digest : BitVec 384 := 0
  image : List Byte := []
  frames : List (Nat × Nat) := []
  deriving DecidableEq, Repr, Inhabited

/-! ## Host side -/

/-- What a queue's current packet waits for: nothing; its lap word, after so many re-reads (R284); a free slot, or the
queue's tasks (R285, R290); the event word (R285). -/
inductive PktWait where
  | none
  | lap (reads : Nat)
  | held
  | event
  deriving DecidableEq, Repr, Inhabited

/-- A host queue (Table SCHED.1); `head` counts every packet consumed since the queue was enabled, so that HEAD is its low
32 bits and LAP is `head / N + 1`. -/
structure Queue where
  qbase : DWord := 0
  en : Bool := false
  vdev : Nat := 0
  log2n : Nat := 4
  kick : Word := 0
  head : Nat := 0
  status : Nat := 0
  ivec : Nat := 0
  waiting : PktWait := .none
  deriving DecidableEq, Repr, Inhabited

/-- A virtual device (Table SCHED.6) with its default handler word (R298), what its WORLD field reads, which becomes its world once it is disabled (R346) and
the service of its teams, in resident nanoseconds since it was last enabled, by die and the WEIGHT of the time (256 times the die, plus the weight),
counted in full up to a time (R297, R435). (Log 94: DEDUCED, unsafe.) -/
structure Vdev where
  en : Bool := false
  world : Nat := 0
  quantum : Nat := 1000
  weight : Nat := 1
  ncore : Nat := 1024
  core0 : Nat := 0
  defTrap : Nat := 0xFFFF
  worldReg : Nat := 0
  service : List (Nat × Nat) := []
  counted : Nat := 0
  deriving DecidableEq, Repr, Inhabited

/-- A world: its descriptor (Table SEC.1), its keys by the number of the draw that made them (R341; the key bits are
the security core's and nothing can read them), its measurement M (Table SEC.5), whether the admission unit has stopped its
request ring (R72), and the next module identifier. (Log 21: DESIGN CHOICE, safe; 95: DEDUCED, unsafe.) -/
structure World where
  en : Bool := false
  xhalf : Bool := false
  ngrant : Nat := 0
  gen : Word := 0
  root : DWord := 0
  grants : DWord := 0
  adapt : DWord := 0
  aring : DWord := 0
  keys : Option Nat := .none
  meas : BitVec 384 := 0
  ringStopped : Bool := false
  nextMod : Nat := 1
  deriving DecidableEq, Repr, Inhabited

/-- The security mailbox (Table SEC.2), with how far a running command has come: whether it has passed its checks, the
pages MAP2 still has to map, the number below which operations are older than an invalidation, and the frames UNMAP2 has
removed; and the world whose teardown the security core runs on its own (R437). -/
structure Mailbox where
  op : BitVec 8 := 0
  world : BitVec 8 := 0
  zero0 : BitVec 16 := 0
  count : Word := 0
  addr : DWord := 0
  arg0 : DWord := 0
  arg1 : DWord := 0
  arg2 : Word := 0
  zero1 : Word := 0
  arg3 : DWord := 0
  arg4 : DWord := 0
  busy : Bool := false
  code : BitVec 8 := 0
  started : Bool := false
  left : Nat := 0
  bound : Nat := 0
  frames : List Nat := []
  own : Option Nat := .none
  deriving DecidableEq, Repr, Inhabited

/-- A vector of a function's MSI-X table (R286); unlisted vectors are masked and not pending. (Log 26: PRESUMED, unsafe.) -/
structure MsixVec where
  fn : Nat
  vec : Nat
  masked : Bool
  pending : Bool
  deriving DecidableEq, Repr, Inhabited

/-- What the package sends to the host or a management port, in order: interrupts, and the results of commands. (Log 131: DESIGN CHOICE, safe; 135: DEDUCED, unsafe.) -/
inductive HostOut where
  /-- An MSI-X message (R286). -/
  | msix (fn vec : Nat)
  /-- The words a command returns to a port (R363, R364). -/
  | words (port : Nat) (ws : List Nat)
  /-- The result code of a firmware command (Table REL.8), or BUSY (R459). -/
  | result (port code : Nat)
  /-- An SPDM response: message code and payload (R348). -/
  | spdm (code : Nat) (payload : List Byte)
  /-- An SPDM ERROR response (R458). -/
  | spdmError (code : Nat)
  /-- A response inside a secured session (R348). -/
  | secured (bytes : List Byte)
  /-- The bytes a host read or AtomicOp returns (R281). -/
  | data (fn : Nat) (bytes : List Byte)
  /-- An unsupported request: the access reached nothing. -/
  | failed (fn : Nat)
  /-- A write to host memory under a function's requester ID (R376). -/
  | write (fn addr : Nat) (bytes : List Byte)
  /-- An access to a window forwarded to another member of the group (R351). -/
  | forward (member offset : Nat) (write : Bool) (value : Word)
  deriving DecidableEq, Repr, Inhabited

/-- The fault log registers (Table FLT.4), and the records detected and not yet acknowledged, oldest first (R376). -/
structure FaultLog where
  base : DWord := 0
  en : Bool := false
  log2 : Nat := 4
  head : Word := 0
  tail : Word := 0
  lost : Word := 0
  waiting : List FaultRec := []
  deriving DecidableEq, Repr, Inhabited

/-- An entry of the stop log (R360). -/
structure StopEntry where
  valid : Bool := false
  core : Nat := 0
  slot : Nat := 0
  pc : Pc := 0
  deriving DecidableEq, Repr, Inhabited

/-- The pod block (Table HOST.2). -/
structure Pod where
  valid : Bool := false
  bridgeIdx : Nat := 0
  bridge : Bool := false
  podIdx : Nat := 0
  linkUp : BitVec 16 := 0
  dies : BitVec 32 := 0
  full : Bool := false
  route : List (BitVec 16) := []
  deriving DecidableEq, Repr, Inhabited

/-- What the tray configuration tells the management controller of the pod (R352). (Log 128: DESIGN CHOICE, unsafe.) -/
structure Tray where
  podIdx : Nat := 0
  bridgeIdx : Nat := 0
  bridge : Bool := true
  route : List (BitVec 16) := []
  deriving DecidableEq, Repr, Inhabited

/-- The management session (Table HOST.4): holder and tag, the clock in which the holder took it, and each port's RESULT. -/
structure Session where
  held : Bool := false
  port : Nat := 0
  tag : BitVec 16 := 0
  takenAt : Nat := 0
  result : List Nat := [0, 0, 0, 0]
  deriving DecidableEq, Repr, Inhabited

/-- Lifetime records (Table HOST.5): counts, errors per structure class, seconds per histogram bin. -/
structure Life where
  seconds : Nat := 0
  coldResets : Nat := 0
  activations : Nat := 0
  corrected : List Nat := List.replicate 16 0
  uncorrectable : List Nat := List.replicate 16 0
  power : List Nat := List.replicate 16 0
  heat : List Nat := List.replicate 16 0
  lanes : Nat := 0
  cores : Nat := 0
  deriving DecidableEq, Repr, Inhabited

/-- One entry of the site table (R445): the site and the powered times of the last three errors counted against it,
newest first. -/
structure SiteCount where
  site : Site
  times : List Nat
  deriving DecidableEq, Repr, Inhabited

/-- One entry of the pending list (Table REL.5), with the bank of a spare row, which the register does not show. -/
structure Retire where
  action : Nat
  sclass : Nat
  unit : Nat
  lane : Nat
  applied : Bool
  detail : Nat
  bank : Nat := 0
  deriving DecidableEq, Repr, Inhabited

/-- One unit's firmware: the digest and SVN running, the lowest SVN fused, and the staged image (R347, R456); whether it has moved, has failed, and
whether the signature of the image it runs verifies. (Log 161: DESIGN CHOICE, unsafe.) -/
structure Fw where
  digest : BitVec 384 := 0
  svn : BitVec 32 := 0
  fused : BitVec 32 := 0
  staged : Option (BitVec 384 × BitVec 32) := .none
  moved : Bool := false
  failed : Bool := false
  verified : Bool := true
  deriving DecidableEq, Repr, Inhabited

/-- A firmware activation (R349, R457): who asked, whether the units are moving back, and the units still to move. -/
structure Activation where
  port : Nat
  back : Bool
  left : List FwUnit
  deriving DecidableEq, Repr, Inhabited

/-- How far the connection with the SPDM responder has come (R348, R458). -/
inductive SpdmPhase where
  | start
  | version
  | capabilities
  | algorithms
  deriving DecidableEq, Repr, Inhabited

/-- The SPDM responder (R348, R458): how far the connection and the session have come, the algorithms chosen, and what the session's keys come from:
the number of the responder's draw, and the requester's share. -/
structure Spdm where
  phase : SpdmPhase := .start
  keyed : Bool := false
  session : Bool := false
  resynch : Bool := false
  algs : List SpdmAlg := []
  secret : Option (Nat × List Byte) := .none
  deriving DecidableEq, Repr, Inhabited

/-! ## Travelling mode -/

/-- A sled (Table TRAV.4): the header's fields, the link entries of flit 1 and the registers carried; the model's numbers
for it, its task and team, the core and slot it left, and the core it has been steered to. -/
structure Sled where
  id : Nat := 0
  task : Nat := 0
  team : Nat := 0
  pc : DWord := 0
  seg : Nat := 0
  epoch : Word := 0
  exec : Word := 0
  mode : BitVec 24 := 0
  flags : BitVec 5 := 0
  teamX : Nat := 0
  teamY : Nat := 0
  teamZ : Nat := 0
  ldepth : Nat := 0
  start : Bool := false
  links : List LinkEntry := []
  spill : DWord := 0
  live : BitVec 256 := 0
  rows : List (Nat × Row) := []
  fromCore : Nat := 0
  fromSlot : Nat := 0
  dest : Option Nat := .none
  deriving DecidableEq, Repr, Inhabited

/-- A core that pins a segment replica (R307): the launch's task, the segment k, the replica j, the map epoch from which it
takes sleds (R312), its arrival queue of up to 8 sleds, oldest first (R313), and the depth that the steering slice keeps
for it (R312). (Log 81: DEDUCED, unsafe.) -/
structure Pin where
  core : Nat := 0
  task : Nat := 0
  k : Nat := 0
  j : Nat := 0
  since : Nat := 0
  queue : List Sled := []
  depth : Nat := 0
  deriving DecidableEq, Repr, Inhabited

/-- A saved team: its warps, handles and array, and the contents of its scratchpad and accumulators on each of its cores
(R300, R255), keyed from 0, accumulators from 4 MiB on and a follower's side from 8 MiB on. (Log 55: DESIGN CHOICE, unsafe.) -/
structure Saved where
  team : Team
  warps : List Warp
  handles : List Handle
  arrays : List Array
  store : Memory
  deriving DecidableEq, Repr, Inhabited

/-- Teams saved together (R294, R300), and the die that owns them (R440). -/
structure Suspended where
  task : Nat
  die : Nat
  teams : List Saved
  deriving DecidableEq, Repr, Inhabited

/-- Work sent by one die to another and not yet confirmed (R296, R440): the upper part of a range of the task's teams, or
the saved teams among which `team` is. -/
structure Message where
  id : Nat
  task : Nat
  source : Nat
  target : Nat
  range : Option (Nat × Nat)
  team : Option Nat
  deriving DecidableEq, Repr, Inhabited

/-! ## The package -/

/-- The configuration word of a core (R21): PRESENT, SPAREROWS, PASSES, GOOD and LANEMAP. (Log 6: DESIGN CHOICE, unsafe.) -/
structure CoreCfg where
  present : Bool := true
  spareRows : Nat := 0
  passes : Nat := 2
  good : Nat := 16
  laneMap : BitVec 16 := 0xFFFF#16
  deriving DecidableEq, Repr, Inhabited

/-- The package configuration block (R19 to R21): identification words, and the words of the cores that differ from a
whole core. (Log 6: DESIGN CHOICE, unsafe.) -/
structure Config where
  part : Word := 0x0932#32
  step : Word := 0
  cores : Word := 0x0400#32
  dies : Word := 0x20#32
  serac : Word := 0x10#32
  class2 : Word := 0x400#32
  class3 : Word := 0
  class4 : Word := 0
  serialLo : Word := 0
  serialHi : Word := 0
  core : List (Nat × CoreCfg) := []
  deriving DecidableEq, Repr, Inhabited

/-- The instruction being issued: the index of its warp in `warps`, the index of its fragment, its length in bytes,
its words, and the vector passes that it performs and skips (R321, R323). -/
structure Cursor where
  warp : Nat := 0
  frag : Nat := 0
  len : Nat := 4
  word : Word := 0
  pfxWord : Word := 0
  busy : Nat := 0
  skipped : Nat := 0
  deriving DecidableEq, Repr, Inhabited

/-- What drives the next step: an action of another agent or of the outside world, an issue opportunity of a core, or the mask bit of an MSI-X
vector of a function set by the host through the function's capability (R286).
The list is the model's order of events among agents that the spec leaves unordered. (Log 1: DESIGN CHOICE, safe.) -/
inductive Input where
  | event (i : Instr)
  | issue (core : Nat)
  | mask (fn vector : Nat)
  deriving DecidableEq, Repr, Inhabited

/-- The page ownership byte of a machine page (Table MEM.4); unlisted pages read 0. -/
structure PageOwner where
  page : Nat
  sealed : Bool
  clean : Bool
  owner : Nat
  deriving DecidableEq, Repr, Inhabited

/-- The state of one package. -/
structure State where
  /-- What drives the next step, oldest first. -/
  inputs : List Input := []
  /-- The model's count of free values drawn so far. -/
  tick : Nat := 0
  /-- The package time base in nanoseconds since cold reset (R173). -/
  now : Nat := 0
  /-- Core clocks since the cores left reset (R256). -/
  clk : Nat := 0
  /-- Whether the cores run at 1.0 GHz (R365). -/
  fast : Bool := false
  cur : Cursor := {}
  /-- The core that issued last, and each core's warp slot that issued last (R302). -/
  lastCore : Nat := 1023
  lastSlot : List (Nat × Nat) := []
  /-- The next number for operations, copies, teams, sleds, messages and merge entries. -/
  nextId : Nat := 1
  cfg : Config := {}
  -- storage
  mem : Memory := {}
  hostMem : Memory := {}
  l1 : List L1Line := []
  wcb : List WcbLine := []
  sharers : List (Nat × BitVec 32) := []
  /-- The lines that gateway caches hold: die, local index of the port (Table SEC.4), line (R65). -/
  gateways : List (Nat × Nat × Nat) := []
  ilines : List ILine := []
  tlb : List TlbEntry := []
  walks : List Walk := []
  ops : List Op := []
  waiters : List Waiter := []
  -- work
  warps : List Warp := []
  teams : List Team := []
  tasks : List Task := []
  accepted : Nat := 0
  barriers : List Barrier := []
  handles : List Handle := []
  copies : List Copy := []
  merges : List Merge := []
  arrays : List Array := []
  suspended : List Suspended := []
  messages : List Message := []
  -- admission
  pages : List (Nat × PageState) := []
  seals : List Seal := []
  entries : List Entry := []
  entryCache : List (Nat × Nat) := []
  adu : List AduJob := []
  /-- The seal table: its entries by machine page (R100). -/
  sealTable : List SealPage := []
  /-- Ring slots (world and number) last written by a party that may ask for no system image (R73, R380). -/
  tenantSlots : List (Nat × Nat) := []
  -- host side
  queues : List Queue := []
  /-- The queue that the front end served last (R284). -/
  lastQueue : Nat := 255
  vdevs : List Vdev := []
  msix : List MsixVec := []
  out : List HostOut := []
  log : FaultLog := {}
  dbgen : BitVec 64 := 0
  stopLog : List StopEntry := []
  pod : Pod := {}
  tray : Tray := {}
  /-- Die-to-die ports that are down (R452), by die and local index (Table SEC.4). -/
  downPorts : List (Nat × Nat) := []
  retraining : List LinkId := []
  podBarriers : Nat := 64
  -- security
  worlds : List World := []
  box : Mailbox := {}
  ownership : Bool := true
  secUp : Bool := true
  stage2 : List (Nat × Nat × Nat) := []
  owners : List PageOwner := []
  scrub : List Nat := []
  /-- The next page of each die that no one has named since cold reset and the Plough has not scrubbed. -/
  fresh : List (Nat × Nat) := []
  /-- Worlds to be torn down when their tasks have ended (R437), and worlds torn down whose keys wait for the Plough. -/
  condemned : List Nat := []
  dying : List Nat := []
  draws : Nat := 0
  spdm : Spdm := {}
  fw : List (FwUnit × Fw) := []
  activation : Option Activation := .none
  fwStop : Bool := false
  -- management and reliability
  session : Session := {}
  life : Life := {}
  lifeSaved : Life := {}
  sites : List SiteCount := []
  sitesSaved : List SiteCount := []
  retire : List Retire := []
  /-- What is acted on at the next cold reset though the full list has no entry for it (R447). -/
  unlisted : List Retire := []
  pendSel : BitVec 12 := 0
  retiredPages : List Nat := []
  retiredWays : List Site := []
  sparePorts : List (Nat × Nat) := []
  ploughDown : List Nat := []
  /-- Spare rows used or to be used: structure class, core, bank (R446); dies kept out of DIES (R446, class 13). -/
  spares : List (Nat × Nat × Nat) := []
  diesOut : List Nat := []
  /-- The powered hours committed before the last reset (R445). -/
  poweredBase : Nat := 0
  deadlinePast : Bool := false
  resends : List (PacketId × Nat) := []
  /-- Packets lost (R450). -/
  lost : List PacketId := []
  -- travelling mode
  pins : List Pin := []
  sleds : List Sled := []
  deriving DecidableEq, Repr, Inhabited

/-- No instruction of this model stops the machine with a fault: every failure that the spec describes is a trap entry,
a halt of the warp, a halted queue or a refusal code, which are next states. -/
inductive Fault where
  deriving DecidableEq, Repr

/-- The reasons for which a step has no meaning. -/
inductive Refusal where
  /-- Raised by an arm of `exec` that has no meaning yet, by the instruction's name; safe. -/
  | notModelled (mnemonic : String)
  deriving DecidableEq, Repr

/-- The state after a cold reset: reduced service (R365), ownership mode (R340), every table at the reset values of its
registers, no work. (Log 6: DESIGN CHOICE, unsafe; 7: DESIGN CHOICE, unsafe; 128: DESIGN CHOICE, unsafe.) -/
def State.reset : State :=
  { tasks := List.replicate 512 {}
    queues := List.replicate 256 {}
    vdevs := List.replicate 64 {}
    worlds := List.replicate 64 {}
    stopLog := List.replicate 32 {}
    pod := { route := List.replicate 64 0 }
    fw := [(.securityCore, {}), (.frontEnd, {}), (.admissionUnit, {}), (.management, {}), (.training, {})] }

end Sys2Proof.Machine
end

