-- ==== Sys2Proof/Machine/Bits.lean ====
section
/-! DEFINITION. Bit fields, lane masks, rows of lanes, and little-endian bytes (R1, R2, Table SCOPE.3). -/

namespace Sys2Proof.Machine

open Sys2Proof

/-! ## Lanes and masks -/

/-- The 32 lane numbers (R24). -/
def laneIdx : List Nat :=
  [0, 1, 2, 3, 4, 5, 6, 7, 8, 9, 10, 11, 12, 13, 14, 15, 16, 17, 18, 19, 20, 21, 22, 23, 24, 25, 26, 27, 28, 29, 30, 31]

/-- Whether lane `l` is in a lane set. -/
def inMask (m : Word) (l : Nat) : Bool := m.getLsbD l

/-- The lane set of the lanes that satisfy `f`. -/
def maskOf (f : Nat → Bool) : Word :=
  laneIdx.foldl (fun m l => if f l then m ||| BitVec.ofNat 32 (2 ^ l) else m) 0#32

/-- The lanes of a set, lowest first. -/
def lanesOf (m : Word) : List Nat := laneIdx.filter (inMask m)

/-- The lowest lane of a set; 0 for the empty set. -/
def lowestLane (m : Word) : Nat := (lanesOf m).headD 0

/-- How many lanes a set holds. -/
def laneCount (m : Word) : Nat := (lanesOf m).length

/-! ## Rows -/

/-- The row whose lane `l` is `f l`. -/
def rowOf (f : Nat → Lane) : Row := laneIdx.map f

/-- Lane `l` of a row. -/
def laneAt (r : Row) (l : Nat) : Lane := r.getD l {}

/-- The 32 bits of lane `l`. -/
def valAt (r : Row) (l : Nat) : Word := (laneAt r l).val

/-- The poison side bit of lane `l`. -/
def poisonAt (r : Row) (l : Nat) : Bool := (laneAt r l).poison

/-- A clean lane. -/
def clean (v : Word) : Lane := { val := v, poison := false }

/-- The poison pattern (R373): 0x7FFF_FFFF with the side bit set. -/
def poisoned : Lane := { val := 0x7FFFFFFF#32, poison := true }

/-- The row of zeros. -/
def zeroRow : Row := rowOf fun _ => {}

/-- The same word in every lane. -/
def splat (v : Word) : Row := rowOf fun _ => clean v

/-- The lanes of a set in which a row is poisoned. -/
def poisonMask (r : Row) (m : Word) : Word := maskOf fun l => inMask m l && poisonAt r l

/-! ## Numbers -/

/-- The `n` bits of a natural number from bit `lo`. -/
def bitsOf (v lo n : Nat) : Nat := v / 2 ^ lo % 2 ^ n

/-- A flag as a bit. -/
def bit (b : Bool) : Nat := if b then 1 else 0

/-- Sign extension of the low `n` bits (Table SCOPE.3). -/
def signExt (v n : Nat) : Int :=
  let u := v % 2 ^ n
  if u < 2 ^ (n - 1) then (u : Int) else (u : Int) - (2 ^ n : Nat)

/-- An integer modulo 2^32. -/
def wordOf (x : Int) : Word := BitVec.ofInt 32 x

/-- An integer modulo 2^64. -/
def dwordOf (x : Int) : DWord := BitVec.ofInt 64 x

/-- The doubleword of a register pair: the even register is the low word (R177). -/
def pairOf (lo hi : Word) : DWord := hi ++ lo

/-- The low word of a doubleword. -/
def loWord (d : DWord) : Word := d.extractLsb' 0 32

/-- The high word of a doubleword. -/
def hiWord (d : DWord) : Word := d.extractLsb' 32 32

/-- Ceiling division. -/
def ceilDiv (a b : Nat) : Nat := (a + b - 1) / b

/-- `a` rounded up to a multiple of `b`. -/
def roundUp (a b : Nat) : Nat := ceilDiv a b * b

/-! ## Bytes -/

/-- The `n` bytes of a number, lowest first (R2). -/
def toBytes : Nat → Nat → List Byte
  | 0, _ => []
  | n + 1, v => BitVec.ofNat 8 v :: toBytes n (v / 256)

/-- The number of a little-endian byte list. -/
def ofBytes : List Byte → Nat
  | [] => 0
  | b :: bs => b.toNat + 256 * ofBytes bs

/-- The word at byte `i` of a byte list. -/
def wordIn (bs : List Byte) (i : Nat) : Word := BitVec.ofNat 32 (ofBytes ((bs.drop i).take 4))

/-- The doubleword at byte `i` of a byte list. -/
def dwordIn (bs : List Byte) (i : Nat) : DWord := BitVec.ofNat 64 (ofBytes ((bs.drop i).take 8))

/-! ## Sparse tables -/

/-- The value a sparse table lists under a key, or the default. -/
def look {α : Type} (t : List (Nat × α)) (k : Nat) (d : α) : α :=
  match t.find? (fun e => e.1 == k) with
  | some e => e.2
  | none => d

/-- A sparse table with a key's value replaced or added. -/
def put {α : Type} (t : List (Nat × α)) (k : Nat) (v : α) : List (Nat × α) :=
  (k, v) :: t.filter (fun e => e.1 != k)

/-- Replace the first entry that satisfies `f`. -/
def updateFirst {α : Type} (f : α → Bool) (g : α → α) : List α → List α
  | [] => []
  | x :: xs => if f x then g x :: xs else x :: updateFirst f g xs

/-- Replace every entry that satisfies `f`. -/
def updateAll {α : Type} (f : α → Bool) (g : α → α) (xs : List α) : List α :=
  xs.map fun x => if f x then g x else x

/-- The position of the first entry that satisfies `f`; the length if there is none. -/
def indexWhere {α : Type} (f : α → Bool) : List α → Nat
  | [] => 0
  | x :: xs => if f x then 0 else indexWhere f xs + 1

/-- The sum of a list of numbers. -/
def total (xs : List Nat) : Nat := xs.foldl (· + ·) 0

/-- The largest of a list of numbers, 0 for the empty list. -/
def largest (xs : List Nat) : Nat := xs.foldl max 0

/-- The least number of `lo .. lo + n - 1` that satisfies `f`. -/
def leastFrom (f : Nat → Bool) (lo : Nat) : Nat → Option Nat
  | 0 => none
  | n + 1 => if f lo then some lo else leastFrom f (lo + 1) n

/-- The first entry whose score is least. -/
def argMin {α : Type} (score : α → Nat) : List α → Option α
  | [] => none
  | x :: xs =>
    match argMin score xs with
    | none => some x
    | some y => if score y < score x then some y else some x

end Sys2Proof.Machine
end

