-- ==== Sys2Proof/Machine/Bytes.lean ====
section
/-! DEFINITION. The storage of Memory byte by byte and chunk by chunk, with the memory poison code of each 4-byte word
(R70, R373).  The canonical form (addresses strictly rising, no byte equal to 0) makes equal contents equal data. -/

namespace Sys2Proof.Machine

open Sys2Proof

/-- The byte at an address; an unlisted address reads 0 (R70). -/
def cellGet : List Host.Cell → Nat → Byte
  | [], _ => 0#8
  | (x, v) :: rest, a => if a = x then v else cellGet rest a

/-- The list with one byte written, in canonical form. -/
def cellSet : List Host.Cell → Nat → Byte → List Host.Cell
  | [], a, b => if b = 0#8 then [] else [(a, b)]
  | (x, v) :: rest, a, b =>
    if a < x then (if b = 0#8 then (x, v) :: rest else (a, b) :: (x, v) :: rest)
    else if a = x then (if b = 0#8 then rest else (a, b) :: rest)
    else (x, v) :: cellSet rest a b

/-- Canonical cells from address `lo` upward. -/
def cellsOk : Nat → List Host.Cell → Bool
  | _, [] => true
  | lo, (x, v) :: rest => decide (lo ≤ x) && v != 0#8 && cellsOk (x + 1) rest

/-- A strictly rising list with a number added. -/
def insertNat : List Nat → Nat → List Nat
  | [], a => [a]
  | x :: rest, a => if a < x then a :: x :: rest else if a = x then x :: rest else x :: insertNat rest a

/-- Strictly rising numbers from `lo` upward. -/
def risingOk : Nat → List Nat → Bool
  | _, [] => true
  | lo, x :: rest => decide (lo ≤ x) && risingOk (x + 1) rest

/-- The canonical form of memory. -/
def Memory.wf (m : Memory) : Bool := cellsOk 0 m.cells && risingOk 0 m.poison

/-- One byte of memory. (Log 7: DESIGN CHOICE, unsafe.) -/
def Memory.get (m : Memory) (a : Nat) : Byte := cellGet m.cells a

/-- Memory with one byte written; the poison code of its word is left alone. -/
def Memory.set (m : Memory) (a : Nat) (b : Byte) : Memory := { m with cells := cellSet m.cells a b }

/-- The 4-byte word that holds an address. -/
def wordBase (a : Nat) : Nat := a / 4 * 4

/-- The 128-byte line that holds an address. -/
def lineBase (a : Nat) : Nat := a / 128 * 128

/-- Whether the word that holds an address carries the memory poison code. -/
def Memory.bad (m : Memory) (a : Nat) : Bool := m.poison.contains (wordBase a)

/-- The addresses of the words that `n` bytes from `a` touch. -/
def wordsTouched (a n : Nat) : List Nat :=
  if n = 0 then [] else (List.range ((a + n - 1) / 4 - a / 4 + 1)).map fun i => (a / 4 + i) * 4

/-- `n` bytes from `a`. -/
def Memory.read (m : Memory) (a n : Nat) : List Byte := (List.range n).map fun i => m.get (a + i)

/-- Whether any of `n` bytes from `a` lies in a poisoned word. -/
def Memory.readBad (m : Memory) (a n : Nat) : Bool := (wordsTouched a n).any fun w => m.bad w

/-- Bytes written from `a` upward. -/
def Memory.setBytes (m : Memory) (a : Nat) : List Byte → Memory
  | [] => m
  | b :: bs => (m.set a b).setBytes (a + 1) bs

/-- The poison code of one word set or cleared. -/
def Memory.mark (m : Memory) (w : Nat) (p : Bool) : Memory :=
  { m with poison := if p then insertNat m.poison w else m.poison.filter fun x => x != w }

/-- The poison code of each of some words set or cleared. -/
def Memory.markAll (m : Memory) (p : Bool) : List Nat → Memory
  | [] => m
  | w :: ws => (m.mark w p).markAll p ws

/-- The words that `n` bytes from `a` cover wholly. -/
def wordsCovered (a n : Nat) : List Nat := (wordsTouched a n).filter fun w => decide (a ≤ w) && decide (w + 4 ≤ a + n)

/-- A write of bytes under R373: poisoned data marks every word it touches; clean data cleans the words it covers
wholly and leaves the code of the others. -/
def Memory.write (m : Memory) (a : Nat) (bs : List Byte) (p : Bool) : Memory :=
  if p then m.markAll true (wordsTouched a bs.length)
  else (m.setBytes a bs).markAll false (wordsCovered a bs.length)

/-- The cells and poison of the `n` bytes from `a` (a multiple of 4), keyed by their distance from it: the bytes where
`keep` holds, and the poison of the words with at least one such byte. -/
def Memory.slice (m : Memory) (a n : Nat) (keep : Nat → Bool) : Memory :=
  { cells := (m.cells.filter fun c => decide (a ≤ c.1) && decide (c.1 < a + n) && keep (c.1 - a)).map fun c => (c.1 - a, c.2)
    poison := (m.poison.filter fun w => decide (a ≤ w) && decide (w < a + n) &&
      (List.range 4).any fun j => keep (w - a + j)).map fun w => w - a }

/-- Memory with the bytes from `a` set to zero and clean. -/
def Memory.clear (m : Memory) (a n : Nat) : Memory :=
  { cells := m.cells.filter fun c => !(decide (a ≤ c.1) && decide (c.1 < a + n))
    poison := m.poison.filter fun w => !(decide (a ≤ w) && decide (w < a + n)) }

/-- `n` bytes of another memory, poison with them, put at a place (a multiple of 4, as `src`). -/
def Memory.paste (m from' : Memory) (src n dst : Nat) : Memory :=
  let x := from'.slice src n fun _ => true
  let m := m.clear dst n
  { cells := x.cells.foldl (fun cs c => cellSet cs (dst + c.1) c.2) m.cells
    poison := x.poison.foldl (fun ps w => insertNat ps (dst + w)) m.poison }

/-- The word at an address as a lane: the poison pattern where the word is poisoned (R373). -/
def Memory.lane (m : Memory) (a : Nat) : Lane :=
  if m.bad a then poisoned else clean (BitVec.ofNat 32 (ofBytes (m.read a 4)))

end Sys2Proof.Machine
end

