-- ==== Sys2Proof/Machine/Ring.lean ====
section
/-! DEFINITION. The die ring with its chords (R10 to R12): ports, links, and the routes of packets from die to die (R452). -/

namespace Sys2Proof.Machine

open Sys2Proof

/-- The die of a core (R10). -/
def dieOf (core : Nat) : Nat := core / 32

/-- The hops along a row between two columns: each a die with the local index of the port it leaves by (Table SEC.4). -/
def rowHops (row a b : Nat) : List (Nat × Nat) :=
  if a ≤ b then (List.range (b - a)).map fun i => (row * 16 + a + i, 24)
  else (List.range (a - b)).map fun i => (row * 16 + a - i, 25)

/-- Whether a port joins another die: the west ports of column 0 and the east ports of column 15 do not (R11). -/
def portJoined (h : Nat × Nat) : Bool :=
  decide (h.1 < 32) && (h.2 == 26 || (h.2 == 24 && h.1 % 16 != 15) || (h.2 == 25 && h.1 % 16 != 0))

/-- The port at the other end of a die-to-die link; a port that joins nothing is its own end. -/
def peerPort (h : Nat × Nat) : Nat × Nat :=
  if !portJoined h then h
  else if h.2 == 24 then (h.1 + 1, 25) else if h.2 == 25 then (h.1 - 1, 24) else ((h.1 + 16) % 32, 26)

/-- The column-first route (R12). -/
def firstPath (src dst : Nat) : List (Nat × Nat) :=
  rowHops (src / 16) (src % 16) (dst % 16) ++ if src / 16 == dst / 16 then [] else [(src / 16 * 16 + dst % 16, 26)]

/-- The route along the other row (R452). -/
def otherPath (src dst : Nat) : List (Nat × Nat) :=
  (src, 26) :: rowHops (1 - src / 16) (src % 16) (dst % 16) ++
    if src / 16 == dst / 16 then [((1 - src / 16) * 16 + dst % 16, 26)] else []

/-- Whether a hop's link is up. -/
def hopUp (s : State) (h : Nat × Nat) : Bool := !s.downPorts.contains h && !s.downPorts.contains (peerPort h)

/-- The route that a packet takes from die to die; none where both need a downed link. -/
def pathTo (s : State) (src dst : Nat) : Option (List (Nat × Nat)) :=
  if (firstPath src dst).all (hopUp s) then some (firstPath src dst)
  else if (otherPath src dst).all (hopUp s) then some (otherPath src dst)
  else none

/-- Whether a request and its reply both have a route. -/
def reaches (s : State) (a b : Nat) : Bool :=
  s.downPorts.isEmpty || ((pathTo s a b).isSome && (pathTo s b a).isSome)

end Sys2Proof.Machine
end

