-- ==== Sys2Proof/Machine/Access.lean ====
section
/-! DEFINITION. How an address reaches storage: the lookups of teams, tasks and regions, two-stage translation
(R53, R54, R408), windows (R57 to R59, R415), the L1 and the homes (R62 to R65, R462), the write-combining buffer (R208)
and the release and acquire actions of R211. -/

namespace Sys2Proof.Machine

open Sys2Proof

/-! ## Who works for whom -/

/-- The team with a number. -/
def teamById (s : State) (id : Nat) : Team := (s.teams.find? fun t => t.id == id).getD {}

/-- The task in a slot of the task table. -/
def taskAt (s : State) (slot : Nat) : Task := s.tasks.getD slot {}

/-- The launch record a task runs (an empty one for a job). -/
def Task.launch (t : Task) : Launch :=
  match t.body with
  | .launch l => l
  | .job _ => {}

/-- The team of a warp. -/
def teamOf (s : State) (w : Warp) : Team := teamById s w.team

/-- The task of a warp. -/
def taskOf (s : State) (w : Warp) : Task := taskAt s (teamOf s w).task

/-- The launch record of a warp. -/
def launchOf (s : State) (w : Warp) : Launch := (taskOf s w).launch

/-- The entry that a record names. -/
def entryFor (s : State) (world index : Nat) : Option Entry := s.entries.find? fun e => e.world == world && e.index == index

/-- The declaration of the kernel that a warp runs (R77), whose S and A bound its checks; of a launch whose entry the table lacks,
which no accepted launch is, the sizes of its record. -/
def declOf (s : State) (w : Warp) : KernelDecl :=
  let l := launchOf s w
  match entryFor s (taskOf s w).world l.entry with
  | some e => e.decl
  | none => { scratch := l.scratch, accb := l.accb }

/-- Warps per team of a launch. -/
def Launch.warps (l : Launch) : Nat := l.nVec + l.nCopy + l.nMat

/-- Declared registers in whole granules of 8 (R292). -/
def Launch.regGranules (l : Launch) : Nat := roundUp l.regs 8

/-- The linear index of team coordinates (R288). -/
def Launch.linear (l : Launch) (x y z : Nat) : Nat := x + l.gridX * (y + l.gridY * z)

/-- The number of teams of a grid. -/
def Launch.grid (l : Launch) : Nat := l.gridX * l.gridY * l.gridZ

/-- Region K of a launch. -/
def Launch.region (l : Launch) (k : Nat) : Region := l.regions.getD k {}

/-- The base of region K for one warp: its own instance for class private (R288), the aperture for a window (R57). -/
def regionBase (l : Launch) (t : Team) (wid k : Nat) : Nat :=
  let r := l.region k
  if 3 ≤ r.cls then 0x1FF000000000000 + k * 0x800000
  else if r.cls == 2 then r.base.toNat + (t.index * l.warps + wid) * r.len
  else r.base.toNat

/-- Whether a virtual address lies in region K of a warp. -/
def inRegion (l : Launch) (t : Team) (wid k va : Nat) : Bool :=
  let r := l.region k
  r.rights != 0 && decide (r.cls < 3) && decide (regionBase l t wid k ≤ va) && decide (va < regionBase l t wid k + r.len)

/-- The tag an L1 line takes from the class of the region the address lies in (Table MEM.3); an address in regions of several
classes counts as private before read-only-stable before any other. (Log 144: DESIGN CHOICE, unsafe.) -/
def lineKindAt (s : State) (w : Warp) (va : Nat) : LineKind :=
  let l := launchOf s w
  let t := teamOf s w
  let hit := fun c => (List.range 16).any fun k => (l.region k).cls == c && inRegion l t w.wid k va
  if hit 2 then .priv else if hit 1 then .ro else .norm

/-- The quad of a core (R10). -/
def quadOf (core : Nat) : Nat := core / 4

/-! ## The machine-physical map -/

/-- Bytes of HBM that back a die's aperture (R51). -/
def hbmBytes : Nat := 63999967232

/-- Whether a machine-physical address is backed by HBM of the pod (Table MEM.1); a die outside DIES backs nothing
once the training deadline has passed (R454). (Log 136: DESIGN CHOICE, unsafe.) -/
def hbmBacked (s : State) (a : Nat) : Bool :=
  decide (a < 2 ^ 47) && decide (a % 2 ^ 36 < hbmBytes) &&
    (!(s.deadlinePast && bitsOf a 41 6 == s.pod.podIdx) || s.pod.dies.getLsbD (bitsOf a 36 5))

/-- Whether an address is homed on another package of the pod (R66). (Log 136: DESIGN CHOICE, unsafe.) -/
def podRemote (s : State) (a : Nat) : Bool := decide (a < 2 ^ 47) && bitsOf a 41 6 != s.pod.podIdx

/-- The window of a core (R56). -/
def windowBase (core : Nat) : Nat := 0xF000000000000 + core * 0x800000

/-- The storage address of a byte of a core's accumulator store. -/
def accAddr (core off : Nat) : Nat := windowBase core + off

/-- The storage address of a byte of a core's scratchpad. -/
def scrAddr (core off : Nat) : Nat := windowBase core + 0x400000 + off

/-- Whether an address lies in a backed part of a core's window (R51, R56). -/
def windowed (a : Nat) : Bool :=
  decide (0xF000000000000 ≤ a) && decide (a < 0xF000200000000) && decide (a % 0x800000 < 0x4C0000)

/-- The core whose window an address lies in. -/
def windowCore (a : Nat) : Nat := (a - 0xF000000000000) / 0x800000

/-- The die that an address is served on: of HBM its home (R52), of a window the die of its core (R59). -/
def homeDie (a : Nat) : Nat := if windowed a then dieOf (windowCore a) else bitsOf a 36 5

/-- The slice of that die that serves it: of HBM the home slice (R52), of a window the slice that reflects it (R59). -/
def homeSlice (a : Nat) : Nat := if windowed a then windowCore a / 2 % 16 else bitsOf a 7 4

/-- Whether an address lies in the package configuration block (R19). -/
def inBlock (a : Nat) : Bool := decide (0xF000400000000 ≤ a) && decide (a < 0xF000400002000)

/-- The ownership byte of a machine page (Table MEM.4). -/
def ownerOf (s : State) (page : Nat) : PageOwner :=
  (s.owners.find? fun o => o.page == page).getD { page := page, sealed := false, clean := false, owner := 0 }

/-- The seal state of a machine page (Table ADM.2). (Log 97: DEDUCED, unsafe.) -/
def pageState (s : State) (page : Nat) : PageState := look s.pages page .opened

/-! ## Translation -/

/-- Why an access is refused: class, code, INFO and RES of Table XLTF.1 (or Table REL.3 for a poisoned table entry). -/
structure Deny where
  cls : Nat := 3
  code : Nat
  info : Nat := 0
  res : Bool := true
  deriving DecidableEq, Repr, Inhabited

/-- The second stage (R53, R338), or in ownership mode the identity with the check of R69 and R414; no world owns a page of a
window. -/
def stage2 (s : State) (world a : Nat) : Except Deny Nat :=
  if s.ownership then
    if inBlock a then .ok a
    else if !hbmBacked s a && !windowed a then .error { code := 0x008, res := false }
    else if !hbmBacked s a || (ownerOf s (a / 65536)).owner != world then .error { code := 0x009, res := false }
    else .ok a
  else
    match s.stage2.find? fun e => e.1 == world && e.2.1 == a / 65536 with
    | some e => .ok (e.2.2 * 65536 + a % 65536)
    | none => .error { code := 0x007 }

/-- The page that holds the configuration block (R19). -/
def blockPage : Nat := 0xF00040000

/-- The machine address of a leaf's page: the block's page is named as it stands in both modes (R19), every other by the second stage. (Log 120: DESIGN CHOICE, unsafe.) -/
def leafPlace (s : State) (world page : Nat) : Except Deny Nat :=
  if page / 65536 == blockPage then .ok page else stage2 s world page

/-- Why an access to a machine address of the block's page is refused: only system-role kernels read the block (R19), and nothing backs the rest of
the page. (Log 120: DESIGN CHOICE, unsafe.) -/
def blockDeny (s : State) (system : Bool) (a : Nat) : Option Deny :=
  if a / 65536 == blockPage && !(inBlock a && system) then
    some (if !s.ownership then { code := 0x007 } else if inBlock a then { code := 0x009, res := false } else { code := 0x008, res := false })
  else none

/-- Whether the accesses of a warp are a system-role kernel's: its own, or its handler's (R369). -/
def Warp.system (w : Warp) : Bool := w.role == .system || w.served.isSome

/-- A stage-one leaf as a walk finds it: the world-physical address of the 64 KiB page, the rights, and whether it lies in a frame that, in ownership
mode, is not backed. -/
structure Leaf where
  page : Nat
  r : Bool
  w : Bool
  x : Bool
  unbacked : Bool := false
  deriving DecidableEq, Repr, Inhabited

/-- The levels of a walk: number, lowest virtual address bit, index width (R54). -/
def walkLevels : List (Nat × Nat × Nat) := [(0, 47, 10), (1, 34, 13), (2, 21, 13), (3, 16, 5)]

/-- Whether a valid stage-one entry is malformed at a level (R408). -/
def malformed (level e : Nat) : Bool :=
  let leaf := bitsOf e 1 1 == 1
  bitsOf e 52 12 != 0 || bitsOf e 5 3 != 0 || (leaf && decide (level ≤ 1)) || (!leaf && level == 3) ||
    (leaf && level == 2 && bitsOf e 8 13 != 0) || (leaf && level == 3 && bitsOf e 8 8 != 0)

/-- Whether a level-2 leaf names, in ownership mode, a 2 MiB frame of HBM that is not wholly backed (R51). -/
def frameUnbacked (s : State) (level page : Nat) : Bool :=
  s.ownership && level == 2 && !inBlock page && !windowed page && !(hbmBacked s page && hbmBacked s (page + 0x1FFFFF))

/-- The stage-one walk from a table (R54): entries are read at their homes (R339). -/
def walkFrom (s : State) (world va : Nat) : List (Nat × Nat × Nat) → Nat → Except Deny Leaf
  | [], _ => .error { code := 0x002, info := 3 }
  | (level, lo, width) :: rest, table =>
    match stage2 s world (table + 8 * bitsOf va lo width) with
    | .error d => .error d
    | .ok pa =>
      if s.mem.readBad pa 8 then .error { cls := 5, code := 0x008, info := 9 + 256 * level, res := false }
      else
        let e := ofBytes (s.mem.read pa 8)
        if bitsOf e 0 1 == 0 then .error { code := 0x001, info := level }
        else if malformed level e then .error { code := 0x002, info := level }
        else
          let next := bitsOf e 8 44 * 256
          if bitsOf e 1 1 == 1 then
            .ok { page := next + bitsOf va 16 (lo - 16) * 65536
                  r := bitsOf e 2 1 == 1, w := bitsOf e 3 1 == 1, x := bitsOf e 4 1 == 1, unbacked := frameUnbacked s level next }
          else walkFrom s world va rest next

/-- Stage one's walk of a virtual page of a world, up to its leaf. -/
def walkLeaf (s : State) (world va : Nat) : Except Deny Leaf := walkFrom s world va walkLevels (s.worlds.getD world {}).root.toNat

/-- A whole walk of a virtual page of a world: the machine frame and the stage-one rights. -/
def walk (s : State) (world va : Nat) : Except Deny (Nat × Leaf) :=
  match walkLeaf s world va with
  | .error d => .error d
  | .ok leaf =>
    if leaf.unbacked then .error { code := 0x008, res := false }
    else
      match leafPlace s world leaf.page with
      | .error d => .error d
      | .ok pa => .ok (pa, leaf)

/-- The translation a core's TLBs hold for a page, L1 before L2 (R55). -/
def tlbFind (s : State) (core world page : Nat) : Option TlbEntry :=
  (s.tlb.find? fun e => !e.quad && e.unit == core && e.world == world && e.page == page).orElse fun _ =>
    s.tlb.find? fun e => e.quad && e.unit == quadOf core && e.world == world && e.page == page

/-- A page's frame and rights, from a TLB or by a walk (R410: a retry walks again). (Log 120: DESIGN CHOICE, unsafe.) -/
def pageFor (s : State) (core world va : Nat) : Except Deny TlbEntry :=
  match tlbFind s core world (va / 65536) with
  | some e => .ok e
  | none =>
    match walk s world va with
    | .error d => .error d
    | .ok (frame, leaf) =>
      .ok { quad := false, unit := core, world := world, page := va / 65536, frame := frame / 65536 * 65536
            r := leaf.r, w := leaf.w, x := leaf.x }

/-- The rights that stage one gives a page, where its walk reaches a leaf, whether or not the second stage has the page. -/
def leafOf (s : State) (core world va : Nat) : Option Leaf :=
  match tlbFind s core world (va / 65536) with
  | some e => some { page := e.frame, r := e.r, w := e.w, x := e.x }
  | none => (walkLeaf s world va).toOption

/-- The TLBs after a page has been used by a core: a successful walk fills both levels (R410). (Log 10: DESIGN CHOICE, safe; 11: DESIGN CHOICE, safe.) -/
def tlbFill (s : State) (e : TlbEntry) (core : Nat) : State :=
  let l1 : TlbEntry := { e with quad := false, unit := core }
  let l2 : TlbEntry := { e with quad := true, unit := quadOf core }
  let one := if s.tlb.contains l1 then s.tlb else l1 :: s.tlb
  { s with tlb := if one.contains l2 then one else l2 :: one }

/-- What an access does to the bytes it names. -/
inductive Need where
  | read
  | write
  | both
  deriving DecidableEq, Repr, Inhabited

def Need.reads (n : Need) : Bool := n != .write
def Need.writes (n : Need) : Bool := n != .read

/-- In ownership mode, the check of OWNER that every access meets, whatever a TLB holds (R69, R414). -/
def ownerDeny (s : State) (e : TlbEntry) : Option Deny :=
  if s.ownership && !inBlock e.frame && (ownerOf s (e.frame / 65536)).owner != e.world then some { code := 0x009, res := false } else none

/-- Why the rights of a page refuse an access; an atomic asks for W alone (Table MEM.2). -/
def rightsDeny (r w : Bool) (need : Need) : Option Deny :=
  if need.reads && !r then some { code := 0x003 } else if need.writes && !w then some { code := 0x004 } else none

/-- Seal and ownership of a translated page (R409, R414), lowest code first. -/
def sealDeny (s : State) (e : TlbEntry) (need : Need) : Option Deny :=
  if need.writes then
    match pageState s (e.frame / 65536) with
    | .sealed => some { code := 0x005, info := 1 }
    | .checking => some { code := 0x005, info := 2 }
    | .opened => ownerDeny s e
  else ownerDeny s e

/-- The translation of one virtual address outside the windows: stage one's rights count before the second stage, whose codes are higher (R407). (Log 10: DESIGN CHOICE, safe.) -/
def translate (s : State) (core world va : Nat) (need : Need) : Except Deny Nat :=
  match (leafOf s core world va).bind fun x => rightsDeny x.r x.w need with
  | some d => .error d
  | none =>
    match pageFor s core world va with
    | .error d => .error d
    | .ok e =>
      match sealDeny s e need with
      | some d => .error d
      | none => .ok (e.frame + va % 65536)

/-! ## Windows -/

/-- The first address of the window aperture (R53). (Log 31: DEDUCED, unsafe.) -/
def aperture : Nat := 0x1FF000000000000

/-- Bytes of one team's allocation of a window kind (R57): accumulators and scratchpad in whole granules of 4 KiB (R61), and the
declared registers of its warps. -/
def windowLen (l : Launch) (cls : Nat) : Nat :=
  if cls == 3 then roundUp l.accb 4096 else if cls == 4 then roundUp l.scratch 4096 else l.warps * l.regs * 128

/-- Where an access lands: memory by its machine-physical address, window storage, or a lane of a register of a
resident warp reached through a register window. -/
inductive Spot where
  | mem (a : Nat)
  | store (a : Nat)
  | reg (team wid reg off : Nat)
  deriving DecidableEq, Repr, Inhabited

/-- The target team of window region K of a team (R57, R58); a partner that has ended is none. (Log 59: DESIGN CHOICE, safe; 145: DESIGN CHOICE, unsafe.) -/
def windowTarget (s : State) (t : Team) (k : Nat) : Option Team :=
  let l := (taskAt s t.task).launch
  let r := l.region k
  if r.self then some t
  else s.teams.find? fun u => u.task == t.task && u.copy == t.copy && !u.ended &&
    u.x == bitsOf r.base.toNat 0 16 && u.y == bitsOf r.base.toNat 16 16 && u.z == bitsOf r.base.toNat 32 16

/-- The decoding of an aperture address (R59, R415); `atomic` accesses are refused (code 0x011). -/
def windowSpot (s : State) (w : Warp) (va : Nat) (need : Need) (atomic : Bool) : Except Deny Spot :=
  let l := launchOf s w
  let t := teamOf s w
  let k := if aperture + 0x8000000 ≤ va then 16 else bitsOf (va - aperture) 23 4
  let o := (va - aperture) % 0x800000
  let r := l.region k
  if k == 16 then .error { code := 0x010, info := 16, res := false }
  else if r.rights == 0 || decide (r.cls < 3) then .error { code := 0x010, info := k, res := false }
  else if need.reads && r.rights % 2 == 0 then .error { code := 0x003 }
  else if need.writes && decide (r.rights < 2) then .error { code := 0x004 }
  else if decide (windowLen l r.cls ≤ o) then .error { code := 0x010, info := k, res := false }
  else if atomic then .error { code := 0x011, res := false }
  else
    match windowTarget s t k with
    | none => .error { code := 0x010, info := k, res := false }
    | some u =>
      if r.cls == 3 then .ok (.store (accAddr u.core (u.accBase + o)))
      else if r.cls == 4 then .ok (.store (scrAddr u.core (u.scrBase + o)))
      else .ok (.reg u.id (o / 128 / l.regs) (o / 128 % l.regs) (o % 128))

/-- The spot of one lane's access, or why it is refused (R409). -/
def spotOf (s : State) (w : Warp) (va : Nat) (need : Need) (atomic : Bool) : Except Deny Spot :=
  if 2 ^ 57 ≤ va then .error { code := 0x006, res := false }
  else if aperture ≤ va then windowSpot s w va need atomic
  else
    match translate s w.core (launchOf s w).world va need with
    | .error d => .error d
    | .ok a => match blockDeny s w.system a with
      | some d => .error d
      | none => .ok (.mem a)

/-! ## The package configuration block (R19 to R22) -/

/-- The configuration word of a core (R21). -/
def coreCfg (s : State) (core : Nat) : CoreCfg := look s.cfg.core core {}

/-- A core's configuration word (Table DEV.5). -/
def CoreCfg.word (c : CoreCfg) : Word :=
  if !c.present then 0
  else BitVec.ofNat 32 (2 ^ 31 + c.spareRows % 4 * 2 ^ 24 + c.passes % 8 * 2 ^ 21 + c.good % 32 * 2 ^ 16 + c.laneMap.toNat)

/-- The word of the block at an offset (Table DEV.4). -/
def blockWord (s : State) (off : Nat) : Word :=
  let c := s.cfg
  if off == 0x00 then c.part <<< 16 ||| c.step <<< 8
  else if off == 0x04 then c.cores <<< 16 ||| c.dies <<< 8 ||| c.serac
  else if off == 0x08 then c.class2 <<< 16 ||| c.class3
  else if off == 0x0C then c.class4 <<< 16
  else if off == 0x10 then c.serialLo
  else if off == 0x14 then c.serialHi
  else if decide (0x1000 ≤ off) && decide (off < 0x2000) then (coreCfg s ((off - 0x1000) / 4)).word
  else 0

/-- Some bytes of the block, as memory. -/
def blockLine (s : State) (a : Nat) : Memory :=
  (List.range 32).foldl (fun m i => m.setBytes (a + 4 * i) (toBytes 4 (blockWord s (a - 0xF000400000000 + 4 * i)).toNat)) {}

/-- What the home of a line holds. -/
def homeMem (s : State) (a : Nat) : Memory := if inBlock a then blockLine s (lineBase a) else s.mem

/-! ## Homes -/

/-- What a write of `n` bytes of a line at its home does beside the bytes: the gateway copies invalidated (R65), and the
waiters on a lock word it touches marked for waking (R220). -/
def homeNoted (s : State) (a n : Nat) : State :=
  { s with
    sharers := s.sharers.filter fun e => e.1 != lineBase a
    gateways := s.gateways.filter fun e => e.2.2 != lineBase a
    waiters := s.waiters.map fun x =>
      if decide (x.word < a + n) && decide (a < x.word + 4) && decide (0 < n) then { x with woken := true } else x }

/-- A write that reaches a home or other target storage; the configuration block discards it (R19). -/
def homeWrite (s : State) (a : Nat) (bs : List Byte) (p : Bool) : State :=
  if inBlock a then s else { homeNoted s a bs.length with mem := s.mem.write a bs p }

/-- Whether the home takes buffered bytes of a line: a page that is checked or sealed refuses every write (R75, R100), those of
stores performed before it left the open state among them. (Log 146: DEDUCED, unsafe.) -/
def homeTakes (s : State) (base : Nat) : Bool := !inBlock base && pageState s (base / 65536) == .opened

/-- The bytes a mask selects of a line, as runs written to the home, byte by byte. (Log 146: DEDUCED, unsafe.) -/
def homeWriteMask (s : State) (base : Nat) (m : BitVec 128) (d : Memory) : State :=
  let words := (List.range 32).filter fun i => homeTakes s base && (List.range 4).any fun j => m.getLsbD (4 * i + j)
  words.foldl (fun s i =>
    if d.bad (4 * i) then homeWrite s (base + 4 * i) (List.replicate 4 0#8) true
    else (List.range 4).foldl (fun (acc : State × Nat) j =>
        if m.getLsbD (4 * i + j) then
          -- a run of dirty bytes of one word is written as one write
          if acc.2 ≤ j then
            let n := ((List.range (4 - j)).takeWhile fun k => m.getLsbD (4 * i + j + k)).length
            (homeWrite acc.1 (base + 4 * i + j) (d.read (4 * i + j) n) false, j + n)
          else acc
        else acc) (s, 0) |>.1) s

/-- The gateway cache that a die's reads of a home leave through: the first port of their route (R65). -/
def gatewayPort (s : State) (die a : Nat) : Option Nat := ((pathTo s die (homeDie a)).bind (·.head?)).map (·.2)

/-- The gateway of a die holds a line read from another die of the package, and the home its sharer bit (R64, R65). -/
def noteShared (s : State) (die a : Nat) : State :=
  if homeDie a == die || podRemote s a || decide (2 ^ 47 ≤ a) then s
  else
    let line := lineBase a
    let old := look s.sharers line 0#32
    match gatewayPort s die a with
    | none => s
    | some port =>
      { s with
        sharers := put s.sharers line (old ||| BitVec.ofNat 32 (2 ^ die))
        gateways := if s.gateways.contains (die, port, line) then s.gateways else (die, port, line) :: s.gateways }

/-- The same for a core's read. -/
def noteSharer (s : State) (core a : Nat) : State := noteShared s (dieOf core) a

/-! ## L1 -/

/-- All 128 bytes of a line. -/
def allBytes : BitVec 128 := BitVec.allOnes 128

/-- The mask of `n` bytes from offset `o` of a line. -/
def byteMask (o n : Nat) : BitVec 128 := BitVec.ofNat 128 ((2 ^ n - 1) * 2 ^ o)

/-- The L1 line of a core that holds an address. -/
def l1Find (s : State) (core a : Nat) : Option L1Line :=
  s.l1.find? fun x => x.core == core && x.base == lineBase a

/-- The L1 with one line replaced or added; a set that overflows gives up a line before the next step (R463). (Log 11: DESIGN CHOICE, safe.) -/
def l1Put (s : State) (x : L1Line) : State :=
  { s with l1 := x :: s.l1.filter fun y => !(y.core == x.core && y.base == x.base) }

/-- A line's bytes taken from the core's write-combining buffer, where it holds them and the line holds none that are dirty (R204, R208). -/
def fromBuffer (s : State) (x : L1Line) (m : Memory) : Memory :=
  match s.wcb.find? fun b => b.core == x.core && b.base == x.base with
  | none => m
  | some b =>
    ((List.range 128).filter fun o => b.present.getLsbD o && !x.dirty.getLsbD o).foldl
      (fun m o => if b.data.bad o then m.mark (wordBase o) true else m.set o (b.data.get o)) m

/-- The bytes of a line that its dirty mask selects. -/
def L1Line.dirtyData (x : L1Line) : Memory :=
  { cells := x.data.cells.filter fun c => x.dirty.getLsbD c.1
    poison := x.data.poison.filter fun w => (List.range 4).any fun j => x.dirty.getLsbD (w + j) }

/-- A line fetched from its home and merged under the dirty mask (R462, R271). (Log 12: DESIGN CHOICE, safe.) -/
def l1Merge (s : State) (x : L1Line) : L1Line :=
  let fresh := fromBuffer s x ((homeMem s x.base).slice x.base 128 fun o => !x.dirty.getLsbD o)
  let mine := x.dirtyData
  let cells := mine.cells.foldl (fun cs c => cellSet cs c.1 c.2) fresh.cells
  let poison := mine.poison.foldl insertNat fresh.poison
  { x with present := allBytes, data := { cells := cells, poison := poison } }

/-- The line of a core that holds an address, fetched where an access touches absent bytes. (Log 12: DESIGN CHOICE, safe.) -/
def l1Fill (s : State) (core a n : Nat) (kind : LineKind) : State :=
  let x := (l1Find s core a).getD { core := core, base := lineBase a, kind := kind, present := 0, dirty := 0, data := {} }
  let want := byteMask (a % 128) n
  if x.present &&& want == want then s else noteSharer (l1Put s (l1Merge s x)) core a

/-- The L1 without one line. -/
def l1Drop (s : State) (core base : Nat) : State :=
  { s with l1 := s.l1.filter fun y => !(y.core == core && y.base == base) }

/-- The dirty bytes of a line written to its home; the line becomes clean, or goes where the home refuses them. -/
def lineBack (s : State) (x : L1Line) : State :=
  if homeTakes s x.base || x.dirty == 0 then l1Put (homeWriteMask s x.base x.dirty x.data) { x with dirty := 0 }
  else l1Drop s x.core x.base

/-- Every line that satisfies `f` written back. -/
def writeBack (s : State) (f : L1Line → Bool) : State :=
  (s.l1.filter fun x => f x && x.dirty != 0).foldl lineBack s

/-- A line with only its dirty bytes (R271); none if it has none. -/
def lineStale (x : L1Line) : Option L1Line :=
  if x.dirty == 0 then none
  else some { x with present := x.dirty, data := x.dirtyData }

/-- What an acquire at scope quad or wider does to a core's L1 (Table ISAM.4, R271): clean lines other than PRIV and
RO go, clean bytes of CORE lines become stale. (Log 50: DESIGN CHOICE, unsafe.) -/
def invalidateClean (s : State) (core : Nat) : State :=
  { s with l1 := s.l1.filterMap fun x => if x.core == core && x.kind == .norm then lineStale x else some x }

/-- A line of a core with bytes written: at core scope (`dirty`), or in step with a write to the home. -/
def lineWrite (x : L1Line) (o : Nat) (bs : List Byte) (p dirty : Bool) : L1Line :=
  let m := byteMask o bs.length
  let full := m ||| ((wordsTouched o bs.length).foldl (fun k w => k ||| byteMask w 4) 0#128)
  let mask := if p then full else m
  { x with present := x.present ||| mask
           dirty := if dirty then x.dirty ||| mask else x.dirty &&& ~~~mask
           data := x.data.write o bs p }

/-! ## The write-combining buffer -/

/-- One line of the write-combining buffer sent to its home; its STNT operations are performed (R208). -/
def wcbSend (s : State) (x : WcbLine) : State :=
  let s := homeWriteMask s x.base x.present x.data
  { s with wcb := s.wcb.filter fun y => !(y.core == x.core && y.base == x.base) }

/-- Every line of the buffer that satisfies `f` sent. -/
def wcbDrain (s : State) (f : WcbLine → Bool) : State := (s.wcb.filter f).foldl wcbSend s

/-- The buffer of a core drained of the line that an access touches (R208). -/
def wcbTouch (s : State) (core a n : Nat) : State :=
  wcbDrain s fun x => x.core == core && x.base == lineBase a && (x.present &&& byteMask (a % 128) n) != 0

/-- The operations whose STNT bytes the buffer still holds. -/
def stntPending (s : State) : List Nat := s.wcb.flatMap fun x => x.ops

/-! ## Accesses at a core -/

/-- Whether a word that some bytes touch, and of which a line holds only a part, carries the poison code at its home: it keeps the code under a
partial write (R373). (Log 12: DESIGN CHOICE, safe.) -/
def partBad (s : State) (x : L1Line) (o n : Nat) : Bool :=
  (wordsTouched o n).any fun w => x.present &&& byteMask w 4 != byteMask w 4 && (homeMem s x.base).bad (x.base + w)

/-- A read of `n` bytes within one word or line at core scope: the state after any fetch, the bytes, and whether any
of their words is poisoned (R206, R373). (Log 12: DESIGN CHOICE, safe.) -/
def coreRead (s : State) (core a n : Nat) (kind : LineKind) : State × List Byte × Bool :=
  let s := l1Fill (wcbTouch s core a n) core a n kind
  match l1Find s core a with
  | some x => (s, x.data.read (a % 128) n, x.data.readBad (a % 128) n || partBad s x (a % 128) n)
  | none => (s, (homeMem s a).read a n, (homeMem s a).readBad a n)

/-- The tag of a line once bytes have been written at core scope (R62, R462): PRIV in a region of class private, else CORE. -/
def LineKind.written (k : LineKind) : LineKind := if k == .priv then .priv else .norm

/-- A write at core scope (R62, R462): it allocates a line without reading it; the configuration block discards it (R19). -/
def coreWrite (s : State) (core a : Nat) (kind : LineKind) (bs : List Byte) (p : Bool) : State :=
  if inBlock a then s
  else
    let s := wcbTouch s core a bs.length
    let x := (l1Find s core a).getD { core := core, base := lineBase a, kind := kind, present := 0, dirty := 0, data := {} }
    l1Put s { lineWrite x (a % 128) bs p true with kind := kind.written }

/-- The same line with `x`'s present bytes and nothing under the others. -/
def keepPresent (x : L1Line) : L1Line :=
  { x with data := x.data.slice 0 128 fun o => x.present.getLsbD o }

/-- A line already in the L1 with the bytes of a write that goes past it updated (R62, R208); `dirty` keeps the dirty
bits as they stand. -/
def linePatch (x : L1Line) (o : Nat) (bs : List Byte) (p dirty : Bool) : L1Line :=
  let y := lineWrite x o bs p false
  keepPresent { y with present := x.present, dirty := if dirty then x.dirty else y.dirty }

/-- A core's copy of a line brought in step with bytes that its home has taken; such a line is no longer tagged RO (Table MEM.3). -/
def l1Update (s : State) (core a : Nat) (bs : List Byte) (p : Bool) : State :=
  match l1Find s core a with
  | none => s
  | some x => l1Put s { linePatch x (a % 128) bs p false with kind := x.kind.written }

/-- A write at quad scope or wider (R62): through to the home, with the bytes of a line already present updated; the
configuration block discards it (R19). -/
def throughWrite (s : State) (core a : Nat) (bs : List Byte) (p : Bool) : State :=
  if inBlock a then s else l1Update (homeWrite (wcbTouch s core a bs.length) a bs p) core a bs p

/-- The lines an access at quad scope or wider reads: their dirty bytes are written back and the line is fetched again
(R210); PRIV and RO lines are served as they stand. -/
def refresh (s : State) (core a : Nat) : State :=
  match l1Find s core a with
  | none => s
  | some x =>
    if x.kind != .norm then s
    else
      l1Drop (lineBack s x) core x.base

/-- A read at the home (R64), for engines and atomics at quad scope or wider. -/
def homeRead (s : State) (a n : Nat) : List Byte × Bool := ((homeMem s a).read a n, (homeMem s a).readBad a n)

/-! ## Release and acquire actions -/

/-- The release actions of R211 on the core's caches at a scope (codes of Table EXEC.6). -/
def releaseActs (s : State) (core scope : Nat) : State :=
  let s := if 2 ≤ scope then writeBack s fun x => x.core == core && x.kind == .norm else s
  if 4 ≤ scope then wcbDrain s fun x => x.core == core else s

/-- The acquire actions of R211 on the core's L1 at a scope. -/
def acquireActs (s : State) (core scope : Nat) : State := if 2 ≤ scope then invalidateClean s core else s

/-- A core's PRIV lines evicted, their dirty bytes written back (R62): before another task reads what its warps have stored, and before
they read what another task has written (R273). (Log 58: DESIGN CHOICE, unsafe; 184: DEDUCED, unsafe.) -/
def evictPrivate (s : State) (core : Nat) : State :=
  let s := writeBack s fun x => x.core == core && x.kind == .priv
  { s with l1 := s.l1.filter fun x => !(x.core == core && x.kind == .priv) }

/-! ## The admission ring (R73) -/

/-- The slots of a world's ring whose lap words a write touches, marked by who wrote them last: `free`, a party that may ask for a system image,
or not (R73, R106). (Log 100: DEDUCED, unsafe.) -/
def noteRing (s : State) (free : Bool) (world va n : Nat) : State :=
  let ring := (s.worlds.getD world {}).aring.toNat
  if ring == 0 || decide (va + n ≤ ring + 64) || decide (ring + 64 * 65 ≤ va) then s
  else
    let hit := (List.range 64).filter fun i =>
      let lap := ring + 64 + 64 * i + 0x38
      decide (lap < va + n) && decide (va < lap + 8)
    let rest := s.tenantSlots.filter fun x => !(x.1 == world && hit.contains x.2)
    { s with tenantSlots := if free then rest else rest ++ hit.map fun i => (world, i) }

/-- A store of a warp to its world's ring: a system-role kernel may ask for a system image. (Log 100: DEDUCED, unsafe.) -/
def noteStore (s : State) (w : Warp) (va n : Nat) : State := noteRing s (w.role == .system) (launchOf s w).world va n

end Sys2Proof.Machine
end

