-- ==== Sys2Proof/Machine/Route.lean ====
section
/-! DEFINITION. Routes: the die-to-die ports (R11, R12, R452), flow numbers (R343), the choice of a Serac link (R353), and the
packets that a link takes with it (R450, R451). -/

namespace Sys2Proof.Machine

open Sys2Proof

/-! ## The network's flow numbers (R343) -/

/-- A port number: die × 64 + local index. -/
def portNumber (die index : Nat) : Nat := die * 64 + index

/-- The flow number of a world's packets from one port to another (R343). -/
def flowNumber (world source dest : Nat) : Nat := world * 2 ^ 26 + source * 2 ^ 13 + dest

/-- The destination number of a COPYM multicast group. -/
def multicast (group : Nat) : Nat := 2 ^ 12 + group % 64

/-- The nonce of a flow's packet by its count. -/
def nonce (flow count : Nat) : Nat := flow * 2 ^ 64 + count

/-! ## Serac links (R353) -/

/-- The die that places a Serac link (R15). -/
def linkDie (k : Nat) : Nat := 2 * k

/-- The links that are up and lead toward a package. -/
def linksToward (s : State) (package : Nat) : List Nat :=
  (List.range 16).filter fun k => (s.pod.route.getD package 0).getLsbD k && s.pod.linkUp.getLsbD k

/-- The link that the packets of a flow take; none while none is up. -/
def linkOf (s : State) (package flow : Nat) : Option Nat :=
  let ks := linksToward s package
  if ks.isEmpty then none else some (ks.getD (flow % ks.length) 0)

/-! ## Requests on their way (R416, R450) -/

/-- The world of an operation. -/
def Op.world (s : State) (o : Op) : Nat := (taskAt s (teamById s o.team).task).world

/-- The link that a core's packets take toward a home in another package. -/
def linkToHome (s : State) (world core a : Nat) : Option Nat :=
  linkOf s (bitsOf a 41 6) (flowNumber world (portNumber (dieOf core) (quadOf core % 8)) (portNumber (homeDie a) (8 + homeSlice a)))

/-- Whether a request from a core to a home, and its reply, have a route: over the die ring, and into the pod by a Serac link that
is up, on the die that places it (R15). -/
def homeReached (s : State) (world core a : Nat) : Bool :=
  if podRemote s a then (linkToHome s world core a).any fun k => reaches s (dieOf core) (linkDie k)
  else reaches s (dieOf core) (homeDie a)

/-- Whether a packet is lost, whatever its receiving port. -/
def isLost (s : State) (same : PacketId → Bool) : Bool := s.lost.any same

def opLost (s : State) (id : Nat) : Bool := isLost s fun p => match p with
  | .request _ o => o == id
  | _ => false

def lineLost (s : State) (copy line : Nat) : Bool := isLost s fun p => match p with
  | .copyLine _ c l => c == copy && l == line
  | _ => false

/-- Log 182: DESIGN CHOICE, unsafe. -/
def sledLost (s : State) (sled : Nat) : Bool := isLost s fun p => match p with
  | .sled _ x => x == sled
  | _ => false

def flitLost (s : State) (barrier : Nat) : Bool := isLost s fun p => match p with
  | .barrierFlit _ b => b == barrier
  | _ => false

/-- Whether the reply of an operation can arrive: no packet of it is lost, and each home that it asks is reached. -/
def replyComes (s : State) (o : Op) : Bool :=
  !opLost s o.id && o.homes.all fun a => homeReached s (o.world s) o.core a

/-- Whether the packets from die to die, there or back, use one of two ports. -/
def pathUses (s : State) (a b : Nat) (h g : Nat × Nat) : Bool :=
  (((pathTo s a b).getD []) ++ ((pathTo s b a).getD [])).any fun x => x == h || x == g

/-- The die on which a request from a core leaves the die ring: its home's, or that of the Serac link it takes. -/
def ringEnd (s : State) (world core a : Nat) : Nat :=
  if podRemote s a then ((linkToHome s world core a).map linkDie).getD (dieOf core) else homeDie a

/-! ## Pod barriers (R354, R365) -/

/-- The link that a core's barrier flits take toward the package that holds the pod's barriers. (Log 121: DEDUCED, unsafe.) -/
def flitLink (s : State) (world core : Nat) : Option Nat :=
  if s.pod.podIdx == 0 then none else linkOf s 0 (flowNumber world (portNumber (dieOf core) (quadOf core % 8)) 0)

/-- Whether the flits of a pod barrier have a route: within the package that holds the pod's barriers, or by a link that is up (R365). -/
def podReached (s : State) : Bool := s.pod.podIdx == 0 || !(linksToward s 0).isEmpty

end Sys2Proof.Machine
end

