-- ==== Sys2Proof/Machine/Ops.lean ====
section
/-! DEFINITION. The operations that the meanings share: the issuing warp and fragment, the effective guard, rounding and
zeroing (R124), writing destinations, leaving an instruction, barriers and locks as a halt meets them, the fault
record, trap entry (R369) and the return from it (R371), halting a warp (R372), and the ends of fragments and warps
(R163, R164). -/

namespace Sys2Proof.Machine

open Sys2Proof

/-- What a meaning answers. -/
abbrev Out := Host.Outcome State Fault Refusal

/-! ## The issuing warp and fragment -/

/-- The issuing warp. -/
def me (s : State) : Warp := s.warps.getD s.cur.warp {}

/-- The issuing fragment. -/
def fr (s : State) : Frag := (me s).frags.getD s.cur.frag {}

/-- The state with warp `i` replaced. -/
def setWarp (s : State) (i : Nat) (w : Warp) : State := { s with warps := s.warps.set i w }

/-- The state with the issuing warp replaced. -/
def setMe (s : State) (w : Warp) : State := setWarp s s.cur.warp w

/-- The state with the issuing fragment replaced. -/
def setFr (s : State) (f : Frag) : State := setMe s { me s with frags := (me s).frags.set s.cur.frag f }

/-- The position of the warp in a warp slot of a core. -/
def warpAt (s : State) (core slot : Nat) : Nat := indexWhere (fun w => w.core == core && w.slot == slot) s.warps

/-- The position of a team's warp by its index. -/
def warpOfTeam (s : State) (team wid : Nat) : Nat := indexWhere (fun w => w.team == team && w.wid == wid) s.warps

/-- One warp changed, by position; nothing where there is none. -/
def onWarp (s : State) (i : Nat) (g : Warp → Warp) : State := setWarp s i (g (s.warps.getD i {}))

/-- One fragment of a warp changed, by its number. -/
def onFrag (w : Warp) (fid : Nat) (g : Frag → Frag) : Warp :=
  { w with frags := updateFirst (fun f => f.id == fid) g w.frags }

/-- The fragment of a warp with a number. -/
def fragById (w : Warp) (fid : Nat) : Option Frag := w.frags.find? fun f => f.id == fid

/-- The role a fragment runs under: system in a handler (R369). -/
def roleOf (w : Warp) (f : Frag) : Role := if f.handler then .system else w.role

/-- The code of a role (Table ISAI.3). -/
def roleCode : Role → Nat
  | .vector => 0
  | .copy => 1
  | .matrix => 2
  | .system => 3

/-- The lanes of a warp that have not exited. -/
def liveLanes (w : Warp) : Word := ~~~w.exited

/-! ## Counters (R29) -/

/-- A counter of a warp, and its maximum (Table EXEC.3). -/
def Warp.ctr (w : Warp) : Ctr → Nat
  | .ld => w.cntLd
  | .st => w.cntSt
  | .cp => w.cntCp
  | .tl => w.cntTl

def ctrMax : Ctr → Nat
  | .ld => 128
  | .st => 128
  | .cp => 64
  | .tl => 16

/-- A counter changed. -/
def Warp.onCtr (w : Warp) (c : Ctr) (g : Nat → Nat) : Warp :=
  match c with
  | .ld => { w with cntLd := g w.cntLd }
  | .st => { w with cntSt := g w.cntSt }
  | .cp => { w with cntCp := g w.cntCp }
  | .tl => { w with cntTl := g w.cntTl }

/-! ## Guard, rounding, zeroing (R124) -/

/-- The lanes of EXEC whose guard bit is `1` after inversion. -/
def guardLanes (exec : Word) (g : Row) (inv : Bool) : Word :=
  maskOf fun l => inMask exec l && ((valAt g l).getLsbD 0 != inv)

/-- A register of a warp. -/
def regOf (w : Warp) (r : Nat) : Row := w.regs.getD r zeroRow

/-- The guard register in force, if any, with its inversion: the prefix's, else MODE's (R124). -/
def guardOf (p : Option Pfx) (w : Warp) : Option (Nat × Bool) :=
  match p with
  | some x =>
    if x.gv then some (x.g.toNat, x.gn)
    else if w.mode.getLsbD 8 then some ((w.mode.extractLsb' 0 8).toNat, w.mode.getLsbD 9) else none
  | none => if w.mode.getLsbD 8 then some ((w.mode.extractLsb' 0 8).toNat, w.mode.getLsbD 9) else none

/-- Active() of R124. -/
def active (p : Option Pfx) (w : Warp) (f : Frag) : Word :=
  match guardOf p w with
  | some (g, inv) => guardLanes f.exec (regOf w g) inv
  | none => f.exec

/-- EffRM() of R124, as a code of Table ENC.9. -/
def effRm (p : Option Pfx) (w : Warp) : Nat :=
  match p with
  | some x => if x.rv then x.rm.toNat else (w.mode.extractLsb' 14 3).toNat
  | none => (w.mode.extractLsb' 14 3).toNat

/-- EffZ() of R124. -/
def effZ (p : Option Pfx) (w : Warp) : Bool :=
  match p with
  | some x => x.z
  | none => w.mode.getLsbD 17

/-- MODE.ET, MODE.FTZ and MODE.SAT (Table ENC.8). -/
def modeEt (w : Warp) : Nat := (w.mode.extractLsb' 10 4).toNat
def modeFtz (w : Warp) : Bool := w.mode.getLsbD 18
def modeSat (w : Warp) : Bool := w.mode.getLsbD 19

/-- The lanes that WriteDest zeroes: in FRAG, not active, under zeroing (R124). -/
def zeroLanes (p : Option Pfx) (w : Warp) (f : Frag) : Word :=
  if effZ p w then f.frag &&& ~~~active p w f else 0#32

/-- Active() and the zeroed lanes of the issuing instruction. -/
def act (p : Option Pfx) (s : State) : Word := active p (me s) (fr s)
def zer (p : Option Pfx) (s : State) : Word := zeroLanes p (me s) (fr s)

/-! ## Writing destinations -/

/-- WriteDest on one row (R124): active lanes take the value, zeroed lanes become 0 and clean, the rest stay. -/
def writeRow (old v : Row) (a z : Word) : Row :=
  rowOf fun l => if inMask a l then laneAt v l else if inMask z l then {} else laneAt old l

/-- The registers of a warp with some destinations written under one lane set. -/
def writeRegs (w : Warp) (a z : Word) : List (Nat × Row) → Warp
  | [] => w
  | (d, v) :: rest => writeRegs { w with regs := w.regs.set d (writeRow (regOf w d) v a z) } a z rest

/-- The bit of DIRTY of a register (R30). -/
def dirtyBit (r : Nat) : BitVec 256 := BitVec.ofNat 256 (2 ^ r)

/-- DIRTY with the bits of some registers set. -/
def dirtied (w : Warp) (rs : List Nat) : Warp := { w with dirty := rs.foldl (fun m r => m ||| dirtyBit r) w.dirty }

/-- WriteDest on each destination, with DIRTY set for each whatever the lane set (R30, R124). -/
def writeDests (p : Option Pfx) (ds : List (Nat × Row)) (s : State) : State :=
  let w := writeRegs (me s) (act p s) (zer p s) ds
  setMe s (dirtied w (ds.map (·.1)))

/-- WriteDest with EXEC as Active(), for the words that ignore the guard (R125, R224). -/
def execDests (ds : List (Nat × Row)) (s : State) : State :=
  let w := me s
  let f := fr s
  setMe s (dirtied (writeRegs w f.exec (if effZ none w then f.frag &&& ~~~f.exec else 0#32) ds) (ds.map (·.1)))

/-- The scoreboard holds registers until the instruction's latency has run out (R158); with none nothing is held. -/
def holdRegs (rs : List Nat) (fl : Bool) (s : State) : State :=
  if rs.isEmpty && !fl then s
  else
    let w := me s
    let h : Hold := { id := s.nextId, regs := rs, flags := fl }
    { setMe s { w with holds := w.holds ++ [h] } with nextId := s.nextId + 1 }

/-- Registers `r .. r + n - 1`. -/
def regRun (r n : Nat) : List Nat := (List.range n).map (r + ·)

/-! ## Leaving an instruction -/

/-- One of the team counters of Table ISAE.6 increased. -/
def countPerf (s : State) (team k n : Nat) : State :=
  { s with
    teams := updateFirst (fun t => t.id == team)
      (fun t => { t with perf := t.perf.set k (t.perf.getD k 0 + BitVec.ofNat 32 n) }) s.teams }

/-- The issue counted: its slot, and the vector passes that it performed and skipped (Table ISAE.6, R323). (Log 140: DEDUCED, unsafe.) -/
def countIssue (s : State) : State :=
  countPerf (countPerf (countPerf s (me s).team 0 1) (me s).team 1 s.cur.busy) (me s).team 2 s.cur.skipped

/-- The seal table entry of the module whose code holds an address of a world. -/
def sealAt (s : State) (world pc : Nat) : Option Seal :=
  s.seals.find? fun m => m.world == world && decide (m.code ≤ pc) && decide (pc < m.code + 4 * m.words)

/-- The travelling segment of a module that holds a word (R304). -/
def segmentOfWord (m : Seal) (word : Nat) : Nat := (m.segments.filter fun st => decide (st ≤ word)).length - 1

/-- The travelling segment that holds an address, if its module is a travelling one (R304). -/
def segmentAt (s : State) (world pc : Nat) : Option Nat :=
  match sealAt s world pc with
  | none => none
  | some m => if m.travel then some (segmentOfWord m ((pc - m.code) / 4)) else none

/-- The pin of a core (R307). -/
def pinOf (s : State) (core : Nat) : Option Pin := s.pins.find? fun x => x.core == core

/-- The code address of a global entry of a world for a role (R102). -/
def entryCode (s : State) (world index role : Nat) : Option Nat :=
  match s.entries.find? fun e => e.world == world && e.index == index with
  | some e => e.code.getD role none
  | none => none

/-- Whether an address lies in the segment that a pin holds of a launch's own module (R304, R307). -/
def inSegment (s : State) (l : Launch) (pin : Pin) (pc : Nat) : Bool :=
  match sealAt s l.world pc, (entryCode s l.world l.entry 0).bind (sealAt s l.world) with
  | some m, some home => m.travel && m.code == home.code && segmentOfWord m ((pc - m.code) / 4) == pin.k
  | _, _ => false

/-- Whether a transfer to `pc` leaves the segment that the warp's core pins (R309); a handler never does. -/
def leavesSegment (s : State) (w : Warp) (f : Frag) (pc : Pc) : Bool :=
  (launchOf s w).travelling && !f.handler && (pinOf s w.core).any fun pin => !inSegment s (launchOf s w) pin pc.toNat

/-- The fragment's PC set, by a transfer or by sequential flow: the issue slot is counted, and a warp whose PC leaves
its segment begins to depart (R309). -/
def goto (pc : Pc) (s : State) : State :=
  let leaves := leavesSegment s (me s) (fr s) pc
  let from' := (fr s).pc
  let s := countIssue s
  let s := setFr s { fr s with pc := pc, wait := .none, compared := false }
  if leaves then setMe s { me s with departing := true, blocked := true, leftAt := from' } else s

/-- The address of the next sequential instruction (R108). -/
def nextPc (s : State) : Pc := (fr s).pc + BitVec.ofNat 57 s.cur.len

/-- The instruction is left for the next one. -/
def advance (s : State) : State := goto (nextPc s) s

/-- An instruction that writes registers, done: destinations written, held by the scoreboard, and left. -/
def writeAndGo (p : Option Pfx) (ds : List (Nat × Row)) (s : State) : State :=
  advance (holdRegs (ds.map (·.1)) false (writeDests p ds s))

/-- The same with EXEC as the lane set. -/
def execAndGo (ds : List (Nat × Row)) (s : State) : State :=
  advance (holdRegs (ds.map (·.1)) false (execDests ds s))

/-- The fragment waits at its PC until a condition holds, and then issues the instruction again (R48). -/
def waitFor (c : Cond) (s : State) : State := setFr s { fr s with wait := .poll c }

/-! ## Causes and records -/

/-- What an issue may raise: class, code and the fields of the record that depend on the cause; `next`: RPC is the
instruction after (class 1). -/
structure Cause where
  cls : Nat
  code : Nat
  res : Bool := false
  pois : Bool := false
  lanes : Word := 0
  addr : DWord := 0
  info : Word := 0
  next : Bool := false
  deriving DecidableEq, Repr, Inhabited

/-- The place of a cause in the order of R388. -/
def Cause.rank (c : Cause) : Nat :=
  (if c.cls == 5 then 0 else if c.cls == 2 then 1 else if c.cls == 3 then 2 else 3) * 4096 + c.code

/-- The cause that one issue reports (R388). -/
def firstCause (cs : List Cause) : Option Cause := argMin Cause.rank cs

/-- The cause of poison consumed by the lanes of a set (R374): it names the register file, whose lanes hold it, as its structure (R442). (Log 190: DEDUCED, unsafe.) -/
def poisonCause (lanes : Word) : Cause := { cls := 5, code := 0x001, pois := true, lanes := lanes, info := 4 }

/-- Consumption of poison by the lanes of a set (R374), as a list of causes. (Log 29: DEDUCED, unsafe; 190: DEDUCED, unsafe.) -/
def consumed (lanes : Word) : List Cause := if lanes == 0#32 then [] else [poisonCause lanes]

/-- The lanes of a set in which any of some registers is poisoned. -/
def poisonIn (w : Warp) (m : Word) (rs : List Nat) : Word := rs.foldl (fun a r => a ||| poisonMask (regOf w r) m) 0#32

/-- The poison of the guard bits of the lanes that a guard makes active (R374). (Log 29: DEDUCED, unsafe.) -/
def guardPoison (p : Option Pfx) (w : Warp) (f : Frag) : Word :=
  match guardOf p w with
  | some (g, _) => poisonMask (regOf w g) (active p w f)
  | none => 0#32

/-- Whether a register number is storage of the warp (R390). -/
def regInside (regs r : Nat) : Bool := decide (r < regs) || r == 254 || r == 255

/-- The registers a prefix and MODE's guard make the instruction name: G when GV = 1, and MODE.GREG otherwise. -/
def guardRegs (p : Option Pfx) (w : Warp) : List Nat :=
  match guardOf p w with
  | some (g, _) => [g]
  | none => []

/-- A register field that reaches REGS (code 0x031, R390): the first such register the word names. -/
def outside (s : State) (rs : List Nat) : List Cause :=
  match rs.find? fun r => !regInside (launchOf s (me s)).regs r with
  | none => []
  | some r => [{ cls := 2, code := 0x031, info := BitVec.ofNat 32 r }]

/-- A class 3 cause from a refusal in some lanes. -/
def Deny.cause (d : Deny) (lanes : Word) (addr : DWord) : Cause :=
  { cls := d.cls, code := d.code, res := d.res, pois := d.cls == 5, lanes := lanes, addr := addr,
    info := BitVec.ofNat 32 d.info }

/-- The record of a warp's fault (Table FLT.1), with its fragment and words. -/
def recordOf (s : State) (w : Warp) (frag : Word) (pc : Pc) (c : Cause) : FaultRec :=
  let t := teamOf s w
  let k := taskOf s w
  { cls := c.cls, code := c.code, prec := true, res := c.res, pois := c.pois
    world := k.world, core := w.core, warpId := w.wid, slot := w.slot, frag := frag, lanes := c.lanes, pc := pc
    addr := c.addr, instr := s.cur.word, pfxWord := s.cur.pfxWord, tenant := k.tenant, entry := k.entry
    info := c.info, time := s.now, teamX := t.x, teamY := t.y, teamZ := t.z, vdev := k.vdev }

/-- The sixteen words of a record (Table FLT.1). -/
def FaultRec.words (r : FaultRec) : List Word :=
  let w := fun n => BitVec.ofNat 32 n
  [ w (r.cls * 2 ^ 28 + r.code % 4096 * 2 ^ 16 + bit r.prec * 2 ^ 15 + bit r.res * 2 ^ 14 + bit r.pois * 2 ^ 13),
    w (r.world % 64 * 2 ^ 26 + r.core % 1024 * 2 ^ 16 + r.warpId % 16 * 2 ^ 12 + r.slot % 64),
    r.frag,
    r.lanes,
    w r.pc.toNat,
    w (r.pc.toNat / 2 ^ 32),
    loWord r.addr,
    hiWord r.addr,
    r.instr,
    r.pfxWord,
    w (r.tenant % 65536 * 65536 + r.entry % 65536),
    r.info,
    w r.time,
    w (r.time / 2 ^ 32),
    w (r.teamY % 65536 * 65536 + r.teamX % 65536),
    w (r.vdev % 64 * 65536 + r.teamZ % 65536) ]

/-- The bytes of some words. -/
def bytesOf (ws : List Word) : List Byte := ws.flatMap fun w => toBytes 4 w.toNat

/-! ## The fault log (R376) -/

/-- Whether a Serac route to the bridge is up, or this package is the bridge. -/
def bridgeReachable (s : State) : Bool :=
  s.pod.bridge || (s.pod.route.getD s.pod.bridgeIdx 0 &&& s.pod.linkUp) != 0#16

/-- LOST with one more record, saturating. -/
def lostMore (s : State) : State :=
  { s with log := { s.log with lost := if s.log.lost == 0xFFFFFFFF#32 then s.log.lost else s.log.lost + 1 } }

/-- A record among those that wait to be written, in the order of their detection. -/
def insertRecord (r : FaultRec) : List FaultRec → List FaultRec
  | [] => [r]
  | x :: rest => if r.time < x.time then r :: x :: rest else x :: insertRecord r rest

/-- A record of classes 2 to 8 goes to the log, or LOST counts it. (Log 135: DEDUCED, unsafe; 173: DEDUCED, unsafe.) -/
def logRecord (s : State) (r : FaultRec) : State :=
  if r.cls < 2 then s
  else if !s.log.en || !bridgeReachable s then lostMore s
  else if (s.log.head + BitVec.ofNat 32 s.log.waiting.length - s.log.tail).toNat < 2 ^ s.log.log2 then
    { s with log := { s.log with waiting := insertRecord r s.log.waiting } }
  else lostMore s

/-! ## Save area and trap area -/

/-- The save need of a team before rounding (R301). -/
def saveNeed (l : Launch) : Nat :=
  8192 + l.warps * (2048 + l.regs * 128) + 4096 * (ceilDiv l.scratch 4096 + ceilDiv l.accb 4096) +
    (if l.nMat > 0 then 16384 else 0) + (if l.redundant then 65536 + 128 else 0)

/-- The save block of a team: copy 1's blocks follow all of copy 0's (R301). -/
def saveBlock (l : Launch) (t : Team) : Nat :=
  l.save.toNat + (t.index + t.copy * l.grid) * roundUp (saveNeed l) 4096

/-- The trap area of a warp (R370). -/
def trapArea (s : State) (w : Warp) : Nat := saveBlock (launchOf s w) (teamOf s w) + 8192 + w.wid * 2048

/-- Whether a core's access to bytes of its trap area is answered: its L1 holds them, or their home is reached (R369, R371). (Log 169: DEDUCED, unsafe.) -/
def areaAnswers (s : State) (w : Warp) (a n : Nat) : Bool :=
  (l1Find s w.core a).any (fun x => x.present &&& byteMask (a % 128) n == byteMask (a % 128) n) ||
    homeReached s (launchOf s w).world w.core a

/-- A table of bytes written at core scope from a virtual address, chunk by chunk of at most 128 bytes within a line;
or the first address that fails: its page refuses it, or its home does not answer. (Log 169: DEDUCED, unsafe.) -/
def areaWrite (s : State) (w : Warp) : List (Nat × List Byte × Bool) → Except Nat State
  | [] => .ok s
  | (va, bs, p) :: rest =>
    match spotOf s w va .write false with
    | .ok (.mem a) => if areaAnswers s w a bs.length then areaWrite (coreWrite s w.core a .norm bs p) w rest else .error va
    | _ => .error va

/-- The writes of TrapEntry into the trap area (Table FLT.3). -/
def trapWrites (w : Warp) (f : Frag) (r : FaultRec) (rpc : Pc) (area : Nat) : List (Nat × List Byte × Bool) :=
  [ (area, bytesOf r.words, false),
    (area + 0x40, bytesOf [BitVec.ofNat 32 rpc.toNat, BitVec.ofNat 32 (rpc.toNat / 2 ^ 32), f.exec, f.frag], false),
    (area + 0x50, bytesOf [w.mode.zeroExtend 32, w.flags.zeroExtend 32, BitVec.ofNat 32 w.link.length, 0#32], false) ] ++
  ((List.range 8).map fun n =>
    let k := w.tokens.getD n {}
    (area + 0x60 + 16 * n, bytesOf [loWord k.addr, hiWord k.addr, BitVec.ofNat 32 (bit k.held), 0#32], false)) ++
  (List.range 4).flatMap fun i => laneIdx.map fun l =>
    let x := laneAt (regOf w i) l
    (area + 0x200 + 128 * i + 4 * l, bytesOf [x.val], x.poison)

/-- The entry index of the trap handler in force (R298, R369). -/
def handlerIndex (s : State) (w : Warp) : Nat :=
  let l := launchOf s w
  if l.trapEnt == 0xFFFF then (s.vdevs.getD (taskOf s w).vdev {}).defTrap else l.trapEnt

/-- The handler's entry address, if a fault of the warp enters a handler (R369); in a travelling launch none does (R438). -/
def handlerPc (s : State) (w : Warp) : Option Nat :=
  if (launchOf s w).save == 0#64 || (launchOf s w).travelling then none else entryCode s (launchOf s w).world (handlerIndex s w) 3

/-! ## Lock words as a halt meets them (R219, R221) -/

/-- The owner value of a warp (R219). -/
def ownerValue (s : State) (core slot : Nat) : Word :=
  BitVec.ofNat 32 (2 ^ 31 + s.pod.podIdx % 64 * 2 ^ 16 + core % 1024 * 2 ^ 6 + slot % 64)

/-- A word of memory at its home, without waking lock waiters. -/
def pokeWord (s : State) (a : Nat) (v : Word) : State :=
  { s with
    mem := s.mem.write a (bytesOf [v]) false
    sharers := s.sharers.filter fun e => e.1 != lineBase a
    gateways := s.gateways.filter fun e => e.2.2 != lineBase a }

/-- A lock word released at its home: handed to the oldest registered fragment, or written 0 (R221); the home of a page that is
checked or sealed takes no write (R75, R100). (Log 146: DEDUCED, unsafe.) -/
def handOver (s : State) (a : Nat) : State :=
  if !homeTakes s a then s
  else
    match s.waiters.find? fun x => x.word == a && !x.granted with
    | none => pokeWord s a 0#32
    | some x =>
      { pokeWord s a (ownerValue s x.core x.slot) with
        waiters := updateFirst (fun y => y.word == a && !y.granted) (fun y => { y with granted := true, woken := false }) s.waiters }

/-- Registrations on lock words given up; a word that had been handed to one of them, whose reply had not arrived, is handed on. (Log 170: DEDUCED, unsafe.) -/
def dropWaiters (s : State) (mine : Waiter → Bool) : State :=
  (s.waiters.filter fun x => mine x && x.granted).foldl (fun s x => handOver s x.word)
    { s with waiters := s.waiters.filter fun x => !mine x }

/-- The registrations of a warp. -/
def Warp.registered (w : Warp) (x : Waiter) : Bool := x.core == w.core && x.slot == w.slot

/-- The storage address of a lock word of a warp at its home, if it translates. -/
def homeOf (s : State) (w : Warp) (va : Nat) : Option Nat :=
  match spotOf s w va .write true with
  | .ok (.mem a) => some a
  | _ => none

/-- The locks of a warp's token slots released, without release actions (R372). -/
def dropTokens (s : State) (i : Nat) : State :=
  let w := s.warps.getD i {}
  let s := w.tokens.foldl (fun s k => if k.held then (match homeOf s w k.addr.toNat with
    | some a => handOver s a
    | none => s) else s) s
  onWarp s i fun w => { w with tokens := w.tokens.map fun _ => {} }

/-! ## Barriers as a halt or an end meets them (R226, R375) -/

/-- A fragment that waits in BAR or BARWT goes on: acquire actions at the scope, the status in D under EXEC and
MODE's zeroing, and the next instruction (R227, R375). -/
def passBarrier (s : State) (i : Nat) (f : Frag) (dest scope : Nat) (status : Word) : State :=
  let w := s.warps.getD i {}
  let s := acquireActs s w.core scope
  let w := dirtied (writeRegs w (active none { w with mode := w.mode &&& 0xFFFCFF#24 } f)
    (if effZ none w then f.frag &&& ~~~f.exec else 0#32) [(dest, splat status)]) [dest]
  setWarp s i (onFrag w f.id fun f => { f with wait := .none, pc := f.pc + 4#57 })

/-- A fragment whose phase is over leaves its barrier; one that a handler of its warp holds leaves it after the handler's ERET, for no
register of the warp is written while the handler runs (R404). (Log 171: DEDUCED, unsafe.) -/
def leaveBarrier (s : State) (i fid dest scope : Nat) (status : Word) : State :=
  let w := s.warps.getD i {}
  match if w.halted then none else fragById w fid with
  | none => s
  | some f =>
    if f.held then onWarp s i fun w => onFrag w fid fun f => { f with wait := .released dest scope status }
    else passBarrier s i f dest scope status

/-- The fragments of a warp whose phases ended while its handler ran leave their barriers (R404). (Log 171: DEDUCED, unsafe.) -/
def leaveReleased (s : State) (i : Nat) : State :=
  (s.warps.getD i {}).frags.foldl (fun s f =>
    match f.wait with
    | .released dest scope status => if f.held then s else passBarrier s i f dest scope status
    | _ => s) s

/-- Every fragment that waits for a phase of the barrier leaves it with a status. -/
def leaveAll (s : State) (bar : Nat) (status : Word) : State :=
  (List.range s.warps.length).foldl (fun s i =>
    (s.warps.getD i {}).frags.foldl (fun s f =>
      match f.wait with
      | .barrier b dest scope => if b == bar then leaveBarrier s i f.id dest scope status else s
      | _ => s) s) s

/-- A barrier changed by its number. -/
def onBarrier (s : State) (id : Nat) (g : Barrier → Barrier) : State :=
  { s with barriers := updateFirst (fun b => b.id == id) g s.barriers }

/-- The barrier becomes abandoned at one clock (R375). -/
def abandon (s : State) (id : Nat) : State :=
  match s.barriers.find? fun b => b.id == id with
  | none => s
  | some b => if b.abandoned then s else leaveAll (onBarrier s id fun b => { b with abandoned := true }) id 1#32

/-- The barriers of the launch that count a team. -/
def barriersOf (s : State) (t : Team) : List Nat :=
  (s.barriers.filter fun b => b.task == t.task && b.teams.contains t.id).map (·.id)

/-- Whether a barrier's completion waits for the comparison of a redundant launch (R226). -/
def comparesFirst (s : State) (b : Barrier) : Bool := (taskAt s b.task).launch.redundant && decide (2 ≤ b.scope)

/-- The open phase completes (R226). -/
def completePhase (s : State) (id : Nat) : State :=
  leaveAll (onBarrier s id fun b =>
    { b with arrived := 0, pend := b.pendNx, pendNx := 0, phaseNo := b.phaseNo + 1, marks := [] }) id 0#32

/-- The completion condition tested (R226); a barrier that has lost a flit never completes (R450), and a pod barrier
waits for its route (R365). -/
def testBarrier (s : State) (id : Nat) : State :=
  match s.barriers.find? fun b => b.id == id with
  | none => s
  | some b =>
    if !b.abandoned && b.arrived == b.expect && decide (0 < b.arrived) && b.pend == 0 && !comparesFirst s b && !flitLost s b.id &&
        (b.scope != 5 || podReached s)
    then completePhase s id else s

/-- The pod's barriers tested again, where a link has come up (R365). -/
def testPodBarriers (s : State) : State := ((s.barriers.filter fun b => b.scope == 5).map (·.id)).foldl testBarrier s

/-- A warp that ends is counted no more by its launch's barriers (R226). -/
def endInBarriers (s : State) (w : Warp) : State :=
  let t := teamOf s w
  (barriersOf s t).foldl (fun s id =>
    testBarrier (onBarrier s id fun b =>
      { b with
        expect := b.expect - 1
        arrived := if b.marks.contains (w.team, w.wid) then b.arrived - 1 else b.arrived
        marks := b.marks.filter fun m => m != (w.team, w.wid) }) id) s

/-! ## A partner that ends (R397) -/

/-- A warp that waits in XCHG no more: its D run is released. -/
def dropXchg (w : Warp) : Warp :=
  match w.xchg with
  | none => w
  | some x => { w with xchg := .none, holds := w.holds.filter fun h => h.id != x.hold }

/-- The rows a partner sends, in the lanes of its EXEC, written outside no lane of the receiver's FRAG (R199). -/
def xchgInto (v : Warp) (mine theirs : Xchg) : Warp :=
  let f := (fragById v mine.frag).getD {}
  let rows := theirs.snapshot.zipIdx.map fun x => (mine.dest + x.2, x.1)
  onFrag (dropXchg (dirtied (writeRegs v (theirs.exec &&& f.frag) 0 rows) (regRun mine.dest mine.count))) mine.frag
    fun f => { f with wait := .none, pc := f.pc + 4#57 }

/-- A fault of a fragment as its warp is to take it: its record and resume address.  A fault of a handler's own instructions is not
delivered, but halts the warp with class 6 code 0x001 (R371). (Log 30: DEDUCED, unsafe.) -/
def trapOf (s : State) (w : Warp) (f : Frag) (c : Cause) (rpc : Pc) : TrapReq :=
  let r := recordOf s w f.frag f.pc c
  { frag := f.id, rpc := rpc
    record := if f.handler then { r with cls := 6, code := 0x001, res := false, info := w.kept.words.headD 0 } else r }

/-- Whether a record halts its warp instead of entering a handler (R367, R369, R372): a save record never does. -/
def fatal (s : State) (w : Warp) (r : FaultRec) : Bool :=
  r.cls == 5 || r.cls == 6 || (r.cls != 0 && (handlerPc s w).isNone)

/-- A warp whose XCHG fails waits no longer, and is to take the fault; where one of its faults already waits to be entered, the XCHG only
issues again after it (R388). (Log 172: DEDUCED, unsafe.) -/
def failXchg (s : State) (v : Warp) (x : Xchg) (c : Cause) : Warp :=
  let f := (fragById v x.frag).getD {}
  let q := trapOf { s with cur := { s.cur with word := x.word, pfxWord := 0 } } v f c f.pc
  let v := dropXchg (onFrag v x.frag fun f => { f with wait := .none })
  if v.trap.isSome then v else { v with trap := some q }

/-- Whether a warp waits in XCHG for a given warp. -/
def xchgAwaits (s : State) (v w : Warp) : Bool :=
  match v.xchg with
  | none => false
  | some x =>
    match windowTarget s (teamOf s v) x.region with
    | none => false
    | some u => u.id == w.team && v.wid == w.wid

/-- How many XCHGs a warp has issued toward a team. -/
def sentTo (w : Warp) (team : Nat) : Nat := look w.xchgSent team 0

/-- What the end of a warp `w` means to a warp that waits in XCHG for it (R397, R199): the exchange that both had issued still happens, or fails
where the lengths differ; a warp that had not issued the matching XCHG leaves a fault of code 0x061. (Log 172: DEDUCED, unsafe.) -/
def partnerEnds (s : State) (w v : Warp) : Warp :=
  match v.xchg with
  | none => v
  | some x =>
    if !xchgAwaits s v w then v
    else
      match w.xchg.filter fun y => y.ordinal == x.ordinal && xchgAwaits s w v with
      | some y =>
        if x.count == y.count then xchgInto v x y
        else failXchg s v x { cls := 2, code := 0x060, info := BitVec.ofNat 32 y.count }
      | none => if x.ordinal < sentTo w v.team then v else failXchg s v x { cls := 2, code := 0x061 }

/-- Every warp that waits in XCHG for warp `i`, which has ended, waits no longer (R397). -/
def failPartners (s : State) (i : Nat) : State :=
  let w := s.warps.getD i {}
  { s with warps := s.warps.zipIdx.map fun v => if v.2 == i then dropXchg v.1 else partnerEnds s w v.1 }

/-! ## The stop log (R360) -/

/-- One stopped fragment entered in the first free entry of the stop log, if there is one. (Log 41: DESIGN CHOICE, unsafe.) -/
def logStop (s : State) (i fid : Nat) : State :=
  let w := s.warps.getD i {}
  let k := indexWhere (fun e => !e.valid) s.stopLog
  match fragById w fid with
  | none => s
  | some f =>
    if k < s.stopLog.length then
      onWarp { s with stopLog := s.stopLog.set k { valid := true, core := w.core, slot := w.slot, pc := f.pc - 4#57 } } i fun w =>
        onFrag w fid fun f => { f with wait := .stopped true }
    else s

/-- Every stopped fragment of a warp that can still go on and waits for an entry. -/
def fillStops (s : State) : State :=
  (List.range s.warps.length).foldl (fun s i =>
    let w := s.warps.getD i {}
    if w.halted || w.ended then s else (w.frags.filter fun f => f.wait == .stopped false).foldl (fun s f => logStop s i f.id) s) s

/-- Whether an entry of the stop log is one of a warp's. -/
def StopEntry.isOf (w : Warp) (e : StopEntry) : Bool := e.valid && w.core == e.core && w.slot == e.slot

/-- The entries of warps that stop for good, or leave their core, freed, and waiting fragments entered. -/
def dropStops (s : State) (gone : List Warp) : State :=
  if s.stopLog.any fun e => gone.any fun w => e.isOf w
  then fillStops { s with stopLog := s.stopLog.map fun e => if gone.any (fun w => e.isOf w) then {} else e }
  else s

/-! ## Halting a warp (R372) -/

/-- A counter that a pending fault keeps raised, let fall as the fault is taken or dropped (R368). -/
def Warp.fell (w : Warp) (p : Pending) : Warp :=
  match p.ctr with
  | some c => w.onCtr c (· - 1)
  | none => w

/-- R372 step 1: no fragment of the warp issues again, replies to it write nothing, and the credits of its accepted copies are discarded. -/
def silence (s : State) (i : Nat) : State :=
  let w := s.warps.getD i {}
  { onWarp s i fun w =>
      { w.pending.foldl Warp.fell w with halted := true, trap := .none, pending := [], served := .none, holds := [] } with
    ops := s.ops.map fun o => if o.team == w.team && o.wid == w.wid then { o with writes := [], hold := .none } else o
    copies := s.copies.map fun c => if c.team == w.team && c.wid == w.wid then { c with discard := true } else c }

/-- The warp stops for good with a record, which `toArea` also puts in the trap area. (Log 170: DEDUCED, unsafe.) -/
def stopWarp (s : State) (i : Nat) (r : FaultRec) (toArea : Bool) : State :=
  let w := s.warps.getD i {}
  let t := teamOf s w
  -- 1: no fragment issues again
  let s := silence s i
  -- 2: the record goes to the trap area and the fault log
  let s := if !toArea || (launchOf s w).save == 0#64 then s else
    match areaWrite s w [(trapArea s w, bytesOf r.words, false)] with
    | .ok s' => s'
    | .error _ => s
  let s := logRecord s r
  -- 3 and 4: locks handed over, barriers abandoned; a partner waiting in XCHG waits no longer
  let s := failPartners (dropTokens (dropWaiters s w.registered) i) i
  let s := (barriersOf s t).foldl abandon s
  -- 5: the warp counts as ended, the task as faulted
  dropStops { s with tasks := s.tasks.set t.task { taskAt s t.task with faulted := true } } [w]

/-- The warp halts with a record (R372). (Log 30: DEDUCED, unsafe.) -/
def haltWarp (s : State) (i : Nat) (r : FaultRec) : State := stopWarp s i r true

/-! ## Trap entry (R369) and ERET (R371) -/

/-- Whether register writes and flags of a warp are settled. -/
def settled (w : Warp) : Bool := w.holds.isEmpty

/-- TrapEntry of R369 for the warp's trap request: the trap area is written and a handler fragment starts; a write
that fails halts the warp with class 6 code 0x002.  A save record that finds no handler is dropped: it halts no warp (R367). -/
def enterTrap (s : State) (i : Nat) : State :=
  let w := s.warps.getD i {}
  match w.trap, w.trap.bind fun q => fragById w q.frag with
  | some q, some f =>
    if fatal s w q.record then haltWarp s i q.record
    else
      let area := trapArea s w
      match handlerPc s w with
      | none => onWarp s i fun w => { w with trap := .none, saved := w.saved || w.saving }
      | some pc =>
        match areaWrite s w (trapWrites w f q.record q.rpc area) with
        | .error va =>
          haltWarp (logRecord s q.record) i
            { q.record with
              cls := 6, code := 0x002, res := false, pois := false, addr := BitVec.ofNat 64 va
              info := q.record.words.headD 0 }
        | .ok s =>
          let h : Frag := { id := w.nextFrag, pc := BitVec.ofNat 57 pc, exec := liveLanes w, frag := liveLanes w, handler := true }
          let regs := [(0, splat (BitVec.ofNat 32 area)), (1, splat (BitVec.ofNat 32 (area / 2 ^ 32))),
            (2, splat (q.record.words.headD 0)), (3, splat 0#32)]
          logRecord (onWarp s i fun w =>
            { writeRegs w (BitVec.allOnes 32) 0#32 regs with
              frags := (w.frags.map fun f => { f with held := true }) ++ [h]
              nextFrag := w.nextFrag + 1, mode := 0, flags := 0, kept := q.record, served := some q.frag, trap := .none }) q.record
  | _, _ => s

/-- A fault of the issuing instruction: it enters the handler once register writes and flags are settled, or halts the
warp (R369, R371, R372).  The instruction has made no change. (Log 30: DEDUCED, unsafe.) -/
def raise (c : Cause) (s : State) : State :=
  let w := me s
  let q := trapOf s w (fr s) c (if c.next then nextPc s else (fr s).pc)
  let i := s.cur.warp
  if fatal s w q.record then haltWarp s i q.record
  else
    let s := setMe s { w with trap := some q }
    if settled w then enterTrap s i else s

/-! ## Imprecise faults (R368) -/

/-- The fragment that a pending fault serves: it holds the lowest live lane of the failed operation's FRAG, or else of
the warp. (Log 38: DESIGN CHOICE, unsafe.) -/
def servedBy (w : Warp) (frag : Word) : Option Frag :=
  let lanes := if frag &&& liveLanes w == 0#32 then liveLanes w else frag &&& liveLanes w
  w.frags.find? fun f => !f.handler && inMask f.frag (lowestLane lanes)

/-- A fault detected after issue, left pending at a warp with the time of its detection (R366, R368). -/
def Warp.leave (w : Warp) (now : Nat) (p : Pending) : Warp := { w with pending := w.pending ++ [{ p with time := now }] }

/-- Whether a pending fault needs no settlement before it is taken: it halts the warp (R368, R372). -/
def Pending.halts (p : Pending) (s : State) (w : Warp) : Bool :=
  (servedBy w p.frag).isNone || p.cls == 5 || p.cls == 6 || (handlerPc s w).isNone

/-- Whether a warp's oldest pending fault can be taken: it halts the warp, or the entry's settlement is over (R404). -/
def takable (s : State) (w : Warp) : Bool := settled w || (w.pending.head?).any fun p => p.halts s w

/-- An issue with the causes it may meet: the first cause of R388 is raised, or else the effect happens. -/
def guarded (cs : List Cause) (effect : State) (s : State) : Out :=
  match firstCause cs with
  | none => .next effect
  | some c => .next (raise c s)

/-! ## Ends of fragments and warps (R163, R164) -/

/-- Whether a fragment belongs to a split. -/
def inSplit (id : Nat) (f : Frag) : Bool := f.splits.any fun x => x.id == id

/-- A split whose live members all wait at its JOIN is closed: they fuse into one fragment, which continues after the
JOIN under the identity of the fragment that split (R33, R163). -/
def closeSplit (w : Warp) (id : Nat) : Warp :=
  let ms := w.frags.filter fun f => inSplit id f
  if ms.isEmpty || !ms.all fun f => f.wait == .join id then w
  else
    let f := ms.headD {}
    let m := ms.foldl (fun a f => a ||| f.frag) 0#32
    let x := (f.splits.find? fun x => x.id == id).getD { id := id, join := 0, parent := f.id, favoured := 0 }
    let fused : Frag :=
      { id := x.parent, pc := f.pc + 4#57, exec := m, frag := m, splits := f.splits.filter fun x => x.id != id, handler := f.handler
        acquire := (ms.flatMap (·.acquire)).eraseDups }
    { w with frags := (w.frags.filter fun f => !inSplit id f) ++ [fused] }

/-- Every split of a warp tested for closing, innermost (latest) first. -/
def closeSplits (w : Warp) : Warp :=
  ((w.frags.flatMap fun f => f.splits.map (·.id)).eraseDups).foldl closeSplit w

/-- A fragment's lanes end (R164): its split-table entry is freed and the splits it leaves are tested. -/
def exitFrag (w : Warp) (fid : Nat) : Warp :=
  match fragById w fid with
  | none => w
  | some f => closeSplits { w with exited := w.exited ||| f.frag, frags := w.frags.filter fun g => g.id != fid }

/-- Every lane of a warp exits. -/
def exitAll (w : Warp) : Warp := { w with exited := BitVec.allOnes 32, frags := [], served := .none, trap := .none }

/-! ## ERET (R371) -/

/-- Some words of the trap area, in whole lines, read at core scope; or the address that fails. (Log 169: DEDUCED, unsafe.) -/
def areaWords (s : State) (w : Warp) (va n : Nat) : Except Nat (State × List Lane) :=
  match spotOf s w va .read false with
  | .ok (.mem a) =>
    if (List.range (n / 32)).all fun i => areaAnswers s w (a + 128 * i) 128 then
      .ok ((List.range n).foldl (fun (acc : State × List Lane) i =>
        let (s, bs, bad) := coreRead acc.1 w.core (a + 4 * i) 4 .norm
        (s, acc.2 ++ [if bad then poisoned else clean (wordIn bs 0)])) (s, []))
    else .error va
  | _ => .error va

/-- The values ERET takes from the trap area, all 192 words from offset 0 up to 0x3FF. -/
def readArea (s : State) (w : Warp) (area : Nat) : Except Nat (State × List Lane) :=
  match areaWords s w area 128 with
  | .error a => .error a
  | .ok (s, lo) =>
    match areaWords s w (area + 0x200) 128 with
    | .error a => .error a
    | .ok (s, hi) => .ok (s, lo ++ hi)

/-- The served fragment as ERET resumes it: at the area's RPC, where it still waits for what it waited for if that is its own PC. (Log 39: DEDUCED, unsafe.) -/
def Frag.resumed (f : Frag) (exec : Word) (rpc : Pc) : Frag :=
  { f with exec := exec &&& f.frag, pc := rpc, held := false, wait := if rpc == f.pc then f.wait else .none }

/-- The warp as ERET restores it from the words of its trap area; the handler ends whole.
MODE's bits 23:20 are zero (Table ENC.8); a reserved ET or RM code of the area is taken as it stands. (Log 39: DEDUCED, unsafe; 143: DESIGN CHOICE, unsafe; 152: DESIGN CHOICE, unsafe.) -/
def restored (w : Warp) (area : List Lane) : Warp :=
  let v := fun off => (area.getD (off / 4) {}).val
  let depth := (v 0x58).toNat % 8192
  let keep := w.link.drop (w.link.length - depth)
  let spilled := w.link.length - w.onCore
  let left := min spilled keep.length
  let rows := (List.range 4).map fun i => (i, rowOf fun l => area.getD (128 + 32 * i + l) {})
  let toks := (List.range 8).map fun n =>
    ({ addr := pairOf (v (0x60 + 16 * n)) (v (0x64 + 16 * n)), held := (v (0x68 + 16 * n)).getLsbD 0
       scope := (w.tokens.getD n {}).scope } : Token)
  let w := writeRegs w (BitVec.allOnes 32) 0#32 rows
  { w with
    link := keep, onCore := keep.length - left, spill := w.spill - BitVec.ofNat 64 (16 * (spilled - left)), tokens := toks
    mode := ((v 0x50).extractLsb' 0 20).zeroExtend 24, flags := (v 0x54).extractLsb' 0 5
    served := .none
    frags := (w.frags.filter fun f => !f.handler).map fun f =>
      if some f.id == w.served then f.resumed (v 0x48) ((pairOf (v 0x40) (v 0x44)).extractLsb' 0 57)
      else { f with held := false } }

/-- The registrations of a warp whose fragments no longer wait for them, given up. -/
def dropStale (s : State) (i : Nat) : State :=
  let w := s.warps.getD i {}
  dropWaiters s fun x => w.registered x && !((fragById w x.frag).any fun f => f.wait == .lock x.word)

/-- The return from a trap handler (R371), for the issuing fragment. (Log 39: DEDUCED, unsafe.) -/
def returnFromTrap (s : State) : State :=
  let w := me s
  let f := fr s
  let i := s.cur.warp
  if !f.handler then setMe s (exitAll w)
  else
    let area := trapArea s w
    match readArea s w area with
    | .error va =>
      haltWarp s i { recordOf s w f.frag f.pc { cls := 6, code := 0x003, addr := BitVec.ofNat 64 va } with
        info := w.kept.words.headD 0 }
    | .ok (s, ws) =>
      if !(ws.getD 0 {}).val.getLsbD 14 then setMe s (exitAll w)
      else leaveReleased (dropStale (setMe s (restored (me s) ws)) i) i

/-- The firmware of a unit. -/
def fwOf (s : State) (u : FwUnit) : Fw := ((s.fw.find? fun x => x.1 == u).map (·.2)).getD {}

end Sys2Proof.Machine
end

