-- ==== Sys2Proof/Machine/Operands.lean ====
section
/-! DEFINITION. Operand forms: the registers that an instruction names, as the scoreboard sees them (R158, R111), the
immediates and displacements of Table ENC.5 with a prefix's X5 (R115), and the fourth operand (R121). -/

namespace Sys2Proof.Machine

open Sys2Proof

/-- The registers a prefix names: the guard, and C with `n` registers where the word reads it (R121). -/
def pfxRegs (p : Option Pfx) (n : Nat) : List Nat :=
  match p with
  | none => []
  | some x => (if x.gv then [x.g.toNat] else []) ++ regRun x.c.toNat n

/-- The registers an instruction reads or writes, as its word names them. -/
def namedRegs : Instr → List Nat
  | .nop => []
  | .br _ _ _ => []
  | .brc _ c _ _ => [c.toNat]
  | .brz _ c _ _ => [c.toNat]
  | .call _ _ _ => []
  | .calli a => [a.toNat]
  | .ret => []
  | .join => []
  | .exitw => []
  | .yield => []
  | .sleep _ => []
  | .trap _ => []
  | .brx i _ => [i.toNat]
  | .setmode _ => []
  | .ipref _ _ => []
  | .add p d a b => [d.toNat] ++ [a.toNat] ++ [b.toNat] ++ pfxRegs p 0
  | .sub p d a b => [d.toNat] ++ [a.toNat] ++ [b.toNat] ++ pfxRegs p 0
  | .mul p d a b => [d.toNat] ++ [a.toNat] ++ [b.toNat] ++ pfxRegs p 0
  | .mulh p d a b => [d.toNat] ++ [a.toNat] ++ [b.toNat] ++ pfxRegs p 0
  | .mad p d a b => [d.toNat] ++ [a.toNat] ++ [b.toNat] ++ pfxRegs p 1
  | .iand p d a b => [d.toNat] ++ [a.toNat] ++ [b.toNat] ++ pfxRegs p 0
  | .ior p d a b => [d.toNat] ++ [a.toNat] ++ [b.toNat] ++ pfxRegs p 0
  | .ixor p d a b => [d.toNat] ++ [a.toNat] ++ [b.toNat] ++ pfxRegs p 0
  | .shl p d a b => [d.toNat] ++ [a.toNat] ++ [b.toNat] ++ pfxRegs p 0
  | .shr p d a b => [d.toNat] ++ [a.toNat] ++ [b.toNat] ++ pfxRegs p 0
  | .sar p d a b => [d.toNat] ++ [a.toNat] ++ [b.toNat] ++ pfxRegs p 0
  | .imin p d a b => [d.toNat] ++ [a.toNat] ++ [b.toNat] ++ pfxRegs p 0
  | .imax p d a b => [d.toNat] ++ [a.toNat] ++ [b.toNat] ++ pfxRegs p 0
  | .sel p d a b => [d.toNat] ++ [a.toNat] ++ [b.toNat] ++ pfxRegs p 1
  | .iabs p d a => [d.toNat] ++ [a.toNat] ++ pfxRegs p 0
  | .ineg p d a => [d.toNat] ++ [a.toNat] ++ pfxRegs p 0
  | .cmpeq p d a b => [d.toNat] ++ [a.toNat] ++ [b.toNat] ++ pfxRegs p 0
  | .cmpne p d a b => [d.toNat] ++ [a.toNat] ++ [b.toNat] ++ pfxRegs p 0
  | .cmplt p d a b => [d.toNat] ++ [a.toNat] ++ [b.toNat] ++ pfxRegs p 0
  | .cmple p d a b => [d.toNat] ++ [a.toNat] ++ [b.toNat] ++ pfxRegs p 0
  | .clz p d a => [d.toNat] ++ [a.toNat] ++ pfxRegs p 0
  | .popc p d a => [d.toNat] ++ [a.toNat] ++ pfxRegs p 0
  | .brev p d a => [d.toNat] ++ [a.toNat] ++ pfxRegs p 0
  | .bfx p d a b => [d.toNat] ++ [a.toNat] ++ [b.toNat] ++ pfxRegs p 0
  | .bfi p d a b => [d.toNat] ++ [a.toNat] ++ [b.toNat] ++ pfxRegs p 1
  | .prmt p d a b => [d.toNat] ++ [a.toNat] ++ [b.toNat] ++ pfxRegs p 0
  | .dp4 p d a b => [d.toNat] ++ [a.toNat] ++ [b.toNat] ++ pfxRegs p 1
  | .dp4s p d a b => [d.toNat] ++ [a.toNat] ++ [b.toNat] ++ pfxRegs p 1
  | .dp2 p d a b => [d.toNat] ++ [a.toNat] ++ [b.toNat] ++ pfxRegs p 1
  | .dp2s p d a b => [d.toNat] ++ [a.toNat] ++ [b.toNat] ++ pfxRegs p 1
  | .mov p d a => [d.toNat] ++ [a.toNat] ++ pfxRegs p 0
  | .inot p d a => [d.toNat] ++ [a.toNat] ++ pfxRegs p 0
  | .addi p d a _ => [d.toNat] ++ [a.toNat] ++ pfxRegs p 0
  | .andi p d a _ => [d.toNat] ++ [a.toNat] ++ pfxRegs p 0
  | .ori p d a _ => [d.toNat] ++ [a.toNat] ++ pfxRegs p 0
  | .xori p d a _ => [d.toNat] ++ [a.toNat] ++ pfxRegs p 0
  | .shli p d a _ => [d.toNat] ++ [a.toNat] ++ pfxRegs p 0
  | .shri p d a _ => [d.toNat] ++ [a.toNat] ++ pfxRegs p 0
  | .sari p d a _ => [d.toNat] ++ [a.toNat] ++ pfxRegs p 0
  | .muli p d a _ => [d.toNat] ++ [a.toNat] ++ pfxRegs p 0
  | .cmpeqi p d a _ => [d.toNat] ++ [a.toNat] ++ pfxRegs p 0
  | .cmplti p d a _ => [d.toNat] ++ [a.toNat] ++ pfxRegs p 0
  | .movi p d _ => [d.toNat] ++ pfxRegs p 0
  | .movhi p d _ => [d.toNat] ++ pfxRegs p 0
  | .movx p d i => (if specialPair i then regRun d.toNat 2 else [d.toNat]) ++ pfxRegs p 0
  | .xmov p a _ => [a.toNat] ++ pfxRegs p 0
  | .movrd p d i => [d.toNat] ++ [i.toNat] ++ pfxRegs p 0
  | .movrw p s i => [s.toNat] ++ [i.toNat] ++ pfxRegs p 0
  | .add64 p d a b => regRun d.toNat 2 ++ regRun a.toNat 2 ++ regRun b.toNat 2 ++ pfxRegs p 0
  | .add64w p d a b => regRun d.toNat 2 ++ regRun a.toNat 2 ++ [b.toNat] ++ pfxRegs p 0
  | .sub64 p d a b => regRun d.toNat 2 ++ regRun a.toNat 2 ++ regRun b.toNat 2 ++ pfxRegs p 0
  | .addi64 p d a _ => regRun d.toNat 2 ++ regRun a.toNat 2 ++ pfxRegs p 0
  | .lea4 p d a b => regRun d.toNat 2 ++ regRun a.toNat 2 ++ [b.toNat] ++ pfxRegs p 0
  | .lea8 p d a b => regRun d.toNat 2 ++ regRun a.toNat 2 ++ [b.toNat] ++ pfxRegs p 0
  | .lea16 p d a b => regRun d.toNat 2 ++ regRun a.toNat 2 ++ [b.toNat] ++ pfxRegs p 0
  | .mov64 p d a => regRun d.toNat 2 ++ regRun a.toNat 2 ++ pfxRegs p 0
  | .wmul p d a b => regRun d.toNat 2 ++ [a.toNat] ++ [b.toNat] ++ pfxRegs p 0
  | .wmad p d a b => regRun d.toNat 2 ++ [a.toNat] ++ [b.toNat] ++ pfxRegs p 2
  | .shl64 p d a b => regRun d.toNat 2 ++ regRun a.toNat 2 ++ [b.toNat] ++ pfxRegs p 0
  | .shr64 p d a b => regRun d.toNat 2 ++ regRun a.toNat 2 ++ [b.toNat] ++ pfxRegs p 0
  | .cmplt64 p d a b => [d.toNat] ++ regRun a.toNat 2 ++ regRun b.toNat 2 ++ pfxRegs p 0
  | .chkb d _ _ _ => regRun d.toNat 2
  | .chkr d _ => [d.toNat]
  | .chka d _ _ _ => [d.toNat]
  | .fadd p d a b => [d.toNat] ++ [a.toNat] ++ [b.toNat] ++ pfxRegs p 0
  | .fsub p d a b => [d.toNat] ++ [a.toNat] ++ [b.toNat] ++ pfxRegs p 0
  | .fmul p d a b => [d.toNat] ++ [a.toNat] ++ [b.toNat] ++ pfxRegs p 0
  | .ffma p d a b => [d.toNat] ++ [a.toNat] ++ [b.toNat] ++ pfxRegs p 1
  | .fmin p d a b => [d.toNat] ++ [a.toNat] ++ [b.toNat] ++ pfxRegs p 0
  | .fmax p d a b => [d.toNat] ++ [a.toNat] ++ [b.toNat] ++ pfxRegs p 0
  | .fminn p d a b => [d.toNat] ++ [a.toNat] ++ [b.toNat] ++ pfxRegs p 0
  | .fmaxn p d a b => [d.toNat] ++ [a.toNat] ++ [b.toNat] ++ pfxRegs p 0
  | .fcmpeq p d a b => [d.toNat] ++ [a.toNat] ++ [b.toNat] ++ pfxRegs p 0
  | .fcmplt p d a b => [d.toNat] ++ [a.toNat] ++ [b.toNat] ++ pfxRegs p 0
  | .fcmple p d a b => [d.toNat] ++ [a.toNat] ++ [b.toNat] ++ pfxRegs p 0
  | .fcmpun p d a b => [d.toNat] ++ [a.toNat] ++ [b.toNat] ++ pfxRegs p 0
  | .fabs p d a => [d.toNat] ++ [a.toNat] ++ pfxRegs p 0
  | .fneg p d a => [d.toNat] ++ [a.toNat] ++ pfxRegs p 0
  | .fclass p d a => [d.toNat] ++ [a.toNat] ++ pfxRegs p 0
  | .fscale p d a b => [d.toNat] ++ [a.toNat] ++ [b.toNat] ++ pfxRegs p 0
  | .frcp p d a => [d.toNat] ++ [a.toNat] ++ pfxRegs p 0
  | .frsq p d a => [d.toNat] ++ [a.toNat] ++ pfxRegs p 0
  | .fsqrt p d a => [d.toNat] ++ [a.toNat] ++ pfxRegs p 0
  | .fexp2 p d a => [d.toNat] ++ [a.toNat] ++ pfxRegs p 0
  | .flog2 p d a => [d.toNat] ++ [a.toNat] ++ pfxRegs p 0
  | .fsin p d a => [d.toNat] ++ [a.toNat] ++ pfxRegs p 0
  | .fcos p d a => [d.toNat] ++ [a.toNat] ++ pfxRegs p 0
  | .ftanh p d a => [d.toNat] ++ [a.toNat] ++ pfxRegs p 0
  | .frnd p d a => [d.toNat] ++ [a.toNat] ++ pfxRegs p 0
  | .fdot2 p d a b => [d.toNat] ++ [a.toNat] ++ [b.toNat] ++ pfxRegs p 1
  | .cvtf p d a _ v => [d.toNat] ++ (if v.toNat < 2 then regRun a.toNat 2 else [a.toNat]) ++ pfxRegs p 0
  | .cvtfi p d a _ _ => [d.toNat] ++ [a.toNat] ++ pfxRegs p 0
  | .cvtif p d a _ _ => [d.toNat] ++ [a.toNat] ++ pfxRegs p 0
  | .cvtn p d a _ _ v => [d.toNat] ++ regRun a.toNat (packLen v) ++ pfxRegs p 0
  | .cvtw p d a _ _ v => regRun d.toNat (packLen v) ++ [a.toNat] ++ pfxRegs p 0
  | .shfl p d a b => [d.toNat] ++ [a.toNat] ++ [b.toNat] ++ pfxRegs p 0
  | .shflup p d a b => [d.toNat] ++ [a.toNat] ++ [b.toNat] ++ pfxRegs p 0
  | .shfldn p d a b => [d.toNat] ++ [a.toNat] ++ [b.toNat] ++ pfxRegs p 0
  | .shflx p d a b => [d.toNat] ++ [a.toNat] ++ [b.toNat] ++ pfxRegs p 0
  | .vall p d a => [d.toNat] ++ [a.toNat] ++ pfxRegs p 0
  | .vany p d a => [d.toNat] ++ [a.toNat] ++ pfxRegs p 0
  | .ballot p d a => [d.toNat] ++ [a.toNat] ++ pfxRegs p 0
  | .redadd p d a => [d.toNat] ++ [a.toNat] ++ pfxRegs p 0
  | .redmin p d a => [d.toNat] ++ [a.toNat] ++ pfxRegs p 0
  | .redmax p d a => [d.toNat] ++ [a.toNat] ++ pfxRegs p 0
  | .redand p d a => [d.toNat] ++ [a.toNat] ++ pfxRegs p 0
  | .redor p d a => [d.toNat] ++ [a.toNat] ++ pfxRegs p 0
  | .scan p d a _ _ => [d.toNat] ++ [a.toNat] ++ pfxRegs p 0
  | .elect p d => [d.toNat] ++ pfxRegs p 0
  | .matchv p d a => [d.toNat] ++ [a.toNat] ++ pfxRegs p 0
  | .xchg d s _ n => regRun d.toNat (n.toNat + 1) ++ regRun s.toNat (n.toNat + 1)
  | .ldb p d a _ => [d.toNat] ++ regRun a.toNat 2 ++ pfxRegs p 0
  | .ldbs p d a _ => [d.toNat] ++ regRun a.toNat 2 ++ pfxRegs p 0
  | .ldh p d a _ => [d.toNat] ++ regRun a.toNat 2 ++ pfxRegs p 0
  | .ldhs p d a _ => [d.toNat] ++ regRun a.toNat 2 ++ pfxRegs p 0
  | .ldw p d a _ => [d.toNat] ++ regRun a.toNat 2 ++ pfxRegs p 0
  | .ldd p d a _ => regRun d.toNat 2 ++ regRun a.toNat 2 ++ pfxRegs p 0
  | .ldq p d a _ => regRun d.toNat 4 ++ regRun a.toNat 2 ++ pfxRegs p 0
  | .stb p d a _ => [d.toNat] ++ regRun a.toNat 2 ++ pfxRegs p 0
  | .sth p d a _ => [d.toNat] ++ regRun a.toNat 2 ++ pfxRegs p 0
  | .stw p d a _ => [d.toNat] ++ regRun a.toNat 2 ++ pfxRegs p 0
  | .std p d a _ => regRun d.toNat 2 ++ regRun a.toNat 2 ++ pfxRegs p 0
  | .stq p d a _ => regRun d.toNat 4 ++ regRun a.toNat 2 ++ pfxRegs p 0
  | .ldwr p d a _ => [d.toNat] ++ regRun a.toNat 2 ++ pfxRegs p 0
  | .ldqr p d a _ => regRun d.toNat 4 ++ regRun a.toNat 2 ++ pfxRegs p 0
  | .stnt p d a _ => [d.toNat] ++ regRun a.toNat 2 ++ pfxRegs p 0
  | .prefL1 p a _ => regRun a.toNat 2 ++ pfxRegs p 0
  | .prefHome p a _ => regRun a.toNat 2 ++ pfxRegs p 0
  | .ldacq p d a _ _ => [d.toNat] ++ regRun a.toNat 2 ++ pfxRegs p 0
  | .strel p d a _ _ => [d.toNat] ++ regRun a.toNat 2 ++ pfxRegs p 0
  | .fence _ _ => []
  | .lds p d a _ => [d.toNat] ++ [a.toNat] ++ pfxRegs p 0
  | .sts p d a _ => [d.toNat] ++ [a.toNat] ++ pfxRegs p 0
  | .ldsq p d a _ => regRun d.toNat 4 ++ [a.toNat] ++ pfxRegs p 0
  | .stsq p d a _ => regRun d.toNat 4 ++ [a.toNat] ++ pfxRegs p 0
  | .ldm d a n => regRun d.toNat (n.toNat + 1) ++ regRun a.toNat 2
  | .stm d a n => regRun d.toNat (n.toNat + 1) ++ regRun a.toNat 2
  | .lock _ a _ => regRun a.toNat 2
  | .unlock _ a _ => regRun a.toNat 2
  | .aadd p d a _ _ => [d.toNat] ++ regRun a.toNat 2 ++ pfxRegs p 0
  | .amin p d a _ _ => [d.toNat] ++ regRun a.toNat 2 ++ pfxRegs p 0
  | .amax p d a _ _ => [d.toNat] ++ regRun a.toNat 2 ++ pfxRegs p 0
  | .aand p d a _ _ => [d.toNat] ++ regRun a.toNat 2 ++ pfxRegs p 0
  | .aor p d a _ _ => [d.toNat] ++ regRun a.toNat 2 ++ pfxRegs p 0
  | .axor p d a _ _ => [d.toNat] ++ regRun a.toNat 2 ++ pfxRegs p 0
  | .axchg p d a _ _ => [d.toNat] ++ regRun a.toNat 2 ++ pfxRegs p 0
  | .acas p d a _ _ => [d.toNat] ++ regRun a.toNat 2 ++ pfxRegs p 1
  | .ainc p d a _ _ => [d.toNat] ++ regRun a.toNat 2 ++ pfxRegs p 0
  | .afadd p d a _ _ => [d.toNat] ++ regRun a.toNat 2 ++ pfxRegs p 0
  | .afadd2 p d a _ _ => [d.toNat] ++ regRun a.toNat 2 ++ pfxRegs p 0
  | .aadd64 p d a _ _ => regRun d.toNat 2 ++ regRun a.toNat 2 ++ pfxRegs p 0
  | .acas64 p d a _ _ => regRun d.toNat 2 ++ regRun a.toNat 2 ++ pfxRegs p 2
  | .sadd p d a _ _ => [d.toNat] ++ [a.toNat] ++ pfxRegs p 0
  | .scas p d a _ _ => [d.toNat] ++ [a.toNat] ++ pfxRegs p 1
  | .sxchg p d a _ _ => [d.toNat] ++ [a.toNat] ++ pfxRegs p 0
  | .bar d b _ => [d.toNat] ++ [b.toNat]
  | .bararv b _ => [b.toNat]
  | .barwt d b _ => [d.toNat] ++ [b.toNat]
  | .barexp n b _ => [n.toNat] ++ [b.toNat]
  | .waitc _ _ _ _ => []
  | .waitr a => [a.toNat]
  | .hwait a _ _ => [a.toNat]
  | .hsetFree h b _ => [h.toNat] ++ [b.toNat]
  | .hsetFull h b _ => [h.toNat] ++ [b.toNat]
  | .hsetRel h => [h.toNat]
  | .hsetFill h => [h.toNat]
  | .ringadvNew d a _ => [d.toNat] ++ [a.toNat]
  | .ringadv d a => [d.toNat] ++ [a.toNat]
  | .copy d a b => regRun d.toNat 2 ++ regRun a.toNat 2 ++ regRun b.toNat 2
  | .copym d a b => regRun d.toNat 2 ++ regRun a.toNat 2 ++ regRun b.toNat 2
  | .copys d a b => regRun d.toNat 2 ++ regRun a.toNat 2 ++ regRun b.toNat 4
  | .launch d a => [d.toNat] ++ regRun a.toNat 2
  | .job d a => [d.toNat] ++ regRun a.toNat 2
  | .jobwt a => [a.toNat]
  | .tbld s _ _ _ _ => [s.toNat]
  | .tmma c a _ _ _ => [c.toNat] ++ regRun a.toNat 16
  | .tmmab c a _ _ _ => [c.toNat] ++ regRun a.toNat 16
  | .tmmap c a _ _ _ => [c.toNat] ++ regRun a.toNat 16
  | .taccz c _ _ => [c.toNat]
  | .taccld d c _ _ => regRun d.toNat 2 ++ [c.toNat]
  | .taccst s c _ _ => [s.toNat] ++ [c.toNat]
  | .trel => []
  | .trelArray => []
  | .clock d => regRun d.toNat 2
  | .perf d _ => [d.toNat]
  | .eret => []
  | .traprd d _ => [d.toNat]
  | .segq d a => regRun d.toNat 2 ++ regRun a.toNat 2
  | .bkpt _ => []
  | .sleepExpiry _ _ _ => []
  | .warpEnd _ _ => []
  | .loadReply _ => []
  | .storePerformed _ => []
  | .lockHandoverReply _ _ _ => []
  | .lockRetry _ _ _ => []
  | .lockWaiterWake _ => []
  | .copyAccept _ => []
  | .copyLinePerformed _ _ => []
  | .copyComplete _ => []
  | .mergeEntryClose _ => []
  | .xchgMatch _ _ _ _ => []
  | .tbldLatch _ _ => []
  | .tileRetire _ _ => []
  | .tmmapFollowerTimeout _ => []
  | .jobComplete _ => []
  | .linkStackRefill _ _ => []
  | .comparisonPoint _ => []
  | .redundantWaitTimeout _ => []
  | .translationWalkComplete _ _ _ => []
  | .remoteTimeout _ => []
  | .demandFetch _ _ _ => []
  | .fetchAhead _ _ _ => []
  | .trapEntry _ _ => []
  | .impreciseFaultTake _ _ => []
  | .faultLogAck => []
  | .quantumExpiry _ => []
  | .teamPlace _ => []
  | .dieAdvertise _ => []
  | .migrationMessage _ => []
  | .migrationConfirmTimeout _ => []
  | .taskComplete _ => []
  | .kick _ _ => []
  | .queueEnWrite _ _ => []
  | .lapReread _ => []
  | .queueLapTimeout _ => []
  | .packetNop _ => []
  | .packetLaunch _ => []
  | .packetJob _ => []
  | .packetFence _ => []
  | .packetSignal _ => []
  | .packetWaitev _ => []
  | .waitevReread _ => []
  | .msixUnmask _ _ => []
  | .aduKick _ => []
  | .aduSlotReread _ => []
  | .aduRequestConsume _ => []
  | .admissionComplete _ => []
  | .worldSet => []
  | .map2 => []
  | .unmap2 => []
  | .inval => []
  | .teardown => []
  | .ploughPageClean _ => []
  | .ploughTimeout _ => []
  | .ploughRestart _ => []
  | .geninc _ => []
  | .vdevRegWrite _ _ _ => []
  | .vdevDisable _ => []
  | .vfEnableClear => []
  | .dbgenWrite _ => []
  | .resume _ => []
  | .faultLogEnable _ => []
  | .registerWrite _ _ _ => []
  | .hostWindowAccess _ _ _ _ => []
  | .sessionLockWrite _ _ => []
  | .sessionTimeout => []
  | .readLife _ => []
  | .readState _ _ => []
  | .stageFw _ _ => []
  | .activateFw _ => []
  | .fwUnitMove _ _ => []
  | .lifetimeAccumulate _ => []
  | .lifetimeCommit => []
  | .orderlyShutdown => []
  | .getVersion _ => []
  | .getCapabilities _ => []
  | .negotiateAlgorithms _ => []
  | .getDigests _ => []
  | .getCertificate _ => []
  | .challenge _ => []
  | .getMeasurements _ => []
  | .keyExchange _ => []
  | .finish _ => []
  | .endSession _ => []
  | .coldReset => []
  | .functionLevelReset => []
  | .hotReset => []
  | .mctpEndpointLoss _ => []
  | .securityCoreRestart _ => []
  | .dieTrained _ => []
  | .linkTrained _ _ => []
  | .trainingDeadline => []
  | .structureError _ => []
  | .packetTagFailure _ => []
  | .linkRetrain _ => []
  | .replicaPin _ => []
  | .sledInject _ => []
  | .sledSteer _ => []
  | .sledAccept _ => []
  | .ringRefill _ => []
  | .sledAdmit _ => []
  | .replicationWatch _ _ => []
  | .sledTimeout _ => []
  | .hostMemoryAccess _ => []
  | .scoreboardRelease _ _ _ => []
  | .entryCacheFill _ _ => []
  | .linkRetrainDone _ _ => []
  | .secondStageBuilt => []
  | .testStart => []
  | .powerLoss => []

/-- The registers an instruction writes, as its word names them. -/
def writtenRegs : Instr → List Nat
  | .nop => []
  | .br _ _ _ => []
  | .brc _ _ _ _ => []
  | .brz _ _ _ _ => []
  | .call _ _ _ => []
  | .calli _ => []
  | .ret => [254, 255]
  | .join => []
  | .exitw => []
  | .yield => []
  | .sleep _ => []
  | .trap _ => []
  | .brx _ _ => []
  | .setmode _ => []
  | .ipref _ _ => []
  | .add _ d _ _ => [d.toNat]
  | .sub _ d _ _ => [d.toNat]
  | .mul _ d _ _ => [d.toNat]
  | .mulh _ d _ _ => [d.toNat]
  | .mad _ d _ _ => [d.toNat]
  | .iand _ d _ _ => [d.toNat]
  | .ior _ d _ _ => [d.toNat]
  | .ixor _ d _ _ => [d.toNat]
  | .shl _ d _ _ => [d.toNat]
  | .shr _ d _ _ => [d.toNat]
  | .sar _ d _ _ => [d.toNat]
  | .imin _ d _ _ => [d.toNat]
  | .imax _ d _ _ => [d.toNat]
  | .sel _ d _ _ => [d.toNat]
  | .iabs _ d _ => [d.toNat]
  | .ineg _ d _ => [d.toNat]
  | .cmpeq _ d _ _ => [d.toNat]
  | .cmpne _ d _ _ => [d.toNat]
  | .cmplt _ d _ _ => [d.toNat]
  | .cmple _ d _ _ => [d.toNat]
  | .clz _ d _ => [d.toNat]
  | .popc _ d _ => [d.toNat]
  | .brev _ d _ => [d.toNat]
  | .bfx _ d _ _ => [d.toNat]
  | .bfi _ d _ _ => [d.toNat]
  | .prmt _ d _ _ => [d.toNat]
  | .dp4 _ d _ _ => [d.toNat]
  | .dp4s _ d _ _ => [d.toNat]
  | .dp2 _ d _ _ => [d.toNat]
  | .dp2s _ d _ _ => [d.toNat]
  | .mov _ d _ => [d.toNat]
  | .inot _ d _ => [d.toNat]
  | .addi _ d _ _ => [d.toNat]
  | .andi _ d _ _ => [d.toNat]
  | .ori _ d _ _ => [d.toNat]
  | .xori _ d _ _ => [d.toNat]
  | .shli _ d _ _ => [d.toNat]
  | .shri _ d _ _ => [d.toNat]
  | .sari _ d _ _ => [d.toNat]
  | .muli _ d _ _ => [d.toNat]
  | .cmpeqi _ d _ _ => [d.toNat]
  | .cmplti _ d _ _ => [d.toNat]
  | .movi _ d _ => [d.toNat]
  | .movhi _ d _ => [d.toNat]
  | .movx _ d i => (if specialPair i then regRun d.toNat 2 else [d.toNat])
  | .xmov _ _ _ => []
  | .movrd _ d _ => [d.toNat]
  | .movrw _ _ _ => []
  | .add64 _ d _ _ => regRun d.toNat 2
  | .add64w _ d _ _ => regRun d.toNat 2
  | .sub64 _ d _ _ => regRun d.toNat 2
  | .addi64 _ d _ _ => regRun d.toNat 2
  | .lea4 _ d _ _ => regRun d.toNat 2
  | .lea8 _ d _ _ => regRun d.toNat 2
  | .lea16 _ d _ _ => regRun d.toNat 2
  | .mov64 _ d _ => regRun d.toNat 2
  | .wmul _ d _ _ => regRun d.toNat 2
  | .wmad _ d _ _ => regRun d.toNat 2
  | .shl64 _ d _ _ => regRun d.toNat 2
  | .shr64 _ d _ _ => regRun d.toNat 2
  | .cmplt64 _ d _ _ => [d.toNat]
  | .chkb _ _ _ _ => []
  | .chkr _ _ => []
  | .chka _ _ _ _ => []
  | .fadd _ d _ _ => [d.toNat]
  | .fsub _ d _ _ => [d.toNat]
  | .fmul _ d _ _ => [d.toNat]
  | .ffma _ d _ _ => [d.toNat]
  | .fmin _ d _ _ => [d.toNat]
  | .fmax _ d _ _ => [d.toNat]
  | .fminn _ d _ _ => [d.toNat]
  | .fmaxn _ d _ _ => [d.toNat]
  | .fcmpeq _ d _ _ => [d.toNat]
  | .fcmplt _ d _ _ => [d.toNat]
  | .fcmple _ d _ _ => [d.toNat]
  | .fcmpun _ d _ _ => [d.toNat]
  | .fabs _ d _ => [d.toNat]
  | .fneg _ d _ => [d.toNat]
  | .fclass _ d _ => [d.toNat]
  | .fscale _ d _ _ => [d.toNat]
  | .frcp _ d _ => [d.toNat]
  | .frsq _ d _ => [d.toNat]
  | .fsqrt _ d _ => [d.toNat]
  | .fexp2 _ d _ => [d.toNat]
  | .flog2 _ d _ => [d.toNat]
  | .fsin _ d _ => [d.toNat]
  | .fcos _ d _ => [d.toNat]
  | .ftanh _ d _ => [d.toNat]
  | .frnd _ d _ => [d.toNat]
  | .fdot2 _ d _ _ => [d.toNat]
  | .cvtf _ d _ _ _ => [d.toNat]
  | .cvtfi _ d _ _ _ => [d.toNat]
  | .cvtif _ d _ _ _ => [d.toNat]
  | .cvtn _ d _ _ _ _ => [d.toNat]
  | .cvtw _ d _ _ _ v => regRun d.toNat (packLen v)
  | .shfl _ d _ _ => [d.toNat]
  | .shflup _ d _ _ => [d.toNat]
  | .shfldn _ d _ _ => [d.toNat]
  | .shflx _ d _ _ => [d.toNat]
  | .vall _ d _ => [d.toNat]
  | .vany _ d _ => [d.toNat]
  | .ballot _ d _ => [d.toNat]
  | .redadd _ d _ => [d.toNat]
  | .redmin _ d _ => [d.toNat]
  | .redmax _ d _ => [d.toNat]
  | .redand _ d _ => [d.toNat]
  | .redor _ d _ => [d.toNat]
  | .scan _ d _ _ _ => [d.toNat]
  | .elect _ d => [d.toNat]
  | .matchv _ d _ => [d.toNat]
  | .xchg d _ _ n => regRun d.toNat (n.toNat + 1)
  | .ldb _ d _ _ => [d.toNat]
  | .ldbs _ d _ _ => [d.toNat]
  | .ldh _ d _ _ => [d.toNat]
  | .ldhs _ d _ _ => [d.toNat]
  | .ldw _ d _ _ => [d.toNat]
  | .ldd _ d _ _ => regRun d.toNat 2
  | .ldq _ d _ _ => regRun d.toNat 4
  | .stb _ _ _ _ => []
  | .sth _ _ _ _ => []
  | .stw _ _ _ _ => []
  | .std _ _ _ _ => []
  | .stq _ _ _ _ => []
  | .ldwr _ d _ _ => [d.toNat]
  | .ldqr _ d _ _ => regRun d.toNat 4
  | .stnt _ _ _ _ => []
  | .prefL1 _ _ _ => []
  | .prefHome _ _ _ => []
  | .ldacq _ d _ _ _ => [d.toNat]
  | .strel _ _ _ _ _ => []
  | .fence _ _ => []
  | .lds _ d _ _ => [d.toNat]
  | .sts _ _ _ _ => []
  | .ldsq _ d _ _ => regRun d.toNat 4
  | .stsq _ _ _ _ => []
  | .ldm d _ n => regRun d.toNat (n.toNat + 1)
  | .stm _ _ _ => []
  | .lock _ _ _ => []
  | .unlock _ _ _ => []
  | .aadd _ d _ _ _ => [d.toNat]
  | .amin _ d _ _ _ => [d.toNat]
  | .amax _ d _ _ _ => [d.toNat]
  | .aand _ d _ _ _ => [d.toNat]
  | .aor _ d _ _ _ => [d.toNat]
  | .axor _ d _ _ _ => [d.toNat]
  | .axchg _ d _ _ _ => [d.toNat]
  | .acas _ d _ _ _ => [d.toNat]
  | .ainc _ d _ _ _ => [d.toNat]
  | .afadd _ d _ _ _ => [d.toNat]
  | .afadd2 _ d _ _ _ => [d.toNat]
  | .aadd64 _ d _ _ _ => regRun d.toNat 2
  | .acas64 _ d _ _ _ => regRun d.toNat 2
  | .sadd _ d _ _ _ => [d.toNat]
  | .scas _ d _ _ _ => [d.toNat]
  | .sxchg _ d _ _ _ => [d.toNat]
  | .bar d _ _ => [d.toNat]
  | .bararv _ _ => []
  | .barwt d _ _ => [d.toNat]
  | .barexp _ _ _ => []
  | .waitc _ _ _ _ => []
  | .waitr _ => []
  | .hwait _ _ _ => []
  | .hsetFree _ _ _ => []
  | .hsetFull _ _ _ => []
  | .hsetRel _ => []
  | .hsetFill _ => []
  | .ringadvNew d _ _ => [d.toNat]
  | .ringadv d _ => [d.toNat]
  | .copy _ _ _ => []
  | .copym _ _ _ => []
  | .copys _ _ _ => []
  | .launch d _ => [d.toNat]
  | .job d _ => [d.toNat]
  | .jobwt _ => []
  | .tbld _ _ _ _ _ => []
  | .tmma _ _ _ _ _ => []
  | .tmmab _ _ _ _ _ => []
  | .tmmap _ _ _ _ _ => []
  | .taccz _ _ _ => []
  | .taccld d _ _ _ => regRun d.toNat 2
  | .taccst _ _ _ _ => []
  | .trel => []
  | .trelArray => []
  | .clock d => regRun d.toNat 2
  | .perf d _ => [d.toNat]
  | .eret => []
  | .traprd d _ => [d.toNat]
  | .segq d _ => regRun d.toNat 2
  | .bkpt _ => []
  | .sleepExpiry _ _ _ => []
  | .warpEnd _ _ => []
  | .loadReply _ => []
  | .storePerformed _ => []
  | .lockHandoverReply _ _ _ => []
  | .lockRetry _ _ _ => []
  | .lockWaiterWake _ => []
  | .copyAccept _ => []
  | .copyLinePerformed _ _ => []
  | .copyComplete _ => []
  | .mergeEntryClose _ => []
  | .xchgMatch _ _ _ _ => []
  | .tbldLatch _ _ => []
  | .tileRetire _ _ => []
  | .tmmapFollowerTimeout _ => []
  | .jobComplete _ => []
  | .linkStackRefill _ _ => []
  | .comparisonPoint _ => []
  | .redundantWaitTimeout _ => []
  | .translationWalkComplete _ _ _ => []
  | .remoteTimeout _ => []
  | .demandFetch _ _ _ => []
  | .fetchAhead _ _ _ => []
  | .trapEntry _ _ => []
  | .impreciseFaultTake _ _ => []
  | .faultLogAck => []
  | .quantumExpiry _ => []
  | .teamPlace _ => []
  | .dieAdvertise _ => []
  | .migrationMessage _ => []
  | .migrationConfirmTimeout _ => []
  | .taskComplete _ => []
  | .kick _ _ => []
  | .queueEnWrite _ _ => []
  | .lapReread _ => []
  | .queueLapTimeout _ => []
  | .packetNop _ => []
  | .packetLaunch _ => []
  | .packetJob _ => []
  | .packetFence _ => []
  | .packetSignal _ => []
  | .packetWaitev _ => []
  | .waitevReread _ => []
  | .msixUnmask _ _ => []
  | .aduKick _ => []
  | .aduSlotReread _ => []
  | .aduRequestConsume _ => []
  | .admissionComplete _ => []
  | .worldSet => []
  | .map2 => []
  | .unmap2 => []
  | .inval => []
  | .teardown => []
  | .ploughPageClean _ => []
  | .ploughTimeout _ => []
  | .ploughRestart _ => []
  | .geninc _ => []
  | .vdevRegWrite _ _ _ => []
  | .vdevDisable _ => []
  | .vfEnableClear => []
  | .dbgenWrite _ => []
  | .resume _ => []
  | .faultLogEnable _ => []
  | .registerWrite _ _ _ => []
  | .hostWindowAccess _ _ _ _ => []
  | .sessionLockWrite _ _ => []
  | .sessionTimeout => []
  | .readLife _ => []
  | .readState _ _ => []
  | .stageFw _ _ => []
  | .activateFw _ => []
  | .fwUnitMove _ _ => []
  | .lifetimeAccumulate _ => []
  | .lifetimeCommit => []
  | .orderlyShutdown => []
  | .getVersion _ => []
  | .getCapabilities _ => []
  | .negotiateAlgorithms _ => []
  | .getDigests _ => []
  | .getCertificate _ => []
  | .challenge _ => []
  | .getMeasurements _ => []
  | .keyExchange _ => []
  | .finish _ => []
  | .endSession _ => []
  | .coldReset => []
  | .functionLevelReset => []
  | .hotReset => []
  | .mctpEndpointLoss _ => []
  | .securityCoreRestart _ => []
  | .dieTrained _ => []
  | .linkTrained _ _ => []
  | .trainingDeadline => []
  | .structureError _ => []
  | .packetTagFailure _ => []
  | .linkRetrain _ => []
  | .replicaPin _ => []
  | .sledInject _ => []
  | .sledSteer _ => []
  | .sledAccept _ => []
  | .ringRefill _ => []
  | .sledAdmit _ => []
  | .replicationWatch _ _ => []
  | .sledTimeout _ => []
  | .hostMemoryAccess _ => []
  | .scoreboardRelease _ _ _ => []
  | .entryCacheFill _ _ => []
  | .linkRetrainDone _ _ => []
  | .secondStageBuilt => []
  | .testStart => []
  | .powerLoss => []

/-- X5 of a prefix; 0 without one. -/
def x5Of (p : Option Pfx) : Nat :=
  match p with
  | none => 0
  | some x => x.x5.toNat

/-- A signed immediate of `n` bits: with a prefix X5 extends it upward and gives the sign (R115). -/
def immSigned {n : Nat} (p : Option Pfx) (i : BitVec n) : Int :=
  match p with
  | none => signExt i.toNat n
  | some x => signExt (x.x5.toNat * 2 ^ n + i.toNat) (n + 5)

/-- A zero-extended immediate (R115). -/
def immZero {n : Nat} (p : Option Pfx) (i : BitVec n) : Nat := x5Of p * 2 ^ n + i.toNat

/-- The fourth operand's register: C with a prefix, the destination without one (R121). -/
def thirdReg (p : Option Pfx) (d : Nat) : Nat :=
  match p with
  | none => d
  | some x => x.c.toNat

/-- A branch or call target: the instruction address plus 4 times the displacement (R116). -/
def branchTarget (pc : Pc) (disp : Int) : Pc := pc + BitVec.ofInt 57 (4 * disp)

/-- A register pair of a warp in one lane (R1). -/
def pairAt (w : Warp) (r l : Nat) : DWord := pairOf (valAt (regOf w r) l) (valAt (regOf w (r + 1)) l)

/-- The address of lane `l` in the MEM plain forms (R201). -/
def addrAt (w : Warp) (a l : Nat) (off : Int) : DWord := pairAt w a l + dwordOf off

/-- The offset of lane `l` in the scratchpad forms (R213). -/
def offAt (w : Warp) (a l : Nat) (off : Int) : Int := ((valAt (regOf w a) l).toNat : Int) + off

/-- The value of a register in the lowest lane of EXEC (R224). -/
def scalarAt (w : Warp) (f : Frag) (r : Nat) : Word := valAt (regOf w r) (lowestLane f.exec)

/-- The value of a pair in the lowest lane of EXEC. -/
def scalarPair (w : Warp) (f : Frag) (r : Nat) : DWord := pairAt w r (lowestLane f.exec)

/-- Poison in the lowest lane of EXEC of some registers (R374): that lane, or no lane. -/
def scalarPoison (w : Warp) (f : Frag) (rs : List Nat) : Word :=
  if f.exec == 0#32 then 0#32 else poisonIn w (BitVec.ofNat 32 (2 ^ lowestLane f.exec)) rs

end Sys2Proof.Machine
end

