-- ==== Sys2Proof/Machine/Issue.lean ====
section
/-! DEFINITION. Which fragment issues (R48, R49, R302), and the words it issues (R418). -/

namespace Sys2Proof.Machine

open Sys2Proof

/-! ## Conditions (R48) -/

/-- A counter at most a WAIT field, where 63 never holds (R29). -/
def within (n field : Nat) : Bool := field == 63 || decide (n ≤ field)

/-- The operations in flight of a warp. (Log 142: DEDUCED, unsafe.) -/
def opsOf (s : State) (w : Warp) : List Op := s.ops.filter fun o => o.team == w.team && o.wid == w.wid

/-- The fragments resident on a core, which hold its split-table entries (R34); trap entry leaves the split table as it
stands, so a handler's first fragment holds none (R369). (Log 143: DESIGN CHOICE, unsafe; 166: DESIGN CHOICE, unsafe.) -/
def splitEntries (s : State) (core : Nat) : Nat :=
  total ((s.warps.filter fun w => w.core == core).map fun w => w.frags.length - if w.frags.any (·.handler) then 1 else 0)

/-- A handle of a team. -/
def handleOf (s : State) (team h : Nat) (follower : Bool) : Handle :=
  (s.handles.find? fun x => x.team == team && x.num == h && x.follower == follower).getD
    { team := team, follower := follower, num := h }

/-- The array, half or pair leader that a team holds (R244). -/
def arrayOf (s : State) (team : Nat) : Option Array := s.arrays.find? fun a => a.team == team && !a.follower

/-- Whether an array, half or pair that a team may claim on its core is free (R38, R254). -/
def claimFree (s : State) (t : Team) : Bool :=
  let l := (taskAt s t.task).launch
  let used := fun c => s.arrays.filter fun a => a.core == c
  if l.half then (used t.core).all (fun a => a.half != 2) && decide ((used t.core).length < 2)
  else if l.pair then (used t.core).isEmpty && (used (t.core + 1)).isEmpty
  else (used t.core).isEmpty

/-- Whether the task that a task word names has completed, or the word names none that can be waited for (R243). (Log 71: DEDUCED, unsafe.) -/
def taskOver (s : State) (word : Word) : Bool :=
  let k := taskAt s (word.toNat % 512)
  let age := k.seq - word.extractLsb' 9 22
  word.getLsbD 31 || k.state == .free || (age != 0 && decide (age.toNat < 2 ^ 21))

/-! ## The tiles that arrays work on (R60, R276) -/

/-- The core of a side of a pair (R252). -/
def sideCore (core : Nat) (follower : Bool) : Nat := if follower then core + 1 else core

/-- Columns of a tile: 64, or 32 under a half launch (R246). -/
def tileCols (l : Launch) : Nat := if l.half then 32 else 64

/-- Bytes of a tile of accumulators. -/
def tileBytes (l : Launch) : Nat := 64 * tileCols l

/-- The machine address of an accumulator offset of a team on a side. (Log 33: DEDUCED, unsafe.) -/
def accPlace (s : State) (a : Array) (follower : Bool) (t : Nat) : Nat :=
  accAddr (sideCore a.core follower) (((teamById s a.team).accBase + t) % 0x400000)

/-- The accumulator bytes, by machine address and length, of the tiles that a tile instruction names. -/
def tileRanges (s : State) (a : Array) (k : TileKind) : List (Nat × Nat) :=
  let n := tileBytes (taskAt s (teamById s a.team).task).launch
  match k with
  | .load .. => []
  | .mma t .. => [(accPlace s a false t, n)]
  | .mmaB t .. => [(accPlace s a false t, n)]
  | .mmaPair t .. => [(accPlace s a false t, n), (accPlace s a true t, n)]
  | .zero t k pair => (accPlace s a false t, k * n) :: (if pair then [(accPlace s a true t, k * n)] else [])
  | .readAcc _ t _ pair _ _ => [(accPlace s a pair t, n)]
  | .store _ _ t pair => [(accPlace s a pair t, n)]
  | .release _ => []

/-- Whether a tile that a queued or executing tile instruction names holds one of `n` bytes from a machine address. (Log 51: DESIGN CHOICE, unsafe.) -/
def tileBusy (s : State) (a n : Nat) : Bool :=
  s.arrays.any fun x => x.queue.any fun o => (tileRanges s x o.kind).any fun r => decide (r.1 < a + n) && decide (a < r.1 + r.2)

/-- Whether a condition holds for a warp. (Log 142: DEDUCED, unsafe.) -/
def holds (s : State) (w : Warp) : Cond → Bool
  | .counter c => decide (w.ctr c < ctrMax c)
  | .atMost ld st cp tl => within w.cntLd ld && within w.cntSt st && within w.cntCp cp && within w.cntTl tl
  | .splitEntry => decide (splitEntries s w.core < 128)
  | .drained stnt => (opsOf s w).all fun o => o.stnt && !stnt
  | .phaseOver bar => (s.barriers.filter fun b => b.id == bar).all fun b => b.abandoned || !b.marks.contains (w.team, w.wid)
  | .handle team h want ph =>
    let ok := fun (x : Handle) => x.state == want && (match ph with
      | none => true
      | some b => x.phase == b)
    -- in a pair launch both entries must hold it (R330)
    ok (handleOf s team h false) && (!(taskAt s (teamById s team).task).launch.pair || ok (handleOf s team h true))
  | .undrained team h =>
    (handleOf s team h false).state != .draining &&
      (!(taskAt s (teamById s team).task).launch.pair || (handleOf s team h true).state != .draining)
  | .copyQueue => decide ((s.copies.filter fun c => c.core == w.core).length < 64)
  | .accepted => s.copies.all fun c => c.core != w.core || c.accepted
  | .arrayQueue => (arrayOf s w.team).all fun a => decide (a.queue.length < 8)
  | .claim => claimFree s (teamOf s w)
  | .task word => taskOver s word
  | .tiles at' size => at'.all fun a => !tileBusy s a size
  | .settled => w.holds.all fun h => !h.flags
  | .quiet => w.holds.isEmpty

/-! ## The words at a PC -/

/-- A word of a core's I-cache or instruction store: the word and whether it carries the poison code. -/
def iWord (s : State) (core world va : Nat) : Option (Word × Bool) :=
  match s.ilines.find? fun x => x.core == core && x.world == world && x.base == va / 64 * 64 with
  | none => none
  | some x => some (x.words.getD (va % 64 / 4) 0, x.poisoned.contains (va % 64 / 4))

/-- What the core holds of the instruction at a PC: the address of the first word it does not hold, or of a poisoned
one, or the words. -/
inductive Peek where
  | absent (va : Nat)
  | poison (va : Nat)
  | words (w : Word) (next : Option Word)
  deriving DecidableEq, Repr

def peek (s : State) (core world va : Nat) : Peek :=
  match iWord s core world va with
  | none => .absent va
  | some (w, bad) =>
    if bad then .poison va
    else if isPfxWord w then
      match iWord s core world (va + 4) with
      | none => .absent (va + 4)
      | some (v, bad) => if bad then .poison (va + 4) else .words w (some v)
    else .words w none

/-- The registers that the scoreboard of a warp holds. -/
def heldRegs (w : Warp) : List Nat := w.holds.flatMap (·.regs)

/-- Whether a word is one of the later accesses that an acquire holds (R211): rows 0x80 to 0xAF, 0xC0 to 0xC5 and 0xD0 to
0xD7. -/
def isAccess (w : Word) : Bool :=
  let op := bitsOf w.toNat 24 8
  (decide (0x80 ≤ op) && decide (op ≤ 0xAF)) || (decide (0xC0 ≤ op) && decide (op ≤ 0xC5)) ||
    (decide (0xD0 ≤ op) && decide (op ≤ 0xD7))

/-- Whether an acquire of the fragment still waits for a value. -/
def acquiring (s : State) (f : Frag) : Bool := s.ops.any fun o => f.acquire.contains o.id

/-- The base register of the A operand that a queued tile instruction has yet to read. -/
def TileOp.aBase (o : TileOp) : Option Nat :=
  match o.kind with
  | .mma _ a _ _ _ => some a
  | .mmaB _ a _ _ _ => some a
  | .mmaPair _ a _ _ _ => some a
  | _ => none

/-- The registers of a warp that its team's array holds from being written: those of a loaded latch and of queued
instructions (R249). -/
def latchedRegs (s : State) (w : Warp) : List Nat :=
  (s.arrays.filter fun a => a.team == w.team).flatMap fun a =>
    (match a.latch with
      | some x => if x.wid == w.wid then regRun x.a 16 else []
      | none => []) ++
    (a.queue.filter fun o => o.wid == w.wid).flatMap fun o => match o.aBase with
      | some r => regRun r 16
      | none => []

/-- Whether a word's instruction takes Active() as its lane set, and so reads the guard in force: every row but 0x and 0xB0 to 0xE5,
the checks, XCHG, LDM, STM, LOCK, UNLOCK and FENCE (R125). -/
def takesGuard (w : Word) : Bool :=
  let op := bitsOf w.toNat 24 8
  decide (0x10 ≤ op) && decide (op < 0xB0) && !([0x4D, 0x4E, 0x4F, 0x7F, 0x92, 0x97, 0x98, 0x99, 0x9A].contains op)

/-- The registers that a register's lanes name by index, in the lanes that an instruction takes (R176). -/
def indexedRegs (p : Option Pfx) (w : Warp) (f : Frag) (i : Nat) : List Nat :=
  ((lanesOf (active p w f)).map fun l => (valAt (regOf w i) l).toNat).eraseDups

/-- The registers that an instruction reads or writes beside those its word names: the stack pointer pair of a call or return (R162),
and registers moved by index (R176). -/
def impliedRegs (w : Warp) (f : Frag) : Instr → List Nat
  | .call .. => [254, 255]
  | .calli .. => [254, 255]
  | .ret => [254, 255]
  | .movrd p _ i => indexedRegs p w f i.toNat
  | .movrw p _ i => indexedRegs p w f i.toNat
  | _ => []

/-- Of those, the ones that it writes. -/
def impliedWrites (w : Warp) (f : Frag) : Instr → List Nat
  | .movrw p _ i => indexedRegs p w f i.toNat
  | _ => []

/-- Whether the queue of the engine that an instruction needs has room (R302). -/
def engineFree (s : State) (w : Warp) : Word → Bool := fun x =>
  let op := bitsOf x.toNat 24 8
  if decide (0xC0 ≤ op) && decide (op ≤ 0xC2) then holds s w .copyQueue
  else if decide (0xD0 ≤ op) && decide (op ≤ 0xD7) then holds s w .arrayQueue
  else true

/-- Whether the scoreboard lets a fragment's next instruction issue (R48, R158, R174). -/
def scoreboardFree (s : State) (w : Warp) (f : Frag) : Bool :=
  match peek s w.core (launchOf s w).world f.pc.toNat with
  | .words x next =>
    match decodePair x next with
    | .error _ => true
    | .ok i =>
      let guards := if takesGuard (next.getD x) then guardRegs (next.map fun _ => pfxOf x) w else []
      (namedRegs i ++ guards ++ impliedRegs w f i).all (fun r => !(heldRegs w).contains r) &&
        (writtenRegs i ++ impliedWrites w f i).all (fun r => !(latchedRegs s w).contains r) &&
        (match i with
          | .movx _ _ n => n != 3#8 || w.holds.all fun h => !h.flags
          | _ => true)
  | _ => true

/-- Whether no acquire holds a fragment's next instruction (R211), and the queue that it needs is free (R302). -/
def unitsFree (s : State) (w : Warp) (f : Frag) : Bool :=
  match peek s w.core (launchOf s w).world f.pc.toNat with
  | .words x next => !(acquiring s f && isAccess (next.getD x)) && engineFree s w (next.getD x)
  | _ => true

/-- Whether a fragment's next instruction may issue for all that its registers and the units hold. -/
def scoreboardOk (s : State) (w : Warp) (f : Frag) : Bool := unitsFree s w f && scoreboardFree s w f

/-- Whether a fragment is ready (R48); of a warp whose issue is blocked, only a handler's is (R406). -/
def fragReady (s : State) (w : Warp) (f : Frag) : Bool :=
  !f.held && (!w.blocked || f.handler) && (match f.wait with
    | .none => scoreboardOk s w f
    | .poll c => holds s w c && scoreboardOk s w f
    | _ => false)

/-- Whether a warp takes a pending imprecise fault at its next issue opportunity (R368); one that is being saved puts it
off (R430), one that departs does not (R438). -/
def pendingNow (w : Warp) : Bool := !w.pending.isEmpty && w.served.isNone && (!w.blocked || w.departing)

/-- Whether a warp takes part in the choice of its core (R302): it holds a ready fragment, or has an imprecise fault
to take (R368), before which none of its fragments issues and whose entry waits until its register writes are settled (R404). -/
def warpReady (s : State) (w : Warp) : Bool :=
  !w.halted && w.trap.isNone && (if pendingNow w then takable s w else w.frags.any (fragReady s w))

/-! ## Choosing (R49, R302) -/

/-- The favoured fragment of the warp's most recent open split (R49 item 2); one that blocked is favoured again once it is ready. (Log 150: DESIGN CHOICE, unsafe.) -/
def favoured (w : Warp) : Option Nat :=
  let splits := w.frags.flatMap (·.splits)
  match argMin (fun (x : Split) => w.nextSplit - x.id) splits with
  | none => none
  | some x => some x.favoured

/-- The key of R49 item 3: the PC, ties going to the lowest lane. -/
def pcKey (f : Frag) : Nat := f.pc.toNat * 64 + lowestLane f.frag

/-- The fragment that takes the issue slot among the ready ones (R49); one that has yielded only if no other is ready
(R165). (Log 150: DESIGN CHOICE, unsafe.) -/
def pickFrag (s : State) (w : Warp) : Option Frag :=
  let ready := w.frags.filter (fragReady s w)
  let eager := ready.filter fun f => !f.yielded
  let set := if eager.isEmpty then ready else eager
  match argMin (fun (f : Frag) => 2 ^ 40 - f.passed) (set.filter fun f => decide (64 ≤ f.passed)) with
  | some f => some f
  | none =>
    match set.find? fun f => some f.id == favoured w with
    | some f => some f
    | none => argMin pcKey set

/-- The place of a warp in its core's round-robin order, after the slot that issued last (R302). -/
def turn (last slot : Nat) : Nat := (slot + 63 - last) % 64

/-- The warp that takes a core's issue slot (R302): one passed over 64 times first, then matrix-role warps, then
round-robin. -/
def pickWarp (s : State) (core : Nat) : Option Warp :=
  let last := look s.lastSlot core 63
  let ready := s.warps.filter fun w => w.core == core && warpReady s w
  match argMin (fun (w : Warp) => turn last w.slot) (ready.filter fun w => decide (64 ≤ w.passed)) with
  | some w => some w
  | none =>
    match argMin (fun (w : Warp) => turn last w.slot) (ready.filter fun w => w.role == .matrix) with
    | some w => some w
    | none => argMin (fun (w : Warp) => turn last w.slot) ready

/-- The aging counts after a choice on a core (R49, R302). -/
def aged (s : State) (core slot : Nat) (fid : Option Nat) : State :=
  { s with
    lastCore := core
    lastSlot := put s.lastSlot core slot
    warps := s.warps.map fun w =>
      if w.core != core then w
      else if w.slot == slot then
        { w with
          passed := 0
          frags := w.frags.map fun f =>
            if some f.id == fid then { f with passed := 0, yielded := false }
            else { f with passed := if fragReady s w f then f.passed + 1 else f.passed, yielded := false } }
      else if warpReady s w then { w with passed := w.passed + 1 } else w }

/-- Whether a word's instruction needs the vector datapath (R302): rows 1x to 6x but for MOVX and XMOV, row 7x up to 0x7E, and the memory
rows 8x to Ax. -/
def onDatapath (w : Word) : Bool :=
  let op := bitsOf w.toNat 24 8
  decide (0x10 ≤ op) && decide (op < 0xB0) && op != 0x3C && op != 0x3D && op != 0x7F

/-- Whether a word's instruction takes EXEC as its lane set (R125): the checks, FENCE, LDM, STM, LOCK and UNLOCK. -/
def underExec (w : Word) : Bool :=
  let op := bitsOf w.toNat 24 8
  [0x4D, 0x4E, 0x4F, 0x92, 0x97, 0x98, 0x99, 0x9A].contains op

/-- The passes of a core that hold a lane of a set, and those that hold none (R320, R321, R323). -/
def passesOf (c : CoreCfg) (m : Word) : Nat × Nat :=
  let used := (List.range c.passes).filter fun p => (lanesOf m).any fun l => l / c.good == p
  (used.length, c.passes - used.length)

/-- The passes that a word's instruction performs and skips, for a fragment of a warp; none off the datapath. (Log 140: DEDUCED, unsafe.) -/
def wordPasses (s : State) (w : Warp) (f : Frag) (word : Word) (next : Option Word) : Nat × Nat :=
  let op := next.getD word
  if !onDatapath op then (0, 0)
  else passesOf (coreCfg s w.core) (if underExec op then f.exec else active (next.map fun _ => pfxOf word) w f)

/-- The cursor on a warp's fragment with its words. -/
def pointAt (s : State) (i : Nat) (fid : Nat) (w : Word) (next : Option Word) : State :=
  let v := s.warps.getD i {}
  let j := indexWhere (fun f => f.id == fid) v.frags
  let n := wordPasses s v (v.frags.getD j {}) w next
  { s with cur :=
      { warp := i, frag := j, len := if next.isSome then 8 else 4, word := next.getD w, pfxWord := if next.isSome then w else 0
        busy := n.1, skipped := n.2 } }

/-- What a core's issue opportunity comes to. -/
inductive Turn where
  /-- No warp of the core is ready. -/
  | idle
  /-- The warp takes a pending imprecise fault. -/
  | take (s : State) (slot : Nat)
  /-- The fragment's words are to be fetched first. -/
  | fetch (s : State) (slot fid : Nat)
  /-- The words are no instruction, or poisoned: the fault is raised. -/
  | bad (s : State)
  /-- The instruction issues. -/
  | run (i : Instr) (s : State)

/-- The number of the encoding rule less 100 (R386). (Log 36: DEDUCED, unsafe.) -/
def rejectInfo : Reject → Nat
  | .opcode => 1
  | .zeroField => 2
  | .pfxUse => 3
  | .reserved => 4
  | .pairRun => 6
  | .truncated => 3

/-- The fault of a fetched word that is no instruction (R389). (Log 36: DEDUCED, unsafe.) -/
def illegal (r : Reject) (s : State) : State :=
  raise { cls := 2, code := 0x001, info := BitVec.ofNat 32 (rejectInfo r) } s

/-- The fragment `fid` of warp `i` issues, if its words are at hand. -/
def issueFrag (s : State) (i : Nat) (fid : Nat) : Turn :=
  let w := s.warps.getD i {}
  match fragById w fid with
  | none => .idle
  | some f =>
    match peek s w.core (launchOf s w).world f.pc.toNat with
    | .absent _ => .fetch s w.slot fid
    | .poison va =>
      .bad (raise { cls := 5, code := 0x005, pois := true, addr := BitVec.ofNat 64 va, info := 8 } (pointAt s i fid 0 none))
    | .words x next =>
      let s := pointAt s i fid x next
      match decodePair x next with
      | .ok instr => .run instr (setFr s { fr s with wait := .none })
      | .error r => .bad (illegal r s)

/-- A core's issue opportunity (R302). (Log 36: DEDUCED, unsafe.) -/
def turnOf (s : State) (core : Nat) : Turn :=
  match pickWarp s core with
  | none => .idle
  | some w =>
    if pendingNow w then .take (aged s core w.slot none) w.slot
    else
      match pickFrag s w with
      | none => .idle
      | some f => issueFrag (aged s core w.slot (some f.id)) (warpAt s core w.slot) f.id

/-- Cores that hold a ready warp, in turn after the core that issued last. (Log 2: DESIGN CHOICE, unsafe.) -/
def readyCore (s : State) : Option Nat :=
  (argMin (fun (w : Warp) => (w.core + 1023 - s.lastCore) % 1024) (s.warps.filter (warpReady s))).map (·.core)

end Sys2Proof.Machine
end

