-- ==== Sys2Proof/Machine/Caches.lean ====
section
/-! DEFINITION. What the caches do of their own between steps: sets and tables that hold more than their sizes give up entries
(R13, R14, R55, R463), and the write-combining buffer gives up the bytes of a warp whose CNT.ST is full (R29, R208). -/

namespace Sys2Proof.Machine

open Sys2Proof

/-! ## Replacement (R463) -/

/-- The entries of a list that share their place with one that has too many there; `room` is how many its place holds. -/
def crowded {α κ : Type} [DecidableEq κ] (place : α → κ) (room : α → Nat) (xs : List α) : List α :=
  match xs.find? fun x => decide (room x < (xs.filter fun y => place y == place x).length) with
  | none => []
  | some x => xs.filter fun y => place y == place x

/-- The entry that goes, which the spec leaves to the structure: any of them. -/
def victim {α : Type} (s : State) (kind : Nat) (xs : List α) : Option α := xs[Config.victim kind s.tick % xs.length]?

/-- A core's set of the L1: 128 KiB in lines of 128 bytes, 8 ways (Table DEV.1). (Log 151: DESIGN CHOICE, safe.) -/
def l1Place (x : L1Line) : Nat × Nat := (x.core, x.base / 128 % 128)

/-- Overfull sets of the L1 give up lines, their dirty bytes written home (R62). (Log 151: DESIGN CHOICE, safe.) -/
def trimL1 : Nat → State → State
  | 0, s => s
  | n + 1, s =>
    match victim s 0 (crowded l1Place (fun _ => 8) s.l1) with
    | none => s
    | some x => trimL1 n (l1Drop (lineBack s x) x.core x.base)

/-- A core's set of the I-cache: 64 KiB in lines of 64 bytes, 4 ways (Table DEV.1). (Log 151: DESIGN CHOICE, safe.) -/
def iPlace (x : ILine) : Nat × Nat := (x.core, x.base / 64 % 256)

/-- Overfull sets of the I-caches give up lines; a pinned segment's words are none of them (R307). (Log 151: DESIGN CHOICE, safe.) -/
def trimI : Nat → State → State
  | 0, s => s
  | n + 1, s =>
    match victim s 1 (crowded iPlace (fun _ => 4) (s.ilines.filter fun x => !x.store)) with
    | none => s
    | some x => trimI n { s with ilines := s.ilines.filter fun y => y != x }

/-- Overfull TLBs give up translations: 64 entries of a core's, 2,048 of a quad's (R55). -/
def trimTlb : Nat → State → State
  | 0, s => s
  | n + 1, s =>
    match victim s 2 (crowded (fun x : TlbEntry => (x.quad, x.unit)) (fun x => if x.quad then 2048 else 64) s.tlb) with
    | none => s
    | some x => trimTlb n { s with tlb := s.tlb.filter fun y => y != x }

/-- Overfull gateway caches give up lines silently: 8 MiB in lines of 128 bytes (R11, R65). -/
def trimGateways : Nat → State → State
  | 0, s => s
  | n + 1, s =>
    match victim s 3 (crowded (fun x : Nat × Nat × Nat => (x.1, x.2.1)) (fun _ => 65536) s.gateways) with
    | none => s
    | some x => trimGateways n { s with gateways := s.gateways.filter fun y => y != x }

/-! ## A full CNT.ST (R29) -/

/-- The operations of the warps whose CNT.ST stands at its maximum. -/
def fullStores (s : State) : List Nat := (s.warps.filter fun w => decide (ctrMax .st ≤ w.cntSt)).flatMap fun w => (opsOf s w).map (·.id)

/-- Whether a WAIT or WAITR of a warp is held by its ST counter, or a release at package scope or wider by its earlier stores. -/
def waitsOnStores (w : Warp) : Bool :=
  w.frags.any fun f => match f.wait with
    | .poll (.atMost _ st _ _) => !within w.cntSt st
    | .poll (.drained true) => true
    | _ => false

/-- The buffer lines that hold STNT bytes of a warp whose CNT.ST is full, drained, and the buffer of a core where a WAIT is held by ST or a
release at package scope or wider waits (R208, R211, R230). -/
def drainFull (s : State) : State :=
  if s.wcb.isEmpty then s
  else
    let full := fullStores s
    let waits := (s.warps.filter waitsOnStores).map (·.core)
    wcbDrain s fun x => waits.contains x.core || x.ops.any fun o => full.contains o

/-! ## Clocks waited (Table ISAE.6) -/

/-- Whether a warp waits on a barrier phase: for its end, or, arrived at it already, to arrive at the next. -/
def waitsAtBarrier (s : State) (w : Warp) : Bool :=
  w.frags.any fun f => match f.wait with
    | .barrier .. => true
    | .poll (.phaseOver b) => !holds s w (.phaseOver b)
    | _ => false

/-- Whether a warp is held off in LOCK. -/
def waitsInLock (w : Warp) : Bool :=
  w.frags.any fun f => match f.wait with
    | .lock _ => true
    | .lockRetry _ => true
    | .lockSent _ _ _ => true
    | _ => false

/-- Whether a warp has nothing to issue but what its scoreboard holds. -/
def waitsOnScoreboard (s : State) (w : Warp) : Bool :=
  !w.halted && !warpReady s w && w.frags.any fun f => f.wait == .none && !f.held && !scoreboardFree s w f

/-- Team counters 8 to 10 after some clocks: each of a team's resident warps counts those it waits. (Log 139: DESIGN CHOICE, safe.) -/
def countWaits (clocks : Nat) (s : State) : State :=
  { s with
    teams := s.teams.map fun t =>
      let ws := s.warps.filter fun w => w.team == t.id
      let add := fun (k : Nat) (test : Warp → Bool) (p : List Word) =>
        p.set k (p.getD k 0 + BitVec.ofNat 32 (clocks * (ws.filter test).length))
      { t with perf := add 8 (waitsAtBarrier s) (add 9 (waitsOnScoreboard s) (add 10 waitsInLock t.perf)) } }

/-! ## All of it -/

/-- What the caches of the package do before a step's action. (Log 11: DESIGN CHOICE, safe.) -/
def settleCaches (s : State) : State :=
  let s := drainFull s
  trimGateways s.gateways.length (trimTlb s.tlb.length (trimI s.ilines.length (trimL1 s.l1.length s)))

end Sys2Proof.Machine
end

