-- ==== Sys2Proof/Machine/Sha.lean ====
section
/-! DEFINITION. SHA-384, which R76, R347 and Table SEC.5 name: the function of the published standard (FIPS 180-4). -/

namespace Sys2Proof.Machine

open Sys2Proof

/-! ## The constants: fractions of roots of primes -/

/-- The largest number of `n` more bits over `r` whose `k`-th power is at most `x`. -/
def rootBits (k x : Nat) : Nat → Nat → Nat
  | 0, r => r
  | n + 1, r => rootBits k x n (if (r + 2 ^ n) ^ k ≤ x then r + 2 ^ n else r)

/-- The first 64 fractional bits of the `k`-th root of a number below 512. -/
def rootFraction (k p : Nat) : DWord := BitVec.ofNat 64 (rootBits k (p * 2 ^ (64 * k)) 70 0)

/-- The first 80 primes. -/
def firstPrimes : List Nat := (List.range 410).filter fun p => decide (2 ≤ p) && (List.range p).all fun d => decide (d < 2) || p % d != 0

/-- One constant for each round, of the cube roots of the first 80 primes. (Log 24: PRESUMED, unsafe.) -/
def roundKeys : List DWord := firstPrimes.map (rootFraction 3)

/-- The chained value, as a history: the last four values of the variable that the standard calls a, newest first, and of the one it
calls e.  The other six variables are their past. -/
structure Chain where
  as : List DWord
  es : List DWord
  deriving DecidableEq, Repr

/-- The words of a chain in the standard's order. -/
def Chain.words (c : Chain) : List DWord := c.as ++ c.es

/-- A chain from eight words. -/
def chainOfWords (ws : List DWord) : Chain := { as := ws.take 4, es := ws.drop 4 }

/-- The chain before the first block: of the square roots of the ninth to the sixteenth prime. -/
def startChain : Chain := chainOfWords (((firstPrimes.drop 8).take 8).map (rootFraction 2))

/-! ## One block -/

/-- The exclusive or of a word turned right by each of some counts. -/
def turns (counts : List Nat) (x : DWord) : DWord := counts.foldl (fun y n => y ^^^ x.rotateRight n) 0

/-- The words of a block's schedule, newest first, extended by `n`: each comes from those 16, 15, 7 and 2 before it. -/
def schedule : Nat → List DWord → List DWord
  | 0, past => past
  | n + 1, past =>
    let ago := fun k => past.getD (k - 1) 0
    schedule n ((ago 16 + ago 7 + (turns [1, 8] (ago 15) ^^^ ago 15 >>> 7) + (turns [19, 61] (ago 2) ^^^ ago 2 >>> 6)) :: past)

/-- A round with the sum of its constant and its schedule word. -/
def mixRound (c : Chain) (kw : DWord) : Chain :=
  let a := fun i => c.as.getD i 0
  let e := fun i => c.es.getD i 0
  let fresh := e 3 + kw + turns [14, 18, 41] (e 0) + (e 2 ^^^ (e 0 &&& (e 1 ^^^ e 2)))
  { as := (fresh + turns [28, 34, 39] (a 0) + ((a 0 &&& (a 1 ||| a 2)) ||| (a 1 &&& a 2))) :: c.as.take 3
    es := (a 3 + fresh) :: c.es.take 3 }

/-- A block of sixteen words, in order, mixed into a chain. -/
def mixBlock (c : Chain) (ws : List DWord) : Chain :=
  let keyed := (roundKeys.zip (schedule 64 ws.reverse).reverse).map fun x => x.1 + x.2
  chainOfWords (List.zipWith (· + ·) c.words (keyed.foldl mixRound c).words)

/-! ## Messages -/

/-- The big-endian number of some bytes. -/
def bigEndian (bs : List Byte) : Nat := bs.foldl (fun n b => 256 * n + b.toNat) 0

/-- A message with its end mark, zeros to a whole block of 128 bytes, and its length in bits in the last sixteen. -/
def padded (bs : List Byte) : List Byte :=
  let zeros := 127 - (bs.length + 16) % 128
  bs ++ 0x80#8 :: (List.replicate zeros 0#8 ++ (toBytes 16 (bs.length * 8)).reverse)

/-- `n` blocks of a padded message mixed in order. -/
def mixBlocks : Nat → List Byte → Chain → Chain
  | 0, _, c => c
  | n + 1, bs, c => mixBlocks n (bs.drop 128) (mixBlock c ((List.range 16).map fun i => BitVec.ofNat 64 (bigEndian ((bs.drop (8 * i)).take 8))))

/-- The SHA-384 digest of some bytes; its first byte is the most significant. (Log 24: PRESUMED, unsafe.) -/
def sha384 (bs : List Byte) : BitVec 384 :=
  let m := padded bs
  BitVec.ofNat 384 (((mixBlocks (m.length / 128) m startChain).words.take 6).foldl (fun n w => n * 2 ^ 64 + w.toNat) 0)

/-- The 48 bytes of a digest in order. -/
def digestBytes (d : BitVec 384) : List Byte := (toBytes 48 d.toNat).reverse

end Sys2Proof.Machine
end

