-- ==== Sys2Proof/Machine/Flags.lean ====
section
/-! DEFINITION. Element types and integer results (R123, R139, R149, R157), the FLAGS bits (R28, R148), and the shape
that every lane-by-lane computation shares: sources read, destinations written under the guard, poison carried
(R124, R167, R401). -/

namespace Sys2Proof.Machine

open Sys2Proof

/-! ## Integer element types (R157) -/

/-- An integer element type: width and signedness. -/
structure IntEt where
  n : Nat
  signed : Bool
  deriving DecidableEq, Repr

/-- MODE.ET read through the integer column of Table ENC.9. -/
def intEt (et : Nat) : IntEt :=
  if et == 1 then ⟨32, false⟩ else if et == 2 then ⟨16, true⟩ else if et == 3 then ⟨16, false⟩ else ⟨32, true⟩

/-- Elements per lane. -/
def IntEt.count (t : IntEt) : Nat := 32 / t.n

/-- The unsigned field of element `j`. -/
def IntEt.raw (t : IntEt) (v : Word) (j : Nat) : Nat := bitsOf v.toNat (t.n * j) t.n

/-- Elem(v, l, j) of R157. -/
def IntEt.elem (t : IntEt) (v : Word) (j : Nat) : Int :=
  if t.signed then signExt (t.raw v j) t.n else (t.raw v j : Int)

/-- The lane whose element `j` is `f j` modulo 2^n. -/
def IntEt.pack (t : IntEt) (f : Nat → Nat) : Word :=
  BitVec.ofNat 32 (total ((List.range t.count).map fun j => f j % 2 ^ t.n * 2 ^ (t.n * j)))

/-- An integer modulo 2^n, as a natural number. -/
def wrap (n : Nat) (x : Int) : Nat := (x % (2 ^ n : Nat)).toNat

/-- An integer clamped to a range. -/
def clamp (lo hi x : Int) : Int := min (max x lo) hi

/-- IntOut of R149. -/
def intOut (t : IntEt) (sat : Bool) (x : Int) : Nat :=
  if !sat then wrap t.n x
  else if t.signed then wrap t.n (clamp (-(2 ^ (t.n - 1) : Nat)) ((2 ^ (t.n - 1) : Nat) - 1) x)
  else wrap t.n (clamp 0 ((2 ^ t.n : Nat) - 1) x)

/-- The lane 1 or 0. -/
def truth (b : Bool) : Word := if b then 1#32 else 0#32

/-- A whole lane as a signed or unsigned number. -/
def whole (signed : Bool) (v : Word) : Int := if signed then v.toInt else (v.toNat : Int)

/-! ## FLAGS (R28, Table EXEC.2) -/

def flagNX : BitVec 5 := 1
def flagUF : BitVec 5 := 2
def flagOF : BitVec 5 := 4
def flagDZ : BitVec 5 := 8
def flagNV : BitVec 5 := 16

/-- The sticky OR of raised flags into FLAGS (R28, R148). -/
def raiseFlags (fl : BitVec 5) (s : State) : State := setMe s { me s with flags := (me s).flags ||| fl }

/-! ## Lane-by-lane computation -/

/-- The row of a computation: poisoned where any source row is (R401). -/
def laneRow (srcs : List Row) (f : Nat → Word) : Row :=
  rowOf fun l => if srcs.any (fun r => poisonAt r l) then poisoned else clean (f l)

/-- The causes that every instruction under Active() may meet: a poisoned guard bit of an active lane (R374) and a
register field outside the warp (R390). -/
def laneCauses (p : Option Pfx) (named : List Nat) (s : State) : List Cause :=
  consumed (guardPoison p (me s) (fr s)) ++ outside s (named ++ guardRegs p (me s))

/-- An instruction that computes its destinations from registers alone. -/
def compute (p : Option Pfx) (named : List Nat) (ds : List (Nat × Row)) (s : State) : Out :=
  guarded (laneCauses p named s) (writeAndGo p ds s) s

/-- One destination from one source register. -/
def unary (p : Option Pfx) (d a : Nat) (f : Word → Word) (s : State) : Out :=
  let ra := regOf (me s) a
  compute p [d, a] [(d, laneRow [ra] fun l => f (valAt ra l))] s

/-- One destination from two source registers. -/
def binary (p : Option Pfx) (d a b : Nat) (f : Word → Word → Word) (s : State) : Out :=
  let ra := regOf (me s) a
  let rb := regOf (me s) b
  compute p [d, a, b] [(d, laneRow [ra, rb] fun l => f (valAt ra l) (valAt rb l))] s

/-- One destination from two source registers and the third source (R121). -/
def ternary (p : Option Pfx) (d a b : Nat) (f : Word → Word → Word → Word) (s : State) : Out :=
  let ra := regOf (me s) a
  let rb := regOf (me s) b
  let rc := regOf (me s) (thirdReg p d)
  compute p [d, a, b, thirdReg p d] [(d, laneRow [ra, rb, rc] fun l => f (valAt ra l) (valAt rb l) (valAt rc l))] s

/-- The integer element type and SAT in force. -/
def myEt (s : State) : IntEt := intEt (modeEt (me s))
def mySat (s : State) : Bool := modeSat (me s)

end Sys2Proof.Machine
end

