-- ==== Sys2Proof/Machine/Fp.lean ====
section
/-! DEFINITION. Floating-point formats, exact values, NaN choice, rounding and flushing (R137 to R148), the format slots'
decoding and encoding (R152 to R154), and the matrix sum (R155, R156).  Values are exact: a sign and a natural number
times a power of two. -/

namespace Sys2Proof.Machine

open Sys2Proof

/-! ## Formats (Table NUM.1, Table NUM.3) -/

/-- A floating-point format: width, fraction bits, bias, whether the all-ones exponent is special, and its NaNs. -/
structure Fmt where
  width : Nat
  p : Nat
  bias : Nat
  special : Bool
  canonical : Nat
  reserved : Option Nat
  deriving DecidableEq, Repr

def fp32 : Fmt := { width := 32, p := 23, bias := 127, special := true, canonical := 0x7FC00000, reserved := some 0x7FFFFFFF }
def f16 : Fmt := { width := 16, p := 10, bias := 15, special := true, canonical := 0x7E00, reserved := some 0x7FFF }
def bf16 : Fmt := { width := 16, p := 7, bias := 127, special := true, canonical := 0x7FC0, reserved := some 0x7FFF }
def f8a : Fmt := { width := 8, p := 3, bias := 7, special := true, canonical := 0x7F, reserved := none }
def f8b : Fmt := { width := 8, p := 2, bias := 15, special := true, canonical := 0x7F, reserved := none }
def f6 : Fmt := { width := 6, p := 2, bias := 3, special := false, canonical := 0, reserved := none }

/-- The all-ones exponent field. -/
def Fmt.ones (f : Fmt) : Nat := 2 ^ (f.width - 1 - f.p) - 1

/-- The exponent of the largest finite values. -/
def Fmt.topExp (f : Fmt) : Int := ((if f.special then f.ones - 1 else f.ones : Nat) : Int) - f.bias

/-- The exponent of the smallest normal. -/
def Fmt.minExp (f : Fmt) : Int := 1 - (f.bias : Int)

def Fmt.signOf (f : Fmt) (x : Nat) : Bool := x / 2 ^ (f.width - 1) % 2 == 1
def Fmt.expOf (f : Fmt) (x : Nat) : Nat := x / 2 ^ f.p % 2 ^ (f.width - 1 - f.p)
def Fmt.fracOf (f : Fmt) (x : Nat) : Nat := x % 2 ^ f.p

/-- An encoding from its fields. -/
def Fmt.make (f : Fmt) (neg : Bool) (e frac : Nat) : Nat := bit neg * 2 ^ (f.width - 1) + e * 2 ^ f.p + frac

def Fmt.isNaN (f : Fmt) (x : Nat) : Bool := f.special && f.expOf x == f.ones && f.fracOf x != 0

/-- A signalling NaN; the 8-bit formats hold none (R137). -/
def Fmt.isSignalling (f : Fmt) (x : Nat) : Bool := f.isNaN x && f.reserved.isSome && decide (f.fracOf x < 2 ^ (f.p - 1))

def Fmt.isSubnormal (f : Fmt) (x : Nat) : Bool := f.expOf x == 0 && f.fracOf x != 0

/-- The largest finite encoding of a sign (Table NUM.2). -/
def Fmt.maxFin (f : Fmt) (neg : Bool) : Nat :=
  if f.special then f.make neg (f.ones - 1) (2 ^ f.p - 1) else f.make neg f.ones (2 ^ f.p - 1)

def Fmt.inf (f : Fmt) (neg : Bool) : Nat := f.make neg f.ones 0
def Fmt.zero (f : Fmt) (neg : Bool) : Nat := f.make neg 0 0

/-! ## Exact values -/

/-- An exact value: a NaN, a signed infinity or zero, or a sign, a positive number and a power of two. -/
inductive Val where
  | nan
  | inf (neg : Bool)
  | zero (neg : Bool)
  | fin (neg : Bool) (m : Nat) (e : Int)
  deriving DecidableEq, Repr

/-- The value of an encoding (R137). -/
def Fmt.val (f : Fmt) (x : Nat) : Val :=
  if f.special && f.expOf x == f.ones then (if f.fracOf x == 0 then .inf (f.signOf x) else .nan)
  else if f.expOf x == 0 then
    (if f.fracOf x == 0 then .zero (f.signOf x) else .fin (f.signOf x) (f.fracOf x) (f.minExp - f.p))
  else .fin (f.signOf x) (f.fracOf x + 2 ^ f.p) ((f.expOf x : Int) - f.bias - f.p)

/-- The exact value of an integer. -/
def Val.ofInt (x : Int) : Val := if x == 0 then .zero false else .fin (decide (x < 0)) x.natAbs 0

def Val.neg : Val → Val
  | .nan => .nan
  | .inf n => .inf !n
  | .zero n => .zero !n
  | .fin n m e => .fin (!n) m e

/-- A value times a power of two, exactly (R152, FSCALE). -/
def Val.scale (k : Int) : Val → Val
  | .fin n m e => .fin n m (e + k)
  | v => v

def Val.isNeg : Val → Bool
  | .nan => false
  | .inf n => n
  | .zero n => n
  | .fin n _ _ => n

/-- A product, and whether it is 0 × ∞ (R143). -/
def Val.mul (a b : Val) : Val × Bool :=
  match a, b with
  | .nan, _ => (.nan, false)
  | _, .nan => (.nan, false)
  | .inf n, .zero k => (.zero (n != k), true)
  | .zero n, .inf k => (.zero (n != k), true)
  | .inf n, x => (.inf (n != x.isNeg), false)
  | x, .inf n => (.inf (n != x.isNeg), false)
  | .zero n, x => (.zero (n != x.isNeg), false)
  | x, .zero n => (.zero (n != x.isNeg), false)
  | .fin n m e, .fin k j d => (.fin (n != k) (m * j) (e + d), false)

/-- Whether both infinities stand among some terms (R143). -/
def opposite (ts : List Val) : Bool := ts.contains (.inf true) && ts.contains (.inf false)

/-- The exponent of a term; the larger of two numbers otherwise. -/
def minExpOf (ts : List Val) : Int :=
  ts.foldl (fun a t => match t with
    | .fin _ _ e => min a e
    | _ => a) 2048

/-- The exact sum of the finite terms, in units of 2^e. -/
def sumUnits (e : Int) (ts : List Val) : Int :=
  ts.foldl (fun a t => match t with
    | .fin n m k => a + (if n then -((m * 2 ^ (k - e).toNat : Nat) : Int) else ((m * 2 ^ (k - e).toNat : Nat) : Int))
    | _ => a) 0

/-- The exact sum of terms none of which is a NaN and whose infinities agree, with the zero sign of R180. (Log 28: DEDUCED, unsafe.) -/
def sumVals (rm : Nat) (ts : List Val) : Val :=
  if ts.contains (.inf false) then .inf false
  else if ts.contains (.inf true) then .inf true
  else
    let e := minExpOf ts
    let x := sumUnits e ts
    if x == 0 then .zero (ts.all (fun t => t == .zero true) || rm == 3)
    else .fin (decide (x < 0)) x.natAbs e

/-! ## Rounding (R145, R146) -/

/-- m × 2^sh rounded to an integer in sign-magnitude, and whether it was inexact. -/
def roundUnits (rm : Nat) (neg : Bool) (m : Nat) (sh : Int) : Nat × Bool :=
  if 0 ≤ sh then (m * 2 ^ sh.toNat, false)
  else
    let d := min (-sh).toNat (m.log2 + 3)
    let lo := m / 2 ^ d
    let r := m % 2 ^ d
    if r == 0 then (lo, false)
    else
      let up :=
        if rm == 0 then decide (2 ^ (d - 1) < r) || (r == 2 ^ (d - 1) && lo % 2 == 1)
        else if rm == 1 then false
        else if rm == 2 then !neg
        else if rm == 3 then neg
        else lo % 2 == 0
      (if up then lo + 1 else lo, true)

/-- Table NUM.5. -/
def Fmt.overflow (f : Fmt) (rm : Nat) (neg : Bool) : Nat :=
  if !f.special || rm == 1 || rm == 4 || (rm == 2 && neg) || (rm == 3 && !neg) then f.maxFin neg else f.inf neg

/-- A finite positive magnitude of `y` units of 2^q encoded. -/
def Fmt.encode (f : Fmt) (neg : Bool) (y : Nat) (q : Int) : Nat :=
  if y < 2 ^ f.p then f.make neg 0 y
  else f.make neg (q + y.log2 + f.bias).toNat (y / 2 ^ (y.log2 - f.p) - 2 ^ f.p)

/-- Whether RoundTo of a finite value overflows (R145). -/
def Fmt.overflows (f : Fmt) (rm : Nat) (neg : Bool) (m : Nat) (e : Int) : Bool :=
  let top := (m.log2 : Int) + e
  let q := max top f.minExp - f.p
  decide (f.topExp + 1 < top) || decide (f.topExp < q + ((roundUnits rm neg m (e - q)).1.log2 : Int))

/-- RoundTo of a finite nonzero value. (Log 28: DEDUCED, unsafe.) -/
def Fmt.roundFin (f : Fmt) (rm : Nat) (neg : Bool) (m : Nat) (e : Int) : Nat × BitVec 5 :=
  let top := (m.log2 : Int) + e
  let q := max top f.minExp - f.p
  if f.topExp + 1 < top then (f.overflow rm neg, flagOF ||| flagNX)
  else
    let r := roundUnits rm neg m (e - q)
    let fl := (if r.2 then flagNX else 0) ||| (if r.2 && decide (top < f.minExp) then flagUF else 0)
    if decide (f.topExp < q + (r.1.log2 : Int)) then (f.overflow rm neg, fl ||| flagOF ||| flagNX)
    else (f.encode neg r.1 q, fl)

/-- RoundTo of a value that is no NaN (R145). -/
def Fmt.round (f : Fmt) (rm : Nat) : Val → Nat × BitVec 5
  | .nan => (f.canonical, 0)
  | .inf n => if f.special then (f.inf n, 0) else (f.maxFin n, flagNV)
  | .zero n => (f.zero n, 0)
  | .fin n m e => if m == 0 then (f.zero n, 0) else f.roundFin rm n m e

/-! ## NaNs (R142 to R144) -/

/-- Quiet(fmt, x). -/
def Fmt.quiet (f : Fmt) (x : Nat) : Nat :=
  if f.isSignalling x then
    let y := x + 2 ^ (f.p - 1)
    if some y == f.reserved then f.canonical else y
  else x

/-- PickNaN(fmt, ops, invalid), with the flags that its use raises (R143). -/
def Fmt.pickNaN (f : Fmt) (ops : List Nat) (invalid : Bool) : Option (Nat × BitVec 5) :=
  match ops.find? fun x => some x == f.reserved with
  | some x => some (x, 0)
  | none =>
    let fl := if invalid || ops.any f.isSignalling then flagNV else 0
    match ops.find? f.isNaN with
    | some x => some (f.quiet x, fl)
    | none => if invalid then some (f.canonical, fl) else none

/-- A NaN in another floating-point format (Table NUM.4). -/
def nanTo (g f : Fmt) (x : Nat) : Nat :=
  if !f.special then 0
  else if f.reserved.isNone then 0x7F
  else if g.reserved.isNone then f.canonical + bit (g.signOf x) * 2 ^ (f.width - 1)
  else if some x == g.reserved then f.reserved.getD 0
  else if g.width < f.width then f.quiet (f.make (g.signOf x) f.ones (g.fracOf x * 2 ^ (f.p - g.p)))
  else
    let frac := if f.p < g.p then g.fracOf (g.quiet x) / 2 ^ (g.p - f.p) else g.fracOf (g.quiet x) * 2 ^ (f.p - g.p)
    let y := f.make (g.signOf x) f.ones frac
    if some y == f.reserved then f.canonical else y

/-- The flags of a NaN converted from one format to another: none for the reserved one (R400); else NV where it becomes 0
(Table NUM.4, R148), and where PickNaN, which every word of row 6x goes through, meets a signalling one (R143). (Log 27: DEDUCED, unsafe; 141: DEDUCED, unsafe.) -/
def nanFlags (g f : Fmt) (x : Nat) : BitVec 5 :=
  if some x == g.reserved || (f.special && !g.isSignalling x) then 0 else flagNV

/-! ## FTZ (R147) -/

def Fmt.flushIn (f : Fmt) (ftz : Bool) (x : Nat) : Nat := if ftz && f.isSubnormal x then f.zero (f.signOf x) else x

def Fmt.flushOut (f : Fmt) (ftz : Bool) (r : Nat × BitVec 5) : Nat × BitVec 5 :=
  if ftz && f.isSubnormal r.1 then (f.zero (f.signOf r.1), r.2 ||| flagUF ||| flagNX) else r

/-- Steps 3 to 5 of R180: the NaN chosen, or the exact result rounded and flushed. -/
def Fmt.deliver (f : Fmt) (rm : Nat) (ftz : Bool) (ops : List Nat) (invalid : Bool) (x : Val) : Nat × BitVec 5 :=
  match f.pickNaN ops invalid with
  | some r => r
  | none => f.flushOut ftz (f.round rm x)

/-! ## Conversions -/

/-- A value of one format converted to another (R190), flushing where told. (Log 141: DEDUCED, unsafe.) -/
def convert (g f : Fmt) (rm : Nat) (ftz : Bool) (x : Nat) : Nat × BitVec 5 :=
  let y := g.flushIn ftz x
  if g.isNaN y then (nanTo g f y, nanFlags g f y) else f.flushOut ftz (f.round rm (g.val y))

/-- IntNarrow of R152 to a range. (Log 27: DEDUCED, unsafe.) -/
def intNarrow (lo hi : Int) (rm : Nat) : Val → Int × BitVec 5
  | .nan => (0, flagNV)
  | .inf n => (if n then lo else hi, flagNV)
  | .zero _ => (0, 0)
  | .fin n m e =>
    if 64 ≤ (m.log2 : Int) + e then (if n then lo else hi, flagNX)
    else
      let r := roundUnits rm n m e
      let v : Int := if n then -(r.1 : Int) else r.1
      if v < lo then (lo, flagNX) else if hi < v then (hi, flagNX) else (v, if r.2 then flagNX else 0)

/-! ## Format slots (R150 to R154) -/

/-- The floating-point format of a slot's codes; CB4 entries are BF16. -/
def slotFmt (fmt : Nat) : Fmt :=
  if fmt == 1 then f16 else if fmt == 2 then f8a else if fmt == 3 then f8b else if fmt == 7 then f6 else bf16

/-- Bits of one code of a slot format (R139, R140). -/
def codeBits (fmt : Nat) : Nat :=
  if fmt ≤ 1 then 16 else if fmt ≤ 4 then 8 else if fmt == 7 then 6 else 4

/-- Whether a slot holds integers. -/
def Slot.isInt (t : Slot) : Bool := t.fmt == 4 || t.fmt == 5

/-- The BF16 entry of a codebook, a signalling NaN quieted (R153). -/
def Slot.entry (t : Slot) (c : Nat) : Nat := bf16.quiet (t.table.getD c 0).toNat

/-- The encoding that a slot's code stands for, in its floating-point format. -/
def Slot.bits (t : Slot) (code : Nat) : Nat := if t.fmt == 6 then t.entry code else code

/-- Decode(slot, code) of R152. -/
def Slot.decode (t : Slot) (code : Nat) : Val :=
  if t.isInt then Val.ofInt (signExt code (codeBits t.fmt))
  else ((slotFmt t.fmt).val (t.bits code)).scale t.scale

/-- A code of a slot as an FP32 NaN, where it is a NaN (Table NUM.4). -/
def Slot.nan32 (t : Slot) (code : Nat) : Option Nat :=
  if t.isInt then none
  else if (slotFmt t.fmt).isNaN (t.bits code) then some (nanTo (slotFmt t.fmt) fp32 (t.bits code)) else none

/-- A finite value in units of 2^e. -/
def Val.units (e : Int) (v : Val) : Int := sumUnits e [v]

/-- Whether a value is finite. -/
def Val.finite : Val → Bool
  | .zero _ => true
  | .fin _ _ _ => true
  | _ => false

/-- The value of an entry as a whole number of 2^-400, infinities beyond every finite one (R154). -/
def Val.height (v : Val) : Int :=
  match v with
  | .inf n => if n then -(2 ^ 2000 : Nat) else (2 ^ 2000 : Nat)
  | v => v.units (-400)

/-- The sixteen codes. -/
def codes16 : List Nat := [0, 1, 2, 3, 4, 5, 6, 7, 8, 9, 10, 11, 12, 13, 14, 15]

/-- Nearest(Book, x) for an infinity: an equal entry, or the extreme one (R154). (Log 16: DESIGN CHOICE, safe.) -/
def Slot.nearestInf (t : Slot) (neg : Bool) : Nat × BitVec 5 :=
  let vals := fun c => bf16.val (t.entry c)
  match codes16.find? fun c => vals c == .inf neg with
  | some c => (c, 0)
  | none =>
    match argMin (fun c => ((if neg then (vals c).height else -(vals c).height) + (2 ^ 2001 : Nat)).toNat)
        (codes16.filter fun c => vals c != .nan) with
    | some c => (c, flagNX)
    | none => (Config.noEntry neg % 16, flagNX)

/-- Nearest(Book, x) of R154, on the scaled value. (Log 16: DESIGN CHOICE, safe.) -/
def Slot.nearest (t : Slot) (x : Val) : Nat × BitVec 5 :=
  let vals := fun c => bf16.val (t.entry c)
  match x with
  | .nan => ((codes16.find? fun c => vals c == .nan).getD 0, flagNV)
  | .inf n => t.nearestInf n
  | v =>
    match argMin (fun c => ((vals c).height - v.height).natAbs) (codes16.filter fun c => (vals c).finite) with
    | some c => (c, if (vals c).height == v.height then 0 else flagNX)
    | none =>
      if codes16.any fun c => vals c != .nan then
        -- an infinite entry serves as for an infinity of the sign of x; it differs from x
        ((t.nearestInf v.isNeg).1, flagNX)
      else (0, flagNV ||| flagNX)

/-- EncodeSlot of R152, for an FP32 operand, the reserved NaN as any other. (Log 141: DEDUCED, unsafe.) -/
def Slot.encodeAny (t : Slot) (rm : Nat) (x : Nat) : Nat × BitVec 5 :=
  let v := (fp32.val x).scale (-t.scale)
  if t.fmt == 4 then let r := intNarrow (-128) 127 rm v; (wrap 8 r.1, r.2)
  else if t.fmt == 5 then let r := intNarrow (-8) 7 rm v; (wrap 4 r.1, r.2)
  else if t.fmt == 6 then t.nearest v
  else
    let f := slotFmt t.fmt
    if fp32.isNaN x then (nanTo fp32 f x, nanFlags fp32 f x)
    else
      match v with
      | .fin n m e =>
        if t.sat && (t.fmt == 2 || t.fmt == 3) && f.overflows rm n m e then (f.maxFin n, flagOF ||| flagNX)
        else f.roundFin rm n m e
      | v => f.round rm v

/-- EncodeSlot, of which the reserved NaN raises no flag (R400). (Log 27: DEDUCED, unsafe.) -/
def Slot.encode (t : Slot) (rm : Nat) (x : Nat) : Nat × BitVec 5 :=
  ((t.encodeAny rm x).1, if some x == fp32.reserved then 0 else (t.encodeAny rm x).2)

/-! ## The matrix sum (R155, R156) -/

/-- The largest floor(log2 |t|) of some nonzero terms. -/
def topExpOf (ts : List Val) : Int :=
  ts.foldl (fun a t => match t with
    | .fin _ m e => max a ((m.log2 : Int) + e)
    | _ => a) (-100000)

/-- A term truncated toward zero to a multiple of 2^q, in those units. -/
def truncTerm (q : Int) : Val → Int
  | .fin n m e =>
    let u : Nat := if q ≤ e then m * 2 ^ (e - q).toNat else m / 2 ^ (q - e).toNat
    if n then -(u : Int) else u
  | _ => 0

/-- KStep of R155 on an FP32 accumulator and its products: the NaN operands of each product in order, the exact
products, and whether some product is 0 × ∞. -/
def kStep (c : Nat) (nans : List Nat) (ps : List Val) (bad : Bool) : Nat :=
  let ts := fp32.val c :: ps
  match fp32.pickNaN (c :: nans) (bad || opposite ts) with
  | some r => r.1
  | none =>
    if ts.contains (.inf false) then fp32.inf false
    else if ts.contains (.inf true) then fp32.inf true
    else if ts.all fun t => t == .zero true || t == .zero false then fp32.zero (ts.all fun t => t == .zero true)
    else
      let q := topExpOf ts - 47
      let x := ts.foldl (fun a t => a + truncTerm q t) 0
      if x == 0 then 0 else (fp32.round 0 (.fin (decide (x < 0)) x.natAbs q)).1

end Sys2Proof.Machine
end

