-- ==== Sys2Proof/Machine/Approx.lean ====
section
/-! DEFINITION. The functions of one operand (R187): reciprocal and square root rounded correctly; the six approximations as
any result within the bounds of Table ISAF.3, picked by Config.approx, with the special and exact cases of that table
and of Table ISAF.4.  Bounds come from fixed-point enclosures with 192 fraction bits, widened outward, so that no
allowed result is left out. -/

namespace Sys2Proof.Machine

open Sys2Proof

/-! ## Correctly rounded functions -/

/-- The integer square root, bit by bit from bit `n - 1`. -/
def isqrt (x : Nat) : Nat → Nat → Nat
  | 0, r => r
  | n + 1, r => isqrt x n (if (r + 2 ^ n) * (r + 2 ^ n) ≤ x then r + 2 ^ n else r)

/-- 1 / (m × 2^e) as a value whose last bit is sticky. -/
def recipVal (neg : Bool) (m : Nat) (e : Int) : Val :=
  let k := 64 + m.log2
  .fin neg (2 * (2 ^ k / m) + bit (2 ^ k % m != 0)) (-e - k - 1)

/-- √(m × 2^e) as a value whose last bit is sticky. -/
def sqrtVal (m : Nat) (e : Int) : Val :=
  let odd := (e % 2).toNat
  let x := m * 2 ^ odd * 2 ^ 80
  let r := isqrt x 64 0
  .fin false (2 * r + bit (r * r != x)) ((e - odd) / 2 - 41)

/-! ## The allowed results of an approximation -/

/-- FP32 encodings in the order of their values, −0 below +0. -/
def ordOf (x : Nat) : Int := if fp32.signOf x then -((x % 2 ^ 31 : Nat) : Int) - 1 else (x % 2 ^ 31 : Nat)

/-- The FP32 encoding at a place of that order. -/
def ofOrd (o : Int) : Nat := if o < 0 then 2 ^ 31 + (-o - 1).toNat else o.toNat

/-- x × 2^e rounded to FP32 under a mode. -/
def fixTo (rm : Nat) (x e : Int) : Nat :=
  if x == 0 then 0 else (fp32.round rm (.fin (decide (x < 0)) x.natAbs e)).1

/-- The n-th FP32 value from lo × 2^e up to hi × 2^e, n taken modulo their count. -/
def between (lo hi e : Int) (n : Nat) : Nat :=
  let a := ordOf (fixTo 2 lo e)
  let b := ordOf (fixTo 3 hi e)
  ofOrd (a + ((n % ((b - a).toNat + 1) : Nat) : Int))

/-- The exponent of one FP32 ulp of a positive x × 2^e. -/
def ulpExp (x : Nat) (e : Int) : Int := max ((x.log2 : Int) + e) (-126) - 23

/-- The values less than k ulp from a positive x × 2^e known to within `err` units, by which the interval is drawn in. -/
def nearUlps (k : Int) (x : Nat) (e err : Int) (n : Nat) : Nat :=
  let u := ulpExp x e
  -- units fine enough for both the value and the ulp
  let q := min e u
  let v : Int := (x : Int) * 2 ^ (e - q).toNat
  let w := k * 2 ^ (u - q).toNat - err * 2 ^ (e - q).toNat
  between (max 0 (v - w)) (v + w) q n

/-! ## Fixed point with 192 fraction bits -/

/-- π, ln 2 and 1, times 2^192, rounded down. -/
def piFix : Nat := 19720096697726538562396133364228268891463450865190089732560
def ln2Fix : Nat := 4350955369971217654477563090224794165364344896676135745069
def oneFix : Nat := 2 ^ 192

/-- The terms of a Taylor series summed: `next` gives a term from the one before and its index. -/
def series (next : Nat → Int → Int) : Nat → Nat → Int → Int → Int
  | 0, _, _, sum => sum
  | n + 1, i, term, sum => series next n (i + 1) (next i term) (sum + term)

/-- 2^f for a fraction f. -/
def exp2Fix (f : Nat) : Int :=
  let x : Int := (f * ln2Fix / 2 ^ 192 : Nat)
  series (fun i t => t * x / (2 ^ 192 * ((i : Int) + 1))) 60 0 oneFix 0

/-- sin or cos of a fixed-point angle below 2π: the sum that starts from `first` at index `k`. -/
def trigFix (x : Nat) (k : Nat) (first : Int) : Int :=
  let xx : Int := (x * x / 2 ^ 192 : Nat)
  series (fun i t => -(t * xx / (2 ^ 192 * (((2 * i + k + 1) * (2 * i + k + 2) : Nat) : Int)))) 50 0 first 0

/-- The first n fraction bits of log2 x for 1 ≤ x < 2, by repeated squaring. -/
def log2Bits : Nat → Nat → Nat → Nat
  | 0, _, acc => acc
  | n + 1, x, acc =>
    let y := x * x / 2 ^ 192
    if 2 ^ 193 ≤ y then log2Bits n (y / 2) (2 * acc + 1) else log2Bits n y (2 * acc)

/-- m × 2^e in fixed point; exact for every FP32 magnitude. -/
def toFix (m : Nat) (e : Int) : Nat := m * 2 ^ (e + 192).toNat

/-! ## The functions on a finite nonzero FP32 operand -/

/-- A delivered approximation: its FP32 encoding, and whether it is the exact value. (Log 15: DESIGN CHOICE, safe.) -/
structure Near where
  bits : Nat
  exact : Bool
  flags : BitVec 5 := 0

/-- FRSQ of a positive operand. -/
def frsqNear (m : Nat) (e : Int) (n : Nat) : Near :=
  -- the power of two and the odd part decide whether it is an integral power of 4
  let top := (m.log2 : Int) + e
  if m == 2 ^ m.log2 && top % 2 == 0 then { bits := fixTo 0 1 (-top / 2), exact := true }
  else
    let odd := (e % 2).toNat
    let j := m * 2 ^ odd
    -- 1/√j with 120 fraction bits
    let r := isqrt (2 ^ 240 / j) 121 0
    { bits := nearUlps 1 r (-((e - odd) / 2) - 120) 4 n, exact := false }

/-- FEXP2. -/
def fexp2Near (neg : Bool) (m : Nat) (e : Int) (n : Nat) : Near :=
  let top := (m.log2 : Int) + e
  if 9 ≤ top then
    if neg then { bits := n % 3, exact := false } else { bits := fp32.inf false, exact := false }
  else
    let x : Int := if neg then -(toFix m e : Int) else toFix m e
    let k := x / 2 ^ 192
    let f := (x % 2 ^ 192).toNat
    if 128 ≤ k then { bits := fp32.inf false, exact := false }
    else if f == 0 && decide (-126 ≤ k) then { bits := fixTo 0 1 k, exact := true }
    else if f == 0 && decide (-149 ≤ k) then
      { bits := fixTo 0 1 k - 1 + 2 * (n % 2), exact := false }
    else { bits := nearUlps 2 (exp2Fix f).toNat (k - 192) 4096 n, exact := false }

/-- FLOG2 of a positive operand. -/
def flog2Near (m : Nat) (e : Int) (n : Nat) : Near :=
  let k := (m.log2 : Int) + e
  if m == 2 ^ m.log2 then { bits := fixTo 0 k 0, exact := true }
  else
    let frac := log2Bits 80 (toFix m (-(m.log2 : Int))) 0
    let v := k * 2 ^ 80 + frac
    if k == 0 || k == -1 then { bits := between (v - 2 ^ 58 + 4) (v + 2 ^ 58 - 4) (-80) n, exact := false }
    else if 0 < v then { bits := nearUlps 2 v.toNat (-80) 4 n, exact := false }
    else { bits := nearUlps 2 v.natAbs (-80) 4 n + 2 ^ 31, exact := false }

/-- A value at most 2^-22 from a fixed-point one that is known to within `err` units. -/
def nearTrig (v err : Int) (n : Nat) : Near :=
  { bits := between (v - 2 ^ 170 + err) (v + 2 ^ 170 - err) (-192) n, exact := false }

/-- The units by which the reduction by 2π and the series may be off: two for each period taken off, and the series' own. -/
def trigErr (x : Nat) : Int := (2 * (x / (2 * piFix)) + 2 ^ 16 : Nat)

def fsinNear (neg : Bool) (m : Nat) (e : Int) (n : Nat) : Near :=
  let x := toFix m e % (2 * piFix)
  let v := trigFix x 1 x
  nearTrig (if neg then -v else v) (trigErr (toFix m e)) n

/-- FCOS; below 2^-60 the cosine is under 1 by less than any FP32 step, so 1 - 2^-22 is near enough and 1 + 2^-22 is not. -/
def fcosNear (m : Nat) (e : Int) (n : Nat) : Near :=
  let x := toFix m e
  if x < 2 ^ 132 then { bits := between (2 ^ 192 - 2 ^ 170) (2 ^ 192 + 2 ^ 170 - 1) (-192) n, exact := false }
  else nearTrig (trigFix (x % (2 * piFix)) 0 oneFix) (trigErr x) n

/-- FTANH: the operand itself up to 2^-12, else within 2 ulp. -/
def ftanhNear (neg : Bool) (m : Nat) (e : Int) (n : Nat) : Near :=
  let top := (m.log2 : Int) + e
  let sign := if neg then 2 ^ 31 else 0
  if top < -12 || (top == -12 && m == 2 ^ m.log2) then { bits := sign + fixTo 0 m e, exact := false }
  else if 5 ≤ top then { bits := sign + nearUlps 2 (2 ^ 192 - 2 ^ 92) (-192) 0 n, exact := false }
  else
    -- e^(2a) = 2^k × t, then (2^k t − 1) / (2^k t + 1)
    let y := 2 * toFix m e * 2 ^ 192 / ln2Fix
    let t := (exp2Fix (y % 2 ^ 192)).toNat * 2 ^ (y / 2 ^ 192)
    { bits := sign + nearUlps 2 ((t - oneFix) * 2 ^ 192 / (t + oneFix)) (-192) (2 ^ 20) n, exact := false }

/-- The flags of RoundTo on the internal value: OF for an infinity; UF, where the result is no greater than the smallest normal, is
free, since the internal value is (R187). (Log 15: DESIGN CHOICE, safe.) -/
def Near.raising (free : Nat) (r : Near) : Near :=
  let b := r.bits % 2 ^ 31
  if r.exact then r
  else if b == fp32.inf false then { r with flags := flagOF }
  else if b ≤ 0x00800000 && free % 2 == 1 then { r with flags := flagUF }
  else r

/-- What an approximation delivers for an FP32 operand that is no NaN, Table ISAF.4 first; `none` is an invalid case.
`op` is the opcode. (Log 15: DESIGN CHOICE, safe.) -/
def approx32 (op x : Nat) : Option Near :=
  let n := Config.approx op x
  let exactly := fun (b : Nat) (fl : BitVec 5) => some ({ bits := b, exact := true, flags := fl } : Near)
  match fp32.val x with
  | .nan => none
  | .zero neg =>
    if op == 0x61 then exactly (fp32.inf neg) flagDZ
    else if op == 0x63 || op == 0x66 then exactly 0x3F800000 0
    else if op == 0x64 then exactly (fp32.inf true) flagDZ
    else exactly (fp32.zero neg) 0
  | .inf neg =>
    if op == 0x61 then (if neg then none else exactly 0 0)
    else if op == 0x63 then exactly (if neg then 0 else fp32.inf false) 0
    else if op == 0x64 then (if neg then none else exactly (fp32.inf false) 0)
    else if op == 0x67 then exactly (if neg then 0xBF800000 else 0x3F800000) 0
    else none
  | .fin neg m e =>
    ((if op == 0x61 then (if neg then none else some (frsqNear m e n))
    else if op == 0x63 then some (fexp2Near neg m e n)
    else if op == 0x64 then (if neg then none else some (flog2Near m e n))
    else if op == 0x65 then some (fsinNear neg m e n)
    else if op == 0x66 then some (fcosNear m e n)
    else some (ftanhNear neg m e n)) : Option Near).map (Near.raising (Config.approx (op + 256) x))

/-- An approximation in a format: the operand widened exactly, the FP32 result rounded to the format (R187). -/
def approxIn (op : Nat) (f : Fmt) (ftz : Bool) (x : Nat) : Nat × BitVec 5 :=
  let a := f.flushIn ftz x
  let wide := if f.isNaN a then fp32.canonical else (convert f fp32 0 false a).1
  let near := if f.isNaN a then none else approx32 op wide
  match f.pickNaN [a] (near.isNone && !f.isNaN a) with
  | some r => r
  | none =>
    match near with
    | none => (f.canonical, 0)
    | some r =>
      let out := f.round 0 (fp32.val r.bits)
      f.flushOut ftz (out.1, out.2 ||| r.flags ||| (if r.exact then 0 else flagNX))

/-- FRCP in a format (R187, Table ISAF.4). -/
def recipIn (f : Fmt) (rm : Nat) (ftz : Bool) (x : Nat) : Nat × BitVec 5 :=
  let a := f.flushIn ftz x
  match f.val a with
  | .zero n => (f.inf n, flagDZ)
  | .inf n => (f.zero n, 0)
  | .fin n m e => f.flushOut ftz (f.round rm (recipVal n m e))
  | .nan => (f.pickNaN [a] false).getD (f.canonical, 0)

/-- FSQRT in a format. -/
def sqrtIn (f : Fmt) (rm : Nat) (ftz : Bool) (x : Nat) : Nat × BitVec 5 :=
  let a := f.flushIn ftz x
  match f.val a with
  | .zero n => (f.zero n, 0)
  | .inf false => (f.inf false, 0)
  | .fin false m e => f.flushOut ftz (f.round rm (sqrtVal m e))
  | _ => (f.pickNaN [a] (!f.isNaN a)).getD (f.canonical, 0)

end Sys2Proof.Machine
end

