-- ==== Sys2Proof/Machine/Float.lean ====
section
/-! DEFINITION. Floating-point arithmetic, compares and functions of one operand: rows 5x and 6x up to FDOT2 (R180 to
R189). -/

namespace Sys2Proof.Machine

open Sys2Proof

/-! ## Elements (R180) -/

/-- The element format that MODE.ET names in the float column, and the elements per lane. -/
def fpEt (et : Nat) : Fmt := if et == 5 then bf16 else if et == 6 then f16 else fp32
def Fmt.count (f : Fmt) : Nat := 32 / f.width

/-- Element `j` of a lane. -/
def Fmt.elem (f : Fmt) (v : Word) (j : Nat) : Nat := bitsOf v.toNat (f.width * j) f.width

/-- A lane from its elements. -/
def Fmt.pack (f : Fmt) (g : Nat → Nat) : Word :=
  BitVec.ofNat 32 (total ((List.range f.count).map fun j => g j % 2 ^ f.width * 2 ^ (f.width * j)))

/-- The flags of the elements of a lane. -/
def Fmt.flags (f : Fmt) (g : Nat → BitVec 5) : BitVec 5 := (List.range f.count).foldl (fun a j => a ||| g j) 0

/-- A lane's result and flags from an element function. -/
def Fmt.each (f : Fmt) (g : Nat → Nat × BitVec 5) : Word × BitVec 5 :=
  (f.pack fun j => (g j).1, f.flags fun j => (g j).2)

/-- The element format in force, and MODE.FTZ. -/
def myFmt (s : State) : Fmt := fpEt (modeEt (me s))
def myFtz (s : State) : Bool := modeFtz (me s)

/-- The lanes of Active() that contribute flags: those with no poisoned source (R400). -/
def cleanLanes (m : Word) (srcs : List Row) : Word := maskOf fun l => inMask m l && !srcs.any fun r => poisonAt r l

/-- A flag-raising computation: destinations, flags and source poison (R148, R400, R401). -/
def computeFlags (p : Option Pfx) (named : List Nat) (ds : List (Nat × Row)) (srcs : List Row) (fl : Nat → BitVec 5)
    (s : State) : Out :=
  let flags := (lanesOf (cleanLanes (act p s) srcs)).foldl (fun a l => a ||| fl l) 0
  guarded (laneCauses p named s) (advance (holdRegs (ds.map (·.1)) true (raiseFlags flags (writeDests p ds s)))) s

/-- One destination from some source rows, with flags. -/
def fpCompute (p : Option Pfx) (named : List Nat) (d : Nat) (srcs : List Row) (g : Nat → Word × BitVec 5) (s : State) : Out :=
  computeFlags p named [(d, laneRow srcs fun l => (g l).1)] srcs (fun l => (g l).2) s

/-- One operand, elementwise. -/
def fpUnary (p : Option Pfx) (d a : Nat) (g : Fmt → Nat → Nat × BitVec 5) (s : State) : Out :=
  let f := myFmt s
  let ra := regOf (me s) a
  fpCompute p [d, a] d [ra] (fun l => f.each fun j => g f (f.elem (valAt ra l) j)) s

/-- Two operands, elementwise. -/
def fpBinary (p : Option Pfx) (d a b : Nat) (g : Fmt → Nat → Nat → Nat × BitVec 5) (s : State) : Out :=
  let f := myFmt s
  let ra := regOf (me s) a
  let rb := regOf (me s) b
  fpCompute p [d, a, b] d [ra, rb] (fun l => f.each fun j => g f (f.elem (valAt ra l) j) (f.elem (valAt rb l) j)) s

/-! ## Arithmetic (Table ISAF.2) -/

/-- The sum of some terms, delivered over its operands. -/
def fpSum (f : Fmt) (rm : Nat) (ftz : Bool) (ops : List Nat) (terms : List Val) (bad : Bool) : Nat × BitVec 5 :=
  f.deliver rm ftz ops (bad || opposite terms) (sumVals rm terms)

def fpAdd (f : Fmt) (rm : Nat) (ftz : Bool) (x y : Nat) : Nat × BitVec 5 :=
  let a := f.flushIn ftz x
  let b := f.flushIn ftz y
  fpSum f rm ftz [a, b] [f.val a, f.val b] false

def fpSub (f : Fmt) (rm : Nat) (ftz : Bool) (x y : Nat) : Nat × BitVec 5 :=
  let a := f.flushIn ftz x
  let b := f.flushIn ftz y
  fpSum f rm ftz [a, b] [f.val a, (f.val b).neg] false

def fpMul (f : Fmt) (rm : Nat) (ftz : Bool) (x y : Nat) : Nat × BitVec 5 :=
  let a := f.flushIn ftz x
  let b := f.flushIn ftz y
  let r := (f.val a).mul (f.val b)
  f.deliver rm ftz [a, b] r.2 r.1

def fpFma (f : Fmt) (rm : Nat) (ftz : Bool) (x y z : Nat) : Nat × BitVec 5 :=
  let a := f.flushIn ftz x
  let b := f.flushIn ftz y
  let c := f.flushIn ftz z
  let r := (f.val a).mul (f.val b)
  fpSum f rm ftz [a, b, c] [r.1, f.val c] r.2

/-- FSCALE by 2^k. -/
def fpScale (f : Fmt) (rm : Nat) (ftz : Bool) (x : Nat) (k : Int) : Nat × BitVec 5 :=
  let a := f.flushIn ftz x
  f.deliver rm ftz [a] false ((f.val a).scale k)

def execFadd (p : Option Pfx) (d a b : BitVec 8) (s : State) : Out :=
  fpBinary p d.toNat a.toNat b.toNat (fun f => fpAdd f (effRm p (me s)) (myFtz s)) s

def execFsub (p : Option Pfx) (d a b : BitVec 8) (s : State) : Out :=
  fpBinary p d.toNat a.toNat b.toNat (fun f => fpSub f (effRm p (me s)) (myFtz s)) s

def execFmul (p : Option Pfx) (d a b : BitVec 8) (s : State) : Out :=
  fpBinary p d.toNat a.toNat b.toNat (fun f => fpMul f (effRm p (me s)) (myFtz s)) s

def execFfma (p : Option Pfx) (d a b : BitVec 8) (s : State) : Out :=
  let f := myFmt s
  let c := thirdReg p d.toNat
  let ra := regOf (me s) a.toNat
  let rb := regOf (me s) b.toNat
  let rc := regOf (me s) c
  fpCompute p [d.toNat, a.toNat, b.toNat, c] d.toNat [ra, rb, rc]
    (fun l => f.each fun j =>
      fpFma f (effRm p (me s)) (myFtz s) (f.elem (valAt ra l) j) (f.elem (valAt rb l) j) (f.elem (valAt rc l) j)) s

/-- FSCALE's exponent: the whole lane under f32, an i16 element under a packed ET. -/
def scaleBy (f : Fmt) (v : Word) (j : Nat) : Int := signExt (f.elem v j) f.width

def execFscale (p : Option Pfx) (d a b : BitVec 8) (s : State) : Out :=
  let f := myFmt s
  let ra := regOf (me s) a.toNat
  let rb := regOf (me s) b.toNat
  fpCompute p [d.toNat, a.toNat, b.toNat] d.toNat [ra, rb]
    (fun l => f.each fun j => fpScale f (effRm p (me s)) (myFtz s) (f.elem (valAt ra l) j) (scaleBy f (valAt rb l) j)) s

/-! ## Minimum and maximum (R183) -/

/-- Encodings that are no NaN in the order of their values, −0 below +0. -/
def Fmt.order (f : Fmt) (x : Nat) : Int :=
  let mag : Int := (x % 2 ^ (f.width - 1) : Nat)
  if f.signOf x then -mag - 1 else mag

/-- The lesser or greater of two encodings that are no NaN. -/
def Fmt.pick (f : Fmt) (less : Bool) (a b : Nat) : Nat :=
  if less then (if f.order a ≤ f.order b then a else b) else if f.order b ≤ f.order a then a else b

/-- FMIN, FMAX. -/
def fpMin (less : Bool) (ftz : Bool) (f : Fmt) (x y : Nat) : Nat × BitVec 5 :=
  let a := f.flushIn ftz x
  let b := f.flushIn ftz y
  (f.pickNaN [a, b] false).getD (f.pick less a b, 0)

/-- FMINN, FMAXN. -/
def fpMinNum (less : Bool) (ftz : Bool) (f : Fmt) (x y : Nat) : Nat × BitVec 5 :=
  let a := f.flushIn ftz x
  let b := f.flushIn ftz y
  match f.pickNaN [a, b] false with
  | none => (f.pick less a b, 0)
  | some r =>
    if some r.1 == f.reserved then r
    else if f.isNaN a && !f.isNaN b then (b, r.2)
    else if f.isNaN b && !f.isNaN a then (a, r.2)
    else r

def execFmin (p : Option Pfx) (d a b : BitVec 8) (s : State) : Out :=
  fpBinary p d.toNat a.toNat b.toNat (fpMin true (myFtz s)) s

def execFmax (p : Option Pfx) (d a b : BitVec 8) (s : State) : Out :=
  fpBinary p d.toNat a.toNat b.toNat (fpMin false (myFtz s)) s

def execFminn (p : Option Pfx) (d a b : BitVec 8) (s : State) : Out :=
  fpBinary p d.toNat a.toNat b.toNat (fpMinNum true (myFtz s)) s

def execFmaxn (p : Option Pfx) (d a b : BitVec 8) (s : State) : Out :=
  fpBinary p d.toNat a.toNat b.toNat (fpMinNum false (myFtz s)) s

/-! ## Compares (R184) -/

/-- A relation over every element, with the flags of its NaN operands; `any`: every NaN raises NV. -/
def fpCompare (p : Option Pfx) (d a b : Nat) (any : Bool) (rel : Fmt → Nat → Nat → Bool) (s : State) : Out :=
  let f := myFmt s
  let ra := regOf (me s) a
  let rb := regOf (me s) b
  let el := fun (r : Row) (l j : Nat) => f.flushIn (myFtz s) (f.elem (valAt r l) j)
  fpCompute p [d, a, b] d [ra, rb]
    (fun l =>
      (truth ((List.range f.count).all fun j => rel f (el ra l j) (el rb l j)),
       f.flags fun j =>
        let x := el ra l j
        let y := el rb l j
        if some x == f.reserved || some y == f.reserved then 0
        else if any && (f.isNaN x || f.isNaN y) then flagNV
        else if f.isSignalling x || f.isSignalling y then flagNV
        else 0)) s

/-- Whether neither operand is a NaN. -/
def Fmt.ordered (f : Fmt) (a b : Nat) : Bool := !f.isNaN a && !f.isNaN b

/-- Encodings with the two zeros made equal. -/
def Fmt.sameZero (f : Fmt) (x : Nat) : Int := if f.val x == .zero true then 0 else f.order x

def execFcmpeq (p : Option Pfx) (d a b : BitVec 8) (s : State) : Out :=
  fpCompare p d.toNat a.toNat b.toNat false (fun f x y => f.ordered x y && f.sameZero x == f.sameZero y) s

def execFcmplt (p : Option Pfx) (d a b : BitVec 8) (s : State) : Out :=
  fpCompare p d.toNat a.toNat b.toNat true (fun f x y => f.ordered x y && decide (f.sameZero x < f.sameZero y)) s

def execFcmple (p : Option Pfx) (d a b : BitVec 8) (s : State) : Out :=
  fpCompare p d.toNat a.toNat b.toNat true (fun f x y => f.ordered x y && decide (f.sameZero x ≤ f.sameZero y)) s

def execFcmpun (p : Option Pfx) (d a b : BitVec 8) (s : State) : Out :=
  fpCompare p d.toNat a.toNat b.toNat false (fun f x y => !f.ordered x y) s

/-! ## Sign operations and classes (R185, R186) -/

/-- A sign operation that leaves the reserved NaN alone and never makes it. -/
def signOp (g : Nat → Nat) (f : Fmt) (x : Nat) : Nat :=
  if some x == f.reserved then x else if some (g x) == f.reserved then f.canonical else g x

/-- One operand whose function raises no flag. -/
def fpQuiet (p : Option Pfx) (d a : Nat) (g : Fmt → Nat → Nat) (s : State) : Out :=
  let f := myFmt s
  unary p d a (fun v => f.pack fun j => g f (f.elem v j)) s

def execFabs (p : Option Pfx) (d a : BitVec 8) (s : State) : Out :=
  fpQuiet p d.toNat a.toNat (fun f => signOp (fun x => x % 2 ^ (f.width - 1)) f) s

def execFneg (p : Option Pfx) (d a : BitVec 8) (s : State) : Out :=
  fpQuiet p d.toNat a.toNat (fun f => signOp (fun x => (x + 2 ^ (f.width - 1)) % 2 ^ f.width) f) s

/-- The class bit of an encoding (R185). -/
def Fmt.classOf (f : Fmt) (x : Nat) : Nat :=
  if some x == f.reserved then 10
  else if f.isNaN x then (if f.isSignalling x then 8 else 9)
  else if f.expOf x == f.ones then (if f.signOf x then 0 else 7)
  else if f.isSubnormal x then (if f.signOf x then 2 else 5)
  else if f.fracOf x == 0 && f.expOf x == 0 then (if f.signOf x then 3 else 4)
  else if f.signOf x then 1 else 6

def execFclass (p : Option Pfx) (d a : BitVec 8) (s : State) : Out :=
  let f := myFmt s
  let ra := regOf (me s) a.toNat
  let rd := regOf (me s) d.toNat
  compute p [d.toNat, a.toNat]
    [(d.toNat, laneRow [ra, rd] fun l =>
      truth ((List.range f.count).all fun j => (valAt rd l).getLsbD (f.classOf (f.elem (valAt ra l) j))))] s

/-! ## Row 6x (R187 to R189) -/

def execFrcp (p : Option Pfx) (d a : BitVec 8) (s : State) : Out :=
  fpUnary p d.toNat a.toNat (fun f => recipIn f (effRm p (me s)) (myFtz s)) s

def execFsqrt (p : Option Pfx) (d a : BitVec 8) (s : State) : Out :=
  fpUnary p d.toNat a.toNat (fun f => sqrtIn f (effRm p (me s)) (myFtz s)) s

/-- An approximation by its opcode. -/
def approxRow (op : Nat) (p : Option Pfx) (d a : BitVec 8) (s : State) : Out :=
  fpUnary p d.toNat a.toNat (fun f => approxIn op f (myFtz s)) s

def execFrsq (p : Option Pfx) (d a : BitVec 8) (s : State) : Out := approxRow 0x61 p d a s
def execFexp2 (p : Option Pfx) (d a : BitVec 8) (s : State) : Out := approxRow 0x63 p d a s
def execFlog2 (p : Option Pfx) (d a : BitVec 8) (s : State) : Out := approxRow 0x64 p d a s
def execFsin (p : Option Pfx) (d a : BitVec 8) (s : State) : Out := approxRow 0x65 p d a s
def execFcos (p : Option Pfx) (d a : BitVec 8) (s : State) : Out := approxRow 0x66 p d a s
def execFtanh (p : Option Pfx) (d a : BitVec 8) (s : State) : Out := approxRow 0x67 p d a s

/-- FRND: rounding with a spacing of 1 (R188). -/
def fpRound (rm : Nat) (ftz : Bool) (f : Fmt) (x : Nat) : Nat × BitVec 5 :=
  let a := f.flushIn ftz x
  match f.pickNaN [a] false, f.val a with
  | some r, _ => r
  | none, .fin n m e =>
    let r := roundUnits rm n m e
    ((f.round 0 (if r.1 == 0 then .zero n else .fin n r.1 0)).1, if r.2 then flagNX else 0)
  | none, _ => (a, 0)

def execFrnd (p : Option Pfx) (d a : BitVec 8) (s : State) : Out :=
  fpUnary p d.toNat a.toNat (fpRound (effRm p (me s)) (myFtz s)) s

/-- A 16-bit operand as the FP32 operand that PickNaN sees: a NaN widened with its quiet bit as it stands. -/
def widenOperand (f : Fmt) (x : Nat) : Nat :=
  if some x == f.reserved then 0x7FFFFFFF
  else if f.isNaN x then fp32.make (f.signOf x) fp32.ones (f.fracOf x * 2 ^ (23 - f.p))
  else (convert f fp32 0 false x).1

/-- FDOT2 on one lane (R189). -/
def fpDot2 (f : Fmt) (rm : Nat) (ftz : Bool) (a b c : Word) : Word × BitVec 5 :=
  let el := fun (v : Word) (j : Nat) => f.flushIn ftz (f.elem v j)
  let x := fp32.flushIn ftz c.toNat
  let r0 := (f.val (el a 0)).mul (f.val (el b 0))
  let r1 := (f.val (el a 1)).mul (f.val (el b 1))
  let r := fpSum fp32 rm ftz ([el a 0, el b 0, el a 1, el b 1].map (widenOperand f) ++ [x]) [r0.1, r1.1, fp32.val x]
    (r0.2 || r1.2)
  (BitVec.ofNat 32 r.1, r.2)

def execFdot2 (p : Option Pfx) (d a b : BitVec 8) (s : State) : Out :=
  let f := if modeEt (me s) == 6 then f16 else bf16
  let c := thirdReg p d.toNat
  let ra := regOf (me s) a.toNat
  let rb := regOf (me s) b.toNat
  let rc := regOf (me s) c
  fpCompute p [d.toNat, a.toNat, b.toNat, c] d.toNat [ra, rb, rc]
    (fun l => fpDot2 f (effRm p (me s)) (myFtz s) (valAt ra l) (valAt rb l) (valAt rc l)) s

end Sys2Proof.Machine
end

