-- ==== Sys2Proof/Machine/Lanes.lean ====
section
/-! DEFINITION. Cross-lane instructions: shuffles, votes, reductions and scans (R194 to R198). -/

namespace Sys2Proof.Machine

open Sys2Proof

/-! ## Shuffles (R195) -/

/-- A shuffle: the source lane of each lane, if in range; a lane outside Active() is replaced by the lane itself. -/
def shuffle (p : Option Pfx) (d a b : BitVec 8) (src : Nat → Nat → Option Nat) (s : State) : Out :=
  let ra := regOf (me s) a.toNat
  let rb := regOf (me s) b.toNat
  let m := act p s
  let row := rowOf fun l =>
    if poisonAt rb l then poisoned
    else
      match src l ((valAt rb l).toNat % 32) with
      | some k => if inMask m k then laneAt ra k else laneAt ra l
      | none => laneAt ra l
  compute p [d.toNat, a.toNat, b.toNat] [(d.toNat, row)] s

def execShfl (p : Option Pfx) (d a b : BitVec 8) (s : State) : Out := shuffle p d a b (fun _ n => some n) s

def execShflup (p : Option Pfx) (d a b : BitVec 8) (s : State) : Out :=
  shuffle p d a b (fun l n => if n ≤ l then some (l - n) else none) s

def execShfldn (p : Option Pfx) (d a b : BitVec 8) (s : State) : Out :=
  shuffle p d a b (fun l n => if l + n < 32 then some (l + n) else none) s

def execShflx (p : Option Pfx) (d a b : BitVec 8) (s : State) : Out := shuffle p d a b (fun l n => some (l ^^^ n)) s

/-! ## Votes (R196) -/

/-- A value over the whole lane set: every lane of it is poisoned if any source lane is (Table INSF.3). -/
def overLanes (p : Option Pfx) (d a : BitVec 8) (f : Word → Row → Nat → Word) (s : State) : Out :=
  let ra := regOf (me s) a.toNat
  let m := act p s
  let bad := poisonMask ra m != 0#32
  compute p [d.toNat, a.toNat] [(d.toNat, rowOf fun l => if bad then poisoned else clean (f m ra l))] s

/-- The lanes of a set whose bit 0 is 1. -/
def votes (m : Word) (r : Row) : Word := maskOf fun l => inMask m l && (valAt r l).getLsbD 0

def execVall (p : Option Pfx) (d a : BitVec 8) (s : State) : Out := overLanes p d a (fun m r _ => truth (votes m r == m)) s

def execVany (p : Option Pfx) (d a : BitVec 8) (s : State) : Out := overLanes p d a (fun m r _ => truth (votes m r != 0#32)) s

def execBallot (p : Option Pfx) (d a : BitVec 8) (s : State) : Out := overLanes p d a (fun m r _ => votes m r) s

def execMatchv (p : Option Pfx) (d a : BitVec 8) (s : State) : Out :=
  overLanes p d a (fun m r l => maskOf fun k => inMask m k && valAt r k == valAt r l) s

def execElect (p : Option Pfx) (d : BitVec 8) (s : State) : Out :=
  compute p [d.toNat] [(d.toNat, splat (BitVec.ofNat 32 (lowestLane (act p s))))] s

/-! ## Reductions (R197) -/

/-- The operations of the reductions and scans, in SCAN's codes. -/
inductive RedOp where
  | add
  | min
  | max
  | or
  | and
  deriving DecidableEq, Repr

/-- An integer reduction of element values; the identity for none (R198). -/
def intReduce (t : IntEt) (sat : Bool) (op : RedOp) (xs : List Int) : Nat :=
  match op, xs with
  | .add, _ => intOut t sat (xs.foldl (· + ·) 0)
  | .min, [] => if t.signed then 2 ^ (t.n - 1) - 1 else 2 ^ t.n - 1
  | .min, x :: r => wrap t.n (r.foldl min x)
  | .max, [] => if t.signed then 2 ^ (t.n - 1) else 0
  | .max, x :: r => wrap t.n (r.foldl max x)
  | _, _ => 0

/-- A floating-point reduction of element encodings in ascending lane order. -/
def fpReduce (f : Fmt) (rm : Nat) (ftz : Bool) (op : RedOp) (raw : List Nat) : Nat × BitVec 5 :=
  let xs := raw.map (f.flushIn ftz)
  match op, xs with
  | .add, [] => (0, 0)
  | .add, _ => fpSum f rm ftz xs (xs.map f.val) false
  | .min, [] => (f.inf false, 0)
  | .min, x :: r => (f.pickNaN xs false).getD (r.foldl (f.pick true) x, 0)
  | .max, [] => (f.inf true, 0)
  | .max, x :: r => (f.pickNaN xs false).getD (r.foldl (f.pick false) x, 0)
  | _, _ => (0, 0)

/-- A reduction of the lanes of a set (R197), with its flags. -/
def reduce (w : Warp) (op : RedOp) (r : Row) (m : Word) : Word × BitVec 5 :=
  let ls := lanesOf m
  match op with
  | .or => (ls.foldl (fun x l => x ||| valAt r l) 0#32, 0)
  | .and => (ls.foldl (fun x l => x &&& valAt r l) 0xFFFFFFFF#32, 0)
  | _ =>
    if modeEt w < 4 then
      let t := intEt (modeEt w)
      (t.pack fun j => intReduce t (modeSat w) op (ls.map fun l => t.elem (valAt r l) j), 0)
    else
      let f := fpEt (modeEt w)
      f.each fun j => fpReduce f (w.mode.extractLsb' 14 3).toNat (modeFtz w) op (ls.map fun l => f.elem (valAt r l) j)

/-- A reduction over Active(). -/
def reduceRow (op : RedOp) (p : Option Pfx) (d a : BitVec 8) (s : State) : Out :=
  let ra := regOf (me s) a.toNat
  let m := act p s
  let r := reduce (me s) op ra m
  let bad := poisonMask ra m != 0#32
  guarded (laneCauses p [d.toNat, a.toNat] s)
    (advance (holdRegs [d.toNat] true (raiseFlags (if bad || m == 0#32 then 0 else r.2)
      (writeDests p [(d.toNat, rowOf fun _ => if bad then poisoned else clean r.1)] s)))) s

def execRedadd (p : Option Pfx) (d a : BitVec 8) (s : State) : Out := reduceRow .add p d a s
def execRedmin (p : Option Pfx) (d a : BitVec 8) (s : State) : Out := reduceRow .min p d a s
def execRedmax (p : Option Pfx) (d a : BitVec 8) (s : State) : Out := reduceRow .max p d a s
def execRedand (p : Option Pfx) (d a : BitVec 8) (s : State) : Out := reduceRow .and p d a s
def execRedor (p : Option Pfx) (d a : BitVec 8) (s : State) : Out := reduceRow .or p d a s

/-- The lanes of a prefix: those up to lane `l`, or below it (R198). -/
def scanLanes (m : Word) (excl : Bool) (l : Nat) : Word := maskOf fun k => inMask m k && (decide (k < l) || (!excl && k == l))

def execScan (p : Option Pfx) (d a : BitVec 8) (e : BitVec 1) (q : BitVec 2) (s : State) : Out :=
  let w := me s
  let ra := regOf w a.toNat
  let m := act p s
  let op : RedOp := if q == 0#2 then .add else if q == 1#2 then .min else if q == 2#2 then .max else .or
  let set := fun l => scanLanes m (e == 1#1) l
  let bad := fun l => poisonMask ra (set l) != 0#32
  let flags := (lanesOf m).foldl (fun fl l => if bad l then fl else fl ||| (reduce w op ra (set l)).2) 0
  guarded (laneCauses p [d.toNat, a.toNat] s)
    (advance (holdRegs [d.toNat] true (raiseFlags flags
      (writeDests p [(d.toNat, rowOf fun l => if bad l then poisoned else clean (reduce w op ra (set l)).1)] s)))) s

end Sys2Proof.Machine
end

