-- ==== Sys2Proof/Machine/Gate.lean ====
section
/-! DEFINITION. Redundant launches as instructions meet them: the store gate (R42), signatures (R43), and waiting at a
comparison point (R44, R45). -/

namespace Sys2Proof.Machine

open Sys2Proof

/-- Whether a warp belongs to a redundant launch. -/
def isRedundant (s : State) (w : Warp) : Bool := (launchOf s w).redundant

/-- The twin of a team: the other copy (R41). -/
def twinTeam (s : State) (t : Team) : Option Team :=
  s.teams.find? fun u => u.task == t.task && u.index == t.index && u.copy != t.copy && !u.ended

/-- The place of the twin of a warp. -/
def twinWarp (s : State) (w : Warp) : Option Nat :=
  match twinTeam s (teamOf s w) with
  | none => none
  | some u =>
    let i := warpOfTeam s u.id w.wid
    if i < s.warps.length then some i else none

/-- One byte of the CRC-64 of R43, its most significant bit first. (Log 147: DESIGN CHOICE, unsafe.) -/
def crcByte (c : BitVec 64) (b : Byte) : BitVec 64 :=
  (List.range 8).foldl (fun c _ => if c.getLsbD 63 then (c <<< 1) ^^^ 0x42F0E1EBA9EA3693#64 else c <<< 1)
    (c ^^^ (b.zeroExtend 64 <<< 56))

/-- A record of a signature: virtual address, size, data (R43). (Log 44: DEDUCED, unsafe.) -/
def crcRecord (c : BitVec 64) (va size : Nat) (bs : List Byte) : BitVec 64 :=
  (toBytes 8 va ++ toBytes 1 size ++ bs).foldl crcByte c

/-- The number of records that a warp's signature covers. -/
def Warp.records (w : Warp) : Nat := w.sigBase + w.sigLog.length

/-- One more record in a warp's signature (R43). -/
def Warp.sign (w : Warp) (va size : Nat) (bs : List Byte) : Warp :=
  let c := crcRecord w.sig va size bs
  { w with sig := c, sigLog := w.sigLog ++ [c] }

/-- A team changed by its number. -/
def onTeam (s : State) (id : Nat) (g : Team → Team) : State :=
  { s with teams := updateFirst (fun t => t.id == id) g s.teams }

/-- The bytes a gate holds, counted entry by entry. (Log 148: DESIGN CHOICE, unsafe.) -/
def gateUsed (t : Team) : Nat := total (t.gate.map fun g => g.data.length)

/-- The bytes that a team's issued copies have still to put in its gate. (Log 148: DESIGN CHOICE, unsafe.) -/
def gateOwed (s : State) (id : Nat) : Nat :=
  total ((s.copies.filter fun c => c.team == id).map fun c => match c.dst with
    | .mem _ => if c.accepted then 128 * c.lines.length else c.len * c.rows
    | .scratch _ => 0)

/-- Whether a store of n more bytes would overfill the gate (R44), beside what issued copies are to put there. (Log 148: DESIGN CHOICE, unsafe.) -/
def gateFull (s : State) (w : Warp) (n : Nat) : Bool :=
  isRedundant s w && decide (65536 < gateUsed (teamOf s w) + gateOwed s w.team + n)

/-- A write into the gate of a warp's copy, under one of its records; the configuration block discards it (R19). -/
def gatePush (s : State) (w : Warp) (ord a : Nat) (bs : List Byte) (p : Bool) : State :=
  if inBlock a then s
  else onTeam s w.team fun t => { t with gate := t.gate ++ [{ wid := w.wid, ord := ord, addr := a, data := bs, poison := p }] }

/-- What the newest gated bytes of a copy make of some bytes read from memory (R42). -/
def gateOver (t : Team) (a : Nat) (bs : List Byte) (bad : Bool) : List Byte × Bool :=
  let base : Memory := { cells := [], poison := if bad then wordsTouched a bs.length else [] }
  let m := t.gate.foldl (fun (m : Memory) g =>
    if decide (g.addr < a + bs.length + 4) && decide (a < g.addr + g.data.length + 4) then m.write g.addr g.data g.poison else m)
    (base.setBytes a bs)
  (m.read a bs.length, m.readBad a bs.length)

/-- The fragment stands at a comparison point of the kind of R448. -/
def standAt (kind : Nat) (s : State) : State := setFr s { fr s with wait := .compare kind }

/-- Whether the issuing instruction has still to pass a comparison point. (Log 43: DEDUCED, unsafe.) -/
def mustCompare (s : State) : Bool := isRedundant s (me s) && !(fr s).compared

/-- Whether the issuing warp belongs to copy 1, whose atomics and LOCKs copy 0 performs (R45, R222). (Log 43: DEDUCED, unsafe.) -/
def isCopy1 (s : State) : Bool := isRedundant s (me s) && (teamOf s (me s)).copy == 1

end Sys2Proof.Machine
end

