-- ==== Sys2Proof/Machine/Mem.lean ====
section
/-! DEFINITION. The access machinery of rows 8x to Ax: addresses and spots of the lanes, the causes of R392, R407 to R415,
reads and writes at a spot, operations in flight and their counters (R205), and the ordering actions (R211). -/

namespace Sys2Proof.Machine

open Sys2Proof

/-! ## Causes -/

/-- The first address of the lanes of a set that satisfy `bad`, as a cause. -/
def laneCause (m : Word) (bad : Nat → Bool) (mk : Word → Nat → Cause) : List Cause :=
  let b := maskOf fun l => inMask m l && bad l
  if b == 0#32 then [] else [mk b (lowestLane b)]

/-- Misaligned lanes (R392). -/
def alignCauses (m : Word) (addr : Nat → Nat) (size : Nat) : List Cause :=
  laneCause m (fun l => addr l % size != 0) fun b l =>
    { cls := 2, code := 0x020, res := true, lanes := b, addr := BitVec.ofNat 64 (addr l), info := BitVec.ofNat 32 size }

/-- Refused lanes, as the cause with the lowest code (R388, R409); code 0x011 names the lowest lane of all (Table XLTF.1). -/
def spotCauses (s : State) (w : Warp) (m : Word) (addr : Nat → Nat) (need : Need) (atomic : Bool) : List Cause :=
  let fails := (lanesOf m).filterMap fun l =>
    match spotOf s w (addr l) need atomic with
    | .error d => some (l, d)
    | .ok _ => none
  match argMin (fun (x : Nat × Deny) => (x.2.cause 0 0).rank) fails with
  | none => []
  | some (l, d) =>
    let lanes := maskOf fun k => fails.any fun y => y.1 == k && y.2.cls == d.cls && y.2.code == d.code
    if d.cls == 3 && d.code == 0x011 then [d.cause 0 (BitVec.ofNat 64 (addr (lowestLane m)))]
    else [d.cause lanes (BitVec.ofNat 64 (addr l))]

/-- The TLBs after the pages of some lanes have been used. -/
def fillPages (s : State) (w : Warp) (m : Word) (addr : Nat → Nat) : State :=
  let world := (launchOf s w).world
  (lanesOf m).foldl (fun s l =>
    if aperture ≤ addr l then s
    else
      match pageFor s w.core world (addr l) with
      | .ok e => tlbFill s e w.core
      | .error _ => s) s

/-- The causes of an access by lanes of a set: poison in an address register, registers outside the warp, alignment,
translation. -/
def accessCauses (p : Option Pfx) (s : State) (m : Word) (areg : Nat) (named : List Nat) (addr : Nat → Nat)
    (size : Nat) (need : Need) (atomic : Bool) : List Cause :=
  consumed (poisonIn (me s) m [areg, areg + 1] ||| guardPoison p (me s) (fr s)) ++
    outside s (named ++ guardRegs p (me s)) ++ alignCauses m addr size ++ spotCauses s (me s) m addr need atomic

/-! ## One piece of at most 4 bytes within a word -/

/-- Reads at a spot: the state after any fetch, the bytes, their poison. -/
def readSpot (s : State) (w : Warp) (sp : Spot) (n : Nat) (kind : LineKind) : State × List Byte × Bool :=
  match sp with
  | .mem a =>
    let (s, bs, bad) := coreRead s w.core a n kind
    if isRedundant s w then (s, gateOver (teamOf s w) a bs bad) else (s, bs, bad)
  | .store a => (s, s.mem.read a n, s.mem.readBad a n)
  | .reg team wid r off =>
    let x := laneAt (regOf (s.warps.getD (warpOfTeam s team wid) {}) r) (off / 4)
    (s, ((toBytes 4 x.val.toNat).drop (off % 4)).take n, x.poison)

/-- A lane of a register with some of its bytes written (R373). -/
def patchLane (x : Lane) (off : Nat) (bs : List Byte) (p : Bool) : Lane :=
  if p then poisoned
  else
    let old := toBytes 4 x.val.toNat
    let v := BitVec.ofNat 32 (ofBytes (old.take off ++ bs ++ old.drop (off + bs.length)))
    if x.poison && bs.length < 4 then x else clean v

/-- A write at a spot at a scope (codes of Table EXEC.6). -/
def writeSpot (s : State) (w : Warp) (sp : Spot) (bs : List Byte) (p : Bool) (kind : LineKind) (scope : Nat) : State :=
  match sp with
  | .mem a =>
    if inBlock a then s
    else if isRedundant s w then gatePush s w (w.records + 1) a bs p
    else if 2 ≤ scope then throughWrite s w.core a bs p
    else coreWrite s w.core a kind bs p
  | .store a => { s with mem := s.mem.write a bs p }
  | .reg team wid r off =>
    onWarp s (warpOfTeam s team wid) fun v =>
      let row := regOf v r
      dirtied { v with regs := v.regs.set r (rowOf fun l => if l == off / 4 then patchLane (laneAt row l) (off % 4) bs p else laneAt row l) } [r]

/-- A spot some bytes further on. -/
def Spot.plus (sp : Spot) (n : Nat) : Spot :=
  match sp with
  | .mem a => .mem (a + n)
  | .store a => .store (a + n)
  | .reg team wid r off => .reg team wid r (off + n)

/-! ## Loads -/

/-- The words of one lane's access of `size` bytes: each register's lane. -/
def loadLane (s : State) (w : Warp) (va size : Nat) (ext : Nat → Word) : State × List Lane :=
  match spotOf s w va .read false with
  | .error _ => (s, [])
  | .ok sp =>
    let kind := lineKindAt s w va
    if size < 4 then
      let (s, bs, bad) := readSpot s w sp size kind
      (s, [if bad then poisoned else clean (ext (ofBytes bs))])
    else
      (List.range (size / 4)).foldl (fun (acc : State × List Lane) i =>
        let (s, bs, bad) := readSpot acc.1 w (sp.plus (4 * i)) 4 kind
        (s, acc.2 ++ [if bad then poisoned else clean (wordIn bs 0)])) (s, [])

/-- The words of every lane of a set, by lane. -/
def loadLanes (s : State) (w : Warp) (m : Word) (addr : Nat → Nat) (size : Nat) (ext : Nat → Word) :
    State × List (Nat × List Lane) :=
  (lanesOf m).foldl (fun (acc : State × List (Nat × List Lane)) l =>
    let (s, xs) := loadLane acc.1 w (addr l) size ext
    (s, (l, xs) :: acc.2)) (s, [])

/-- The rows of `n` registers from what each lane received. -/
def rowsFrom (n : Nat) (t : List (Nat × List Lane)) : List Row :=
  (List.range n).map fun i => rowOf fun l => (look t l []).getD i {}

/-! ## Operations in flight (R205) -/

/-- What an access asks of places beyond the core's L1: of memory only where the L1 lacks its bytes, or always, or not at all (a
store that the L1 or the gate takes). -/
inductive Asks where
  | misses
  | all
  | none
  deriving DecidableEq, Repr, Inhabited

/-- The machine-physical line of the register file's window that holds a register of a resident warp (R56): its team's allocation begins at a
granule of 8 warp-registers. -/
def registerPlace (s : State) (team wid reg : Nat) : Nat :=
  let t := teamById s team
  windowBase t.core + 0x480000 + (t.regBase * 8 + wid * ((taskAt s t.task).launch).regs + reg) * 128

/-- The line that one lane's access of `n` bytes asks a home or a window for, if any (R59, R64). -/
def askedBy (s : State) (w : Warp) (va n : Nat) (need : Need) (k : Asks) : Option Nat :=
  match spotOf s w va need false with
  | .ok (.mem a) =>
    let want := byteMask (a % 128) n
    let hit := ((l1Find s w.core a).map fun x => x.present &&& want == want).getD false
    if k == .all || (k == .misses && !hit) then some (lineBase a) else none
  | .ok (.store a) => some (lineBase a)
  | .ok (.reg team wid reg _) => some (registerPlace s team wid reg)
  | .error _ => none

/-- The lines that an access asks for, each once (R202). -/
def askedLines (s : State) (w : Warp) (m : Word) (addr : Nat → Nat) (n : Nat) (need : Need) (k : Asks) : List Nat :=
  ((lanesOf m).filterMap fun l => askedBy s w (addr l) n need k).eraseDups

/-- The lines of memory that the lanes of a set access through the L1, each once (R202). -/
def l1Lines (s : State) (w : Warp) (m : Word) (addr : Nat → Nat) (need : Need) : List Nat :=
  ((lanesOf m).filterMap fun l => match spotOf s w (addr l) need false with
    | .ok (.mem a) => some (lineBase a)
    | _ => none).eraseDups

/-- Team counters 3 and 4 after some lines are asked of the L1 as it stood before: those it held, and those it did not (Table ISAE.6). (Log 139: DESIGN CHOICE, safe.) -/
def countLines (before : State) (w : Warp) (lines : List Nat) (s : State) : State :=
  let hits := (lines.filter fun a => (l1Find before w.core a).isSome).length
  countPerf (countPerf s w.team 3 hits) w.team 4 (lines.length - hits)

/-- An operation issued: counted, its destinations held, and left for its reply. (Log 9: DESIGN CHOICE, unsafe.) -/
def launchOp (c : Ctr) (writes : List (Nat × Row)) (a z : Word) (addr : DWord) (homes : List Nat) (stnt : Bool) (s : State) : State :=
  let w := me s
  let f := fr s
  let op : Op :=
    { id := s.nextId, core := w.core, team := w.team, wid := w.wid, ctr := c, writes := writes, active := a, zero := z
      hold := if writes.isEmpty then .none else some (s.nextId + 1), fragId := f.id, frag := f.frag, pc := f.pc
      instr := s.cur.word, pfxWord := s.cur.pfxWord, addr := addr, stnt := stnt, homes := homes }
  let h : List Hold := if writes.isEmpty then [] else [{ id := s.nextId + 1, regs := writes.map (·.1) }]
  let w := dirtied (w.onCtr c (· + 1)) (writes.map (·.1))
  { setMe s { w with holds := w.holds ++ h } with ops := s.ops ++ [op], nextId := s.nextId + 2 }

/-- The reply of a load or atomic: its destinations written, its counter down (R205); the later accesses an acquire
held may issue. -/
def finishOp (s : State) (op : Op) : State :=
  let i := warpOfTeam s op.team op.wid
  let s := { s with ops := s.ops.filter fun o => o.id != op.id }
  onWarp s i fun w =>
    let w := dirtied (writeRegs w op.active op.zero op.writes) (op.writes.map (·.1))
    { w.onCtr op.ctr (· - 1) with holds := w.holds.filter fun h => some h.id != op.hold }

/-! ## Departure (R310) -/

/-- Whether a warp's counters have all fallen to 0. -/
def countersZero (w : Warp) : Bool := w.cntLd == 0 && w.cntSt == 0 && w.cntCp == 0 && w.cntTl == 0

/-! ## Waiting before an access -/

/-- The places in window storage where the lanes of a set reach (R59). -/
def windowPlaces (s : State) (w : Warp) (m : Word) (addr : Nat → Nat) (need : Need) : List Nat :=
  (lanesOf m).filterMap fun l =>
    if addr l < aperture then none
    else
      match spotOf s w (addr l) need false with
      | .ok (.store a) => some a
      | _ => none

/-- An access through a window to a tile that an array has queued or is working on waits for the array (R60, R276). (Log 51: DESIGN CHOICE, unsafe.) -/
def tilesFree (s : State) (places : List Nat) (size : Nat) : Bool := holds s (me s) (.tiles places size)
def waitTiles (places : List Nat) (size : Nat) (s : State) : State := waitFor (.tiles places size) s

/-- A counter of the warp is full: the buffer gives up the warp's STNT bytes (R29), and the instruction waits. -/
def waitCounter (c : Ctr) (s : State) : State :=
  let mine := (opsOf s (me s)).map (·.id)
  let s := if c == .st then wcbDrain s fun x => x.core == (me s).core && x.ops.any fun o => mine.contains o else s
  waitFor (.counter c) s

/-- The before-actions of a release at a scope: the buffer drained at package and wider, and every earlier access
complete. -/
def waitDrained (scope : Nat) (s : State) : State :=
  let s := if 4 ≤ scope then wcbDrain s fun x => x.core == (me s).core else s
  waitFor (.drained (decide (4 ≤ scope))) s

/-- Whether an order calls for a release, and for an acquire (Table ISAM.4; orders 0 relaxed, 1 acquire, 2 release,
3 acq_rel, 4 sc). -/
def releases (order : Nat) : Bool := decide (2 ≤ order)
def acquires (order : Nat) : Bool := order == 1 || decide (3 ≤ order)

/-- The waits of an ordered access, then its causes, then its effect between its ordering actions.  `kind` is the
comparison point it makes in a redundant launch whatever its order. -/
def orderedAccess (order scope : Nat) (c : Option Ctr) (kind : Option Nat) (causes : List Cause) (effect : State → State)
    (s : State) : Out :=
  let point := match kind with
    | some k => some k
    | none => if releases order && decide (2 ≤ scope) then some 0 else none
  if releases order && !holds s (me s) (.drained (decide (4 ≤ scope))) then .next (waitDrained scope s)
  else
    match c with
    | some c =>
      if !holds s (me s) (.counter c) then .next (waitCounter c s)
      else if causes.isEmpty && point.isSome && mustCompare s then .next (standAt (point.getD 0) s)
      else
        guarded causes (effect (if releases order then releaseActs s (me s).core scope else s)) s
    | none =>
      if causes.isEmpty && point.isSome && mustCompare s then .next (standAt (point.getD 0) s)
      else guarded causes (effect (if releases order then releaseActs s (me s).core scope else s)) s

/-- The acquire actions after an access, its later accesses held until the reply of operation `op` (R211). (Log 45: DESIGN CHOICE, unsafe.) -/
def acquireAfter (order scope op : Nat) (s : State) : State :=
  if acquires order then
    let s := acquireActs s (me s).core scope
    setFr s { fr s with acquire := [op] }
  else s

end Sys2Proof.Machine
end

