-- ==== Sys2Proof/Machine/Memory.lean ====
section
/-! DEFINITION. Plain, read-only, non-temporal and ordered loads and stores, PREF, FENCE, LDM and STM (R206 to R214), and the
replies that end them (R205). -/

namespace Sys2Proof.Machine

open Sys2Proof

/-! ## Loads (R206, R207) -/

/-- A load issued over its lanes: an empty lane set makes no access (R126). -/
def loadEffect (p : Option Pfx) (d n : Nat) (addr : Nat → Nat) (size : Nat) (ext : Nat → Word) (ask : Asks) (s : State) : State :=
  let m := act p s
  let (s', t) := loadLanes (fillPages s (me s) m addr) (me s) m addr size ext
  let rows := rowsFrom n t
  launchOp .ld (rows.zipIdx.map fun x => (d + x.2, x.1)) m (zer p s) (BitVec.ofNat 64 (addr (lowestLane m)))
    (askedLines s (me s) m addr size .read ask) false (countLines s (me s) (l1Lines s (me s) m addr .read) s')

/-- The zeroing of an instruction whose lane set is empty. -/
def emptyLoad (p : Option Pfx) (d n : Nat) (s : State) : State :=
  writeDests p ((regRun d n).map fun r => (r, zeroRow)) s

/-- A plain load of `size` bytes into `n` registers. (Log 9: DESIGN CHOICE, unsafe.) -/
def plainLoad (p : Option Pfx) (d a o : BitVec 8) (size n : Nat) (ext : Nat → Word) (s : State) : Out :=
  let w := me s
  let m := act p s
  let addr := fun l => (addrAt w a.toNat l (immSigned p o * size)).toNat
  let named := regRun d.toNat n ++ [a.toNat, a.toNat + 1]
  let causes := accessCauses p s m a.toNat named addr size .read false
  let places := windowPlaces s w m addr .read
  if m == 0#32 then guarded (outside s (named ++ guardRegs p w)) (advance (emptyLoad p d.toNat n s)) s
  else if !holds s w (.counter .ld) then .next (waitCounter .ld s)
  else if causes.isEmpty && !tilesFree s places size then .next (waitTiles places size s)
  else guarded causes (advance (loadEffect p d.toNat n addr size ext .misses s)) s

/-- A narrow load's extension. -/
def zeroExt (v : Nat) : Word := BitVec.ofNat 32 v
def signExt8 (v : Nat) : Word := wordOf (signExt v 8)
def signExt16 (v : Nat) : Word := wordOf (signExt v 16)

def execLdb (p : Option Pfx) (d a o : BitVec 8) (s : State) : Out := plainLoad p d a o 1 1 zeroExt s
def execLdbs (p : Option Pfx) (d a o : BitVec 8) (s : State) : Out := plainLoad p d a o 1 1 signExt8 s
def execLdh (p : Option Pfx) (d a o : BitVec 8) (s : State) : Out := plainLoad p d a o 2 1 zeroExt s
def execLdhs (p : Option Pfx) (d a o : BitVec 8) (s : State) : Out := plainLoad p d a o 2 1 signExt16 s
def execLdw (p : Option Pfx) (d a o : BitVec 8) (s : State) : Out := plainLoad p d a o 4 1 zeroExt s
def execLdd (p : Option Pfx) (d a o : BitVec 8) (s : State) : Out := plainLoad p d a o 8 2 zeroExt s
def execLdq (p : Option Pfx) (d a o : BitVec 8) (s : State) : Out := plainLoad p d a o 16 4 zeroExt s
def execLdwr (p : Option Pfx) (d a o : BitVec 8) (s : State) : Out := plainLoad p d a o 4 1 zeroExt s
def execLdqr (p : Option Pfx) (d a o : BitVec 8) (s : State) : Out := plainLoad p d a o 16 4 zeroExt s

/-! ## Stores (R206) -/

/-- The pieces of one lane's store: offset, bytes, poison; a piece lies within one word. -/
def storePieces (w : Warp) (d l size : Nat) : List (Nat × List Byte × Bool) :=
  if size < 4 then
    let x := laneAt (regOf w d) l
    [(0, (toBytes 4 x.val.toNat).take size, x.poison)]
  else (List.range (size / 4)).map fun i =>
    let x := laneAt (regOf w (d + i)) l
    (4 * i, toBytes 4 x.val.toNat, x.poison)

/-- The pieces of one access of a lane: offset from its address, bytes, poison. -/
abbrev Pieces := List (Nat × List Byte × Bool)

/-- One access of a lane that stores: its virtual address, its spot, and its pieces. -/
structure LaneStore where
  va : Nat
  spot : Spot
  pieces : Pieces
  deriving DecidableEq, Repr

/-- The accesses of the lanes of a set, in ascending lane order, with their spots. -/
def laneStores (s : State) (w : Warp) (m : Word) (accesses : Nat → List (Nat × Pieces)) : List LaneStore :=
  (lanesOf m).flatMap fun l => (accesses l).filterMap fun x => match spotOf s w x.1 .write false with
    | .ok sp => some { va := x.1, spot := sp, pieces := x.2 }
    | .error _ => none

/-- The accesses that are made: of those at one spot the highest lane's, for lower lanes' values are never written (R202). -/
def lastStores : List LaneStore → List LaneStore
  | [] => []
  | x :: rest => if rest.any (fun y => y.spot == x.spot) then lastStores rest else x :: lastStores rest

/-- One access of the issuing warp made at a scope, with its record in the signature of a redundant copy. -/
def storeAt (scope : Nat) (s : State) (x : LaneStore) : State :=
  let w := me s
  let t := x.pieces.foldl (fun t y => writeSpot t w (x.spot.plus y.1) y.2.1 y.2.2 (lineKindAt s w x.va) scope) s
  let bs := x.pieces.flatMap (·.2.1)
  let t := noteStore t w x.va bs.length
  match x.spot with
  | .mem _ => if isRedundant s w then setMe t ((me t).sign x.va bs.length bs) else t
  | _ => t

/-- The stores of the lanes of a set (R202); each lane's accesses in order, in ascending lane order (R43). -/
def storeLanes (s : State) (m : Word) (accesses : Nat → List (Nat × Pieces)) (scope : Nat) : State :=
  (lastStores (laneStores s (me s) m accesses)).foldl (storeAt scope) s

/-- What a store at a scope asks beyond the L1: at quad scope or wider its homes, unless the gate takes it. -/
def storeAsks (s : State) (w : Warp) (scope : Nat) : Asks := if 2 ≤ scope && !isRedundant s w then .all else .none

/-- A store issued over its lanes. -/
def storeEffect (m : Word) (addr : Nat → Nat) (d size scope : Nat) (s : State) : State :=
  let w := me s
  let s := fillPages s w m addr
  launchOp .st [] m 0 (BitVec.ofNat 64 (addr (lowestLane m))) (askedLines s w m addr size .write (storeAsks s w scope)) false
    (countLines s w (l1Lines s w m addr .write) (storeLanes s m (fun l => [(addr l, storePieces w d l size)]) scope))

/-- A plain store of `size` bytes. (Log 9: DESIGN CHOICE, unsafe.) -/
def plainStore (p : Option Pfx) (d a o : BitVec 8) (size n : Nat) (s : State) : Out :=
  let w := me s
  let m := act p s
  let addr := fun l => (addrAt w a.toNat l (immSigned p o * size)).toNat
  let named := regRun d.toNat n ++ [a.toNat, a.toNat + 1]
  let causes := accessCauses p s m a.toNat named addr size .write false
  let places := windowPlaces s w m addr .write
  if m == 0#32 then guarded (outside s (named ++ guardRegs p w)) (advance s) s
  else if !holds s w (.counter .st) then .next (waitCounter .st s)
  else if causes.isEmpty && !tilesFree s places size then .next (waitTiles places size s)
  else if causes.isEmpty && gateFull s w (size * laneCount m) then .next (standAt 2 s)
  else guarded causes (advance (storeEffect m addr d.toNat size 1 s)) s

def execStb (p : Option Pfx) (d a o : BitVec 8) (s : State) : Out := plainStore p d a o 1 1 s
def execSth (p : Option Pfx) (d a o : BitVec 8) (s : State) : Out := plainStore p d a o 2 1 s
def execStw (p : Option Pfx) (d a o : BitVec 8) (s : State) : Out := plainStore p d a o 4 1 s
def execStd (p : Option Pfx) (d a o : BitVec 8) (s : State) : Out := plainStore p d a o 8 2 s
def execStq (p : Option Pfx) (d a o : BitVec 8) (s : State) : Out := plainStore p d a o 16 4 s

/-! ## STNT (R208) -/

/-- The oldest line of a core's buffer sent home where a ninth line is needed. -/
def wcbRoom (s : State) (core base : Nat) : State :=
  let mine := s.wcb.filter fun x => x.core == core
  if mine.any (fun x => x.base == base) || decide (mine.length < 8) then s
  else
    match mine.head? with
    | some x => wcbSend s x
    | none => s

/-- Bytes of one word put into a core's write-combining buffer for operation `op`; a full line leaves. -/
def wcbPut (s : State) (core a op : Nat) (bs : List Byte) (p : Bool) : State :=
  let base := lineBase a
  let s := wcbRoom s core base
  let same := fun (x : WcbLine) => x.core == core && x.base == base
  let s := if s.wcb.any same then s else { s with wcb := s.wcb ++ [{ core := core, base := base, present := 0, data := {}, ops := [] }] }
  let add := fun (x : WcbLine) =>
    { x with
      present := x.present ||| (if p then byteMask (wordBase (a % 128)) 4 else byteMask (a % 128) bs.length)
      data := x.data.write (a % 128) bs p
      ops := if x.ops.contains op then x.ops else x.ops ++ [op] }
  let s := { s with wcb := updateFirst same add s.wcb }
  match s.wcb.find? same with
  | some x => if x.present == allBytes then wcbSend s x else s
  | none => s

/-- Whether a spot is in memory, not in a window. -/
def Spot.inMemory : Spot → Bool
  | .mem _ => true
  | _ => false

/-- One lane of an STNT: the L1's copy updated in place, the bytes to the buffer; a window takes a plain store, and the
configuration block discards it (R19). -/
def stntLane (op : Nat) (s : State) (x : LaneStore) : State :=
  match x.spot, x.pieces with
  | .mem a, [(_, bs, p)] =>
    if isRedundant s (me s) then storeAt 1 s x
    else if inBlock a then s
    else
      let s := match l1Find s (me s).core a with
        | some y => l1Put s (linePatch y (a % 128) bs p true)
        | none => s
      wcbPut (noteStore s (me s) x.va bs.length) (me s).core a op bs p
  | _, _ => storeAt 1 s x

def execStnt (p : Option Pfx) (d a o : BitVec 8) (s : State) : Out :=
  let w := me s
  let m := act p s
  let addr := fun l => (addrAt w a.toNat l (immSigned p o * 4)).toNat
  let named := [d.toNat, a.toNat, a.toNat + 1]
  let causes := accessCauses p s m a.toNat named addr 4 .write false
  let places := windowPlaces s w m addr .write
  let effect :=
    let s' := fillPages s w m addr
    let xs := lastStores (laneStores s' w m fun l => [(addr l, storePieces w d.toNat l 4)])
    xs.foldl (stntLane s.nextId)
      (launchOp .st [] m 0 (BitVec.ofNat 64 (addr (lowestLane m))) (askedLines s' w m addr 4 .write (storeAsks s' w 2))
        (xs.any fun x => x.spot.inMemory) s')
  if m == 0#32 then guarded (outside s (named ++ guardRegs p w)) (advance s) s
  else if !holds s w (.counter .st) then .next (waitCounter .st s)
  else if causes.isEmpty && !tilesFree s places 4 then .next (waitTiles places 4 s)
  else if causes.isEmpty && gateFull s w (4 * laneCount m) then .next (standAt 2 s)
  else guarded causes (advance effect) s

/-! ## PREF (R209) -/

/-- The line of one lane requested, or dropped. (Log 149: DESIGN CHOICE, unsafe.) -/
def prefLane (s : State) (w : Warp) (va : Nat) (l1 : Bool) : State :=
  if aperture ≤ va then s
  else
    match spotOf s w va .read false with
    | .ok (.mem a) => if l1 then l1Fill s w.core (lineBase a) 128 (lineKindAt s w va) else noteSharer s w.core a
    | _ => s

/-- PREF at a level: it never faults, and a lane whose address or guard is poisoned, or whose registers lie outside the warp,
requests nothing (R209). (Log 149: DESIGN CHOICE, unsafe.) -/
def prefetch (p : Option Pfx) (a o : BitVec 8) (l1 : Bool) (s : State) : Out :=
  let w := me s
  let named := [a.toNat, a.toNat + 1] ++ guardRegs p w
  let bad := poisonIn w (act p s) [a.toNat, a.toNat + 1] ||| guardPoison p w (fr s)
  let m := if (outside s named).isEmpty then act p s &&& ~~~bad else 0#32
  let addr := fun l => (addrAt w a.toNat l (immSigned p o * 4)).toNat
  .next (advance ((lanesOf m).foldl (fun s l => prefLane s w (addr l) l1) s))

def execPrefL1 (p : Option Pfx) (a o : BitVec 8) (s : State) : Out := prefetch p a o true s
def execPrefHome (p : Option Pfx) (a o : BitVec 8) (s : State) : Out := prefetch p a o false s

/-! ## LDACQ, STREL, FENCE (R210, R211) -/

/-- The lines that an LDACQ at quad scope or wider touches, refreshed from their homes. -/
def refreshLanes (s : State) (w : Warp) (m : Word) (addr : Nat → Nat) : State :=
  (lanesOf m).foldl (fun s l =>
    match spotOf s w (addr l) .read false with
    | .ok (.mem a) => refresh s w.core a
    | _ => s) s

/-- With an empty lane set it makes no ordering action either, and so do STREL and the atomics. (Log 180: DESIGN CHOICE, unsafe.) -/
def execLdacq (p : Option Pfx) (d a : BitVec 8) (s1 q : BitVec 3) (s : State) : Out :=
  let w := me s
  let m := act p s
  let addr := fun l => (addrAt w a.toNat l 0).toNat
  let named := [d.toNat, a.toNat, a.toNat + 1]
  let causes := accessCauses p s m a.toNat named addr 4 .read false
  let places := windowPlaces s w m addr .read
  if m == 0#32 then guarded (outside s (named ++ guardRegs p w)) (advance (emptyLoad p d.toNat 1 s)) s
  else if causes.isEmpty && !tilesFree s places 4 then .next (waitTiles places 4 s)
  else
    orderedAccess q.toNat s1.toNat (some .ld) none causes
      (fun s =>
        let s := if 2 ≤ s1.toNat then refreshLanes s w m addr else s
        advance (acquireAfter q.toNat s1.toNat s.nextId
          (loadEffect p d.toNat 1 addr 4 zeroExt (if 2 ≤ s1.toNat then .all else .misses) s))) s

/-- Log 180: DESIGN CHOICE, unsafe. -/
def execStrel (p : Option Pfx) (d a : BitVec 8) (s1 q : BitVec 3) (s : State) : Out :=
  let w := me s
  let m := act p s
  let addr := fun l => (addrAt w a.toNat l 0).toNat
  let named := [d.toNat, a.toNat, a.toNat + 1]
  let causes := accessCauses p s m a.toNat named addr 4 .write false
  let places := windowPlaces s w m addr .write
  if m == 0#32 then guarded (outside s (named ++ guardRegs p w)) (advance s) s
  else if causes.isEmpty && !tilesFree s places 4 then .next (waitTiles places 4 s)
  else if causes.isEmpty && gateFull s w (4 * laneCount m) then .next (standAt 2 s)
  else
    orderedAccess q.toNat s1.toNat (some .st) none causes
      (fun s => advance (acquireAfter q.toNat s1.toNat s.nextId (storeEffect m addr d.toNat 4 s1.toNat s))) s

/-- FENCE: an acquire holds the fragment's later accesses until the warp's earlier loads have returned, as if it returned a value
(R211); at scope package and wider, whatever its order, the core's write-combining buffer leaves for home (R208).  It has no lane set, so it acts with EXEC = 0 too. (Log 45: DESIGN CHOICE, unsafe; 180: DESIGN CHOICE, unsafe.) -/
def execFence (s1 q : BitVec 3) (s : State) : Out :=
  let order := q.toNat
  let scope := s1.toNat
  orderedAccess order scope none none []
    (fun s =>
      let s := if 4 ≤ scope then wcbDrain s fun x => x.core == (me s).core else s
      advance (if acquires order then
          let loads := ((opsOf s (me s)).filter fun o => o.ctr == .ld).map (·.id)
          let s := acquireActs s (me s).core scope
          setFr s { fr s with acquire := loads }
        else s)) s

/-! ## LDM and STM (R214, R413) -/

/-- The refusal of a run of `n` rows from `b`: the first row whose page refuses it. (Log 32: DEDUCED, unsafe.) -/
def runCauses (s : State) (w : Warp) (m : Word) (b n : Nat) (need : Need) : List Cause :=
  match (List.range n).findSome? fun i =>
    match spotOf s w (b + 128 * i) need false with
    | .error d => some (i, d)
    | .ok _ => none with
  | none => []
  | some (i, d) => [d.cause m (BitVec.ofNat 64 (b + 128 * i))]

/-- The causes of LDM and STM: poison in the lowest lane's pair, registers, alignment, translation. (Log 32: DEDUCED, unsafe; 34: DEDUCED, unsafe.) -/
def runAllCauses (s : State) (d a n : Nat) (b : Nat) (need : Need) : List Cause :=
  let w := me s
  let f := fr s
  let low := BitVec.ofNat 32 (2 ^ lowestLane f.exec)
  consumed (scalarPoison w f [a, a + 1]) ++ outside s (regRun d n ++ [a, a + 1]) ++
    (if b % 128 == 0 then [] else
      [{ cls := 2, code := 0x020, res := true, lanes := low, addr := BitVec.ofNat 64 b, info := 128 }]) ++
    runCauses s w f.exec b n need

/-- Row `i`, lane `l` of a run at `b`. -/
def runAddr (b i l : Nat) : Nat := b + 128 * i + 4 * l

/-- The places in window storage that a run of `n` rows reaches. -/
def runPlaces (s : State) (w : Warp) (m : Word) (b n : Nat) (need : Need) : List Nat :=
  (List.range n).flatMap fun i => windowPlaces s w m (runAddr b i) need

/-- The lines that a run of `n` rows asks homes and windows for. -/
def runLines (s : State) (w : Warp) (m : Word) (b n : Nat) (need : Need) (k : Asks) : List Nat :=
  ((List.range n).flatMap fun i => askedLines s w m (runAddr b i) 4 need k).eraseDups

/-- The lines that a run of `n` rows asks of the L1. -/
def runL1 (s : State) (w : Warp) (m : Word) (b n : Nat) (need : Need) : List Nat :=
  ((List.range n).flatMap fun i => l1Lines s w m (runAddr b i) need).eraseDups

/-- One row read from its words, in the lanes of a set. -/
def readRow (s : State) (w : Warp) (m : Word) (b i : Nat) : State × Row :=
  let (s, t) := loadLanes s w m (runAddr b i) 4 zeroExt
  (s, (rowsFrom 1 t).headD zeroRow)

def execLdm (d a : BitVec 8) (n : BitVec 5) (s : State) : Out :=
  let w := me s
  let f := fr s
  let k := n.toNat + 1
  let b := (scalarPair w f a.toNat).toNat
  let causes := runAllCauses s d.toNat a.toNat k b .read
  let places := runPlaces s w f.exec b k .read
  let effect :=
    let (s', rows) := (List.range k).foldl (fun (acc : State × List Row) i =>
      let (s, r) := readRow acc.1 w f.exec b i
      (s, acc.2 ++ [r])) (fillPages (fillPages s w 1#32 fun _ => b) w 1#32 fun _ => b + 128 * n.toNat, [])
    launchOp .ld (rows.zipIdx.map fun x => (d.toNat + x.2, x.1)) f.exec 0 (BitVec.ofNat 64 b)
      (runLines s w f.exec b k .read .misses) false (countLines s w (runL1 s w f.exec b k .read) s')
  if f.exec == 0#32 then
    guarded (outside s (regRun d.toNat k ++ [a.toNat, a.toNat + 1])) (advance (setMe s (dirtied w (regRun d.toNat k)))) s
  else if !holds s w (.counter .ld) then .next (waitCounter .ld s)
  else if causes.isEmpty && !tilesFree s places 4 then .next (waitTiles places 4 s)
  else guarded causes (advance effect) s

/-- Log 34: DEDUCED, unsafe. -/
def execStm (d a : BitVec 8) (n : BitVec 5) (s : State) : Out :=
  let w := me s
  let f := fr s
  let k := n.toNat + 1
  let b := (scalarPair w f a.toNat).toNat
  let causes := runAllCauses s d.toNat a.toNat k b .write
  let places := runPlaces s w f.exec b k .write
  let effect :=
    let s := fillPages (fillPages s w 1#32 fun _ => b) w 1#32 fun _ => b + 128 * n.toNat
    launchOp .st [] f.exec 0 (BitVec.ofNat 64 b) (runLines s w f.exec b k .write .none) false
      (countLines s w (runL1 s w f.exec b k .write)
        (storeLanes s f.exec (fun l => (List.range k).map fun i => (runAddr b i l, storePieces w (d.toNat + i) l 4)) 1))
  if f.exec == 0#32 then guarded (outside s (regRun d.toNat k ++ [a.toNat, a.toNat + 1])) (advance s) s
  else if !holds s w (.counter .st) then .next (waitCounter .st s)
  else if causes.isEmpty && !tilesFree s places 4 then .next (waitTiles places 4 s)
  else if causes.isEmpty && gateFull s w (4 * k * laneCount f.exec) then .next (standAt 2 s)
  else guarded causes (advance effect) s

/-! ## Replies (R205) -/

/-- LOAD_REPLY: a load or atomic has written every destination.  No reply comes of a request that is lost or finds no route
(R416, R450, R452). (Log 8: DESIGN CHOICE, safe; 9: DESIGN CHOICE, unsafe.) -/
def execLoadReply (op : Nat) (s : State) : Out :=
  match s.ops.find? fun o => o.id == op && o.ctr == .ld with
  | none => .next s
  | some o => .next (if replyComes s o then finishOp s o else s)

/-- STORE_PERFORMED: a store is performed at its point of Table ISAM.1; an STNT only once the buffer has let its bytes
go. (Log 9: DESIGN CHOICE, unsafe.) -/
def execStorePerformed (op : Nat) (s : State) : Out :=
  match s.ops.find? fun o => o.id == op && o.ctr == .st with
  | none => .next s
  | some o => if (o.stnt && (stntPending s).contains o.id) || !replyComes s o then .next s else .next (finishOp s o)

end Sys2Proof.Machine
end

