-- ==== Sys2Proof/Machine/Scratch.lean ====
section
/-! DEFINITION. The scratchpad loads and stores (R213). -/

namespace Sys2Proof.Machine

open Sys2Proof

/-- The storage address of a byte of the warp's team's scratchpad allocation; an offset stays inside the core's
scratchpad window (R61). (Log 33: DEDUCED, unsafe.) -/
def scratchAddr (s : State) (w : Warp) (o : Nat) : Nat := scrAddr w.core (((teamOf s w).scrBase + o) % 0x400000)

/-- The causes of a scratchpad access. -/
def scratchCauses (p : Option Pfx) (s : State) (m : Word) (a : Nat) (named : List Nat) (off : Nat → Nat) (size : Nat) : List Cause :=
  consumed (poisonIn (me s) m [a] ||| guardPoison p (me s) (fr s)) ++ outside s (named ++ guardRegs p (me s)) ++
    alignCauses m off size

/-- The offset of lane `l`, modulo the pair width. -/
def laneOff (w : Warp) (a l : Nat) (x : Int) : Nat := (dwordOf (offAt w a l x)).toNat

/-- A scratchpad load of `n` words per lane. -/
def scratchLoad (p : Option Pfx) (d a o : BitVec 8) (n : Nat) (s : State) : Out :=
  let w := me s
  let off := fun l => laneOff w a.toNat l (immSigned p o * (4 * n))
  let row := fun i => rowOf fun l => s.mem.lane (scratchAddr s w (off l + 4 * i))
  guarded (scratchCauses p s (act p s) a.toNat (regRun d.toNat n ++ [a.toNat]) off (4 * n))
    (writeAndGo p ((List.range n).map fun i => (d.toNat + i, row i)) s) s

/-- One lane's words stored. -/
def scratchPut (s : State) (w : Warp) (d n l o : Nat) : State :=
  (List.range n).foldl (fun s i =>
    let x := laneAt (regOf w (d + i)) l
    { s with mem := s.mem.write (scratchAddr s w (o + 4 * i)) (toBytes 4 x.val.toNat) x.poison }) s

/-- A scratchpad store of `n` words per lane; the highest lane wins (R202). -/
def scratchStore (p : Option Pfx) (d a o : BitVec 8) (n : Nat) (s : State) : Out :=
  let w := me s
  let m := act p s
  let off := fun l => laneOff w a.toNat l (immSigned p o * (4 * n))
  guarded (scratchCauses p s m a.toNat (regRun d.toNat n ++ [a.toNat]) off (4 * n))
    (advance ((lanesOf m).foldl (fun s l => scratchPut s w d.toNat n l (off l)) s)) s

def execLds (p : Option Pfx) (d a o : BitVec 8) (s : State) : Out := scratchLoad p d a o 1 s
def execSts (p : Option Pfx) (d a o : BitVec 8) (s : State) : Out := scratchStore p d a o 1 s
def execLdsq (p : Option Pfx) (d a o : BitVec 8) (s : State) : Out := scratchLoad p d a o 4 s
def execStsq (p : Option Pfx) (d a o : BitVec 8) (s : State) : Out := scratchStore p d a o 4 s

end Sys2Proof.Machine
end

