-- ==== Sys2Proof/Machine/Atomics.lean ====
section
/-! DEFINITION. Atomics on memory and the scratchpad (R215 to R217). -/

namespace Sys2Proof.Machine

open Sys2Proof

/-! ## The operations (Table ISAM.5): a new value from the old value m, the operand b and the compare-and-swap value c -/

/-- Elementwise on 32-bit values. -/
def elemOp (t : IntEt) (g : Int → Int → Int) (m b : Nat) : Nat :=
  (t.pack fun j => wrap t.n (g (t.elem (BitVec.ofNat 32 m) j) (t.elem (BitVec.ofNat 32 b) j))).toNat

/-- Wrap-around increment. -/
def incOp (m b : Nat) : Nat := if b ≤ m then 0 else m + 1

/-- The sum of AFADD and AFADD2 on one element (R217). -/
def atomicSum (f : Fmt) (m b : Nat) : Nat :=
  (f.deliver 0 false [m, b] (opposite [f.val m, f.val b]) (sumVals 0 [f.val m, f.val b])).1

/-- AFADD2's sum on a word. -/
def atomicSum2 (f : Fmt) (m b : Nat) : Nat :=
  (f.pack fun j => atomicSum f (f.elem (BitVec.ofNat 32 m) j) (f.elem (BitVec.ofNat 32 b) j)).toNat

/-- A 64-bit operand of a lane. -/
def pairNat (w : Warp) (r l : Nat) : Nat := (pairAt w r l).toNat

/-! ## Performing -/

/-- The line of an address written back before an access of `n` bytes at the home, so that the access finds the core's own bytes
(R204). -/
def homeReady (s : State) (core a n : Nat) : State :=
  let s := wcbTouch s core a n
  match l1Find s core a with
  | some x => if x.dirty == 0 then s else lineBack s x
  | none => s

/-- A core's line given up, its dirty bytes written to the home. -/
def l1Leave (s : State) (core a : Nat) : State :=
  match l1Find s core a with
  | some x => l1Drop (lineBack s x) core x.base
  | none => s

/-- The old bytes of an atomic's word at its place, and its poison. -/
def atomicRead (s : State) (core a size scope : Nat) (kind : LineKind) : State × Nat × Bool :=
  if 2 ≤ scope then
    let s := homeReady s core a size
    (s, ofBytes (homeRead s a size).1, (homeRead s a size).2)
  else
    let s := l1Fill (wcbTouch s core a size) core (lineBase a) 128 kind
    let (s, bs, bad) := coreRead s core a size kind
    (s, ofBytes bs, bad)

/-- The atomic's word written at its place. -/
def atomicWrite (s : State) (core a scope : Nat) (kind : LineKind) (bs : List Byte) (p : Bool) : State :=
  if 2 ≤ scope then throughWrite s core a bs p else coreWrite s core a kind bs p

/-- The lanes of a returned value: one register, or a pair. -/
def returned (size m : Nat) (p : Bool) : List Lane :=
  (List.range (size / 4)).map fun i => if p then poisoned else clean (BitVec.ofNat 32 (m / 2 ^ (32 * i)))

/-- One lane's atomic on memory: the new state and what it returns. -/
def atomicLane (s : State) (w : Warp) (va size scope : Nat) (g : Nat → Nat) (bad : Bool) : State × List Lane :=
  match spotOf s w va .write true with
  | .ok (.mem a) =>
    let kind := lineKindAt s w va
    let (s, m, p) := atomicRead s w.core a size scope kind
    (noteStore (atomicWrite s w.core a scope kind (toBytes size (g m)) (p || bad)) w va size, returned size m (p || bad))
  | _ => (s, [])

/-- The atomics of every lane of a set, in ascending lane order. -/
def atomicLanes (s : State) (w : Warp) (m : Word) (addr : Nat → Nat) (size scope : Nat) (g : Nat → Nat → Nat)
    (bad : Nat → Bool) : State × List (Nat × List Lane) :=
  (lanesOf m).foldl (fun (acc : State × List (Nat × List Lane)) l =>
    let (s, xs) := atomicLane acc.1 w (addr l) size scope (g l) (bad l)
    (s, (l, xs) :: acc.2)) (s, [])

/-- The operation of a value-returning atomic launched, and its acquire (R205, R211). -/
def atomicReply (p : Option Pfx) (d order scope : Nat) (addr : Nat → Nat) (rows : List Row) (homes : List Nat) (s : State) : State :=
  let m := act p s
  advance (acquireAfter order scope s.nextId
    (launchOp .ld (rows.zipIdx.map fun x => (d + x.2, x.1)) m (zer p s) (BitVec.ofNat 64 (addr (lowestLane m))) homes false s))

/-- What copy 0's fragment `f` does is done for the fragment of copy 1 that waits at the same point: kind, PC and lanes (R45). `g`
runs as that fragment, in the passes that its own core needs for `lanes`; none off the vector datapath (R323). (Log 43: DEDUCED, unsafe.) -/
def forTwin (kind : Nat) (f : Frag) (lanes : Option Word) (g : State → State) (s : State) : State :=
  if !isRedundant s (me s) then s
  else
    match twinWarp s (me s) with
    | none => s
    | some i =>
      let v := s.warps.getD i {}
      let j := indexWhere (fun x => x.wait == .compare kind && x.pc == f.pc && x.frag == f.frag) v.frags
      let n := (lanes.map (passesOf (coreCfg s v.core))).getD (0, 0)
      if j < v.frags.length then { g { s with cur := { s.cur with warp := i, frag := j, busy := n.1, skipped := n.2 } } with cur := s.cur }
      else s

/-- The lines of some lanes given up by a core, so that both copies of a redundant team read what copy 0 has performed (R45, R204). -/
def leaveLanes (s : State) (w : Warp) (m : Word) (addr : Nat → Nat) : State :=
  (lanesOf m).foldl (fun s l => match spotOf s w (addr l) .write true with
    | .ok (.mem a) => l1Leave s w.core a
    | _ => s) s

/-- An atomic on memory (R215, R216): `g` gives lane `l`'s new value from the old one. (Log 180: DESIGN CHOICE, unsafe.) -/
def atomicOp (p : Option Pfx) (d a : BitVec 8) (s1 q : BitVec 3) (size : Nat) (third : List Nat) (g : Warp → Nat → Nat → Nat)
    (s : State) : Out :=
  let w := me s
  let m := act p s
  let n := size / 4
  let addr := fun l => (addrAt w a.toNat l 0).toNat
  let srcs := regRun d.toNat n ++ third
  let named := srcs ++ [a.toNat, a.toNat + 1]
  let scope := s1.toNat
  if m == 0#32 then guarded (outside s (named ++ guardRegs p w)) (advance (emptyLoad p d.toNat n s)) s
  else
    orderedAccess q.toNat scope (some .ld) (some 4) (accessCauses p s m a.toNat named addr size .write true)
      (fun s =>
        let (s', t) := atomicLanes (fillPages s w m addr) w m addr size scope (g w)
          fun l => srcs.any fun r => poisonAt (regOf w r) l
        let rows := rowsFrom n t
        let homes := askedLines s w m addr size .write (if 2 ≤ scope then .all else .misses)
        let reply := fun (s : State) => atomicReply p d.toNat q.toNat scope addr rows homes
          (if isRedundant s (me s) then leaveLanes s (me s) m addr else s)
        forTwin 4 (fr s) (some m) reply (reply (countLines s w (l1Lines s w m addr .write) s'))) s

/-- One 32-bit operand. -/
def atomic32 (p : Option Pfx) (d a : BitVec 8) (s1 q : BitVec 3) (g : Nat → Nat → Nat) (s : State) : Out :=
  atomicOp p d a s1 q 4 [] (fun w l m => g m (valAt (regOf w d.toNat) l).toNat) s

def execAadd (p : Option Pfx) (d a : BitVec 8) (s1 q : BitVec 3) (s : State) : Out :=
  atomic32 p d a s1 q (elemOp (myEt s) (· + ·)) s

def execAmin (p : Option Pfx) (d a : BitVec 8) (s1 q : BitVec 3) (s : State) : Out :=
  atomic32 p d a s1 q (elemOp (myEt s) min) s

def execAmax (p : Option Pfx) (d a : BitVec 8) (s1 q : BitVec 3) (s : State) : Out :=
  atomic32 p d a s1 q (elemOp (myEt s) max) s

def execAand (p : Option Pfx) (d a : BitVec 8) (s1 q : BitVec 3) (s : State) : Out := atomic32 p d a s1 q Nat.land s
def execAor (p : Option Pfx) (d a : BitVec 8) (s1 q : BitVec 3) (s : State) : Out := atomic32 p d a s1 q Nat.lor s
def execAxor (p : Option Pfx) (d a : BitVec 8) (s1 q : BitVec 3) (s : State) : Out := atomic32 p d a s1 q Nat.xor s
def execAxchg (p : Option Pfx) (d a : BitVec 8) (s1 q : BitVec 3) (s : State) : Out := atomic32 p d a s1 q (fun _ b => b) s
def execAinc (p : Option Pfx) (d a : BitVec 8) (s1 q : BitVec 3) (s : State) : Out := atomic32 p d a s1 q incOp s

def execAcas (p : Option Pfx) (d a : BitVec 8) (s1 q : BitVec 3) (s : State) : Out :=
  let c := thirdReg p d.toNat
  atomicOp p d a s1 q 4 [c]
    (fun w l m => if m == (valAt (regOf w d.toNat) l).toNat then (valAt (regOf w c) l).toNat else m) s

def execAfadd (p : Option Pfx) (d a : BitVec 8) (s1 q : BitVec 3) (s : State) : Out :=
  atomic32 p d a s1 q (atomicSum fp32) s

def execAfadd2 (p : Option Pfx) (d a : BitVec 8) (s1 q : BitVec 3) (s : State) : Out :=
  atomic32 p d a s1 q (atomicSum2 (if modeEt (me s) == 6 then f16 else bf16)) s

def execAadd64 (p : Option Pfx) (d a : BitVec 8) (s1 q : BitVec 3) (s : State) : Out :=
  atomicOp p d a s1 q 8 [] (fun w l m => (m + pairNat w d.toNat l) % 2 ^ 64) s

def execAcas64 (p : Option Pfx) (d a : BitVec 8) (s1 q : BitVec 3) (s : State) : Out :=
  let c := thirdReg p d.toNat
  atomicOp p d a s1 q 8 [c, c + 1] (fun w l m => if m == pairNat w d.toNat l then pairNat w c l else m) s

/-! ## Scratchpad atomics -/

/-- One lane's atomic in the scratchpad. -/
def scratchAtomicLane (s : State) (w : Warp) (o : Nat) (g : Nat → Nat) (bad : Bool) : State × Lane :=
  let a := scratchAddr s w o
  let x := s.mem.lane a
  let p := x.poison || bad
  ({ s with mem := s.mem.write a (toBytes 4 (g x.val.toNat)) p }, if p then poisoned else x)

/-- A scratchpad atomic: performed at the core's port in ascending lane order. -/
def scratchAtomic (p : Option Pfx) (d a : BitVec 8) (s1 q : BitVec 3) (third : List Nat) (g : Warp → Nat → Nat → Nat)
    (s : State) : Out :=
  let w := me s
  let m := act p s
  let off := fun l => (valAt (regOf w a.toNat) l).toNat
  let srcs := d.toNat :: third
  let named := srcs ++ [a.toNat]
  if m == 0#32 then guarded (outside s (named ++ guardRegs p w)) (advance (emptyLoad p d.toNat 1 s)) s
  else
    orderedAccess q.toNat s1.toNat none none (scratchCauses p s m a.toNat named off 4)
      (fun s =>
        let (s', t) := (lanesOf m).foldl (fun (acc : State × List (Nat × Lane)) l =>
          let (s, x) := scratchAtomicLane acc.1 w (off l) (g w l) (srcs.any fun r => poisonAt (regOf w r) l)
          (s, (l, x) :: acc.2)) (s, [])
        writeAndGo p [(d.toNat, rowOf fun l => look t l {})] (if acquires q.toNat then acquireActs s' w.core s1.toNat else s')) s

def execSadd (p : Option Pfx) (d a : BitVec 8) (s1 q : BitVec 3) (s : State) : Out :=
  scratchAtomic p d a s1 q [] (fun w l m => elemOp (myEt s) (· + ·) m (valAt (regOf w d.toNat) l).toNat) s

def execScas (p : Option Pfx) (d a : BitVec 8) (s1 q : BitVec 3) (s : State) : Out :=
  let c := thirdReg p d.toNat
  scratchAtomic p d a s1 q [c]
    (fun w l m => if m == (valAt (regOf w d.toNat) l).toNat then (valAt (regOf w c) l).toNat else m) s

def execSxchg (p : Option Pfx) (d a : BitVec 8) (s1 q : BitVec 3) (s : State) : Out :=
  scratchAtomic p d a s1 q [] (fun w l _ => (valAt (regOf w d.toNat) l).toNat) s

end Sys2Proof.Machine
end

