-- ==== Sys2Proof/Machine/Barriers.lean ====
section
/-! DEFINITION. Barriers (R225 to R228, R375, R425), counter waits (R230), and the comparison of a redundant launch's
phase (R226). -/

namespace Sys2Proof.Machine

open Sys2Proof

/-- The causes of an instruction that reads registers from the lowest lane of EXEC (R224, R374, R390). -/
def scalarCauses (s : State) (reads named : List Nat) : List Cause :=
  consumed (scalarPoison (me s) (fr s) reads) ++ outside s named

/-- The barriers a launch declares at a scope (Table EXEC.6). -/
def declared (l : Launch) (scope : Nat) : Nat :=
  if scope == 1 then l.bCore else if scope == 2 then l.bQuad else if scope == 3 then l.bDie
  else if scope == 4 then l.bPkg else if scope == 5 then l.bPod else 0

/-- The barrier that a number names for the issuing warp's team at a scope. -/
def barrierAt (s : State) (scope index : Nat) : Option Barrier :=
  let t := teamOf s (me s)
  s.barriers.find? fun b => b.scope == scope && b.index == index && b.task == t.task && b.teams.contains t.id

/-- Code 0x072: a number at or above the declared count. -/
def barrierCauses (s : State) (scope index : Nat) : List Cause :=
  if declared (launchOf s (me s)) scope ≤ index || (barrierAt s scope index).isNone then
    [{ cls := 2, code := 0x072, info := BitVec.ofNat 32 index }]
  else []

/-- Whether the issuing warp has arrived at the open phase. -/
def arrivedAt (s : State) (b : Barrier) : Bool := b.marks.contains ((me s).team, (me s).wid)

/-- The release of an arrival: every earlier access complete, then the release actions. -/
def releaseThen (scope : Nat) (effect : State → State) (s : State) : Out :=
  if !holds s (me s) (.drained (decide (4 ≤ scope))) then .next (waitDrained scope s)
  else .next (effect (releaseActs s (me s).core scope))

/-- Arrive(b) of R227. -/
def arrive (b : Barrier) (s : State) : State :=
  let w := me s
  onBarrier s b.id fun b => { b with arrived := b.arrived + 1, marks := b.marks ++ [(w.team, w.wid)] }

/-- A completed or abandoned wait: acquire actions, the status, and on (R227, R375). -/
def barrierDone (d scope : Nat) (status : Word) (s : State) : State :=
  execAndGo [(d, splat status)] (acquireActs s (me s).core scope)

/-- An issue slot taken by a fragment that waits for a phase; D counts as written from its issue on (R30). -/
def awaitPhase (b : Barrier) (d scope : Nat) (s : State) : State :=
  let s := setMe s (dirtied (me s) [d])
  countPerf (setFr s { fr s with wait := .barrier b.id d scope }) (me s).team 0 1

def execBar (d b : BitVec 8) (s1 : BitVec 3) (s : State) : Out :=
  let scope := s1.toNat
  let n := (scalarAt (me s) (fr s) b.toNat).toNat
  let causes := scalarCauses s [b.toNat] [d.toNat, b.toNat] ++ barrierCauses s scope n
  match causes, barrierAt s scope n with
  | [], some x =>
    if x.abandoned then releaseThen scope (barrierDone d.toNat scope 1#32) s
    else if arrivedAt s x then .next (waitFor (.phaseOver x.id) s)
    else releaseThen scope (fun s => testBarrier (awaitPhase x d.toNat scope (arrive x s)) x.id) s
  | cs, _ => guarded cs s s

def execBararv (b : BitVec 8) (s1 : BitVec 3) (s : State) : Out :=
  let scope := s1.toNat
  let n := (scalarAt (me s) (fr s) b.toNat).toNat
  let causes := scalarCauses s [b.toNat] [b.toNat] ++ barrierCauses s scope n
  match causes, barrierAt s scope n with
  | [], some x =>
    if x.abandoned then releaseThen scope advance s
    else if arrivedAt s x then .next (waitFor (.phaseOver x.id) s)
    else releaseThen scope (fun s => testBarrier (advance (arrive x s)) x.id) s
  | cs, _ => guarded cs s s

def execBarwt (d b : BitVec 8) (s1 : BitVec 3) (s : State) : Out :=
  let scope := s1.toNat
  let n := (scalarAt (me s) (fr s) b.toNat).toNat
  let causes := scalarCauses s [b.toNat] [d.toNat, b.toNat] ++ barrierCauses s scope n
  match causes, barrierAt s scope n with
  | [], some x =>
    if x.abandoned then .next (barrierDone d.toNat scope 1#32 s)
    else if arrivedAt s x then .next (awaitPhase x d.toNat scope s)
    else .next (barrierDone d.toNat scope 0#32 s)
  | cs, _ => guarded cs s s

/-- Whether a pending count leaves its 32-bit range (R425). -/
def pendOut (x : Int) : Bool := decide (x < -(2 ^ 31 : Nat)) || decide ((2 ^ 31 : Nat) ≤ x)

/-- A pending count changed: that of the open phase, or of the next. -/
def addPend (s : State) (id : Nat) (next : Bool) (x : Int) : State :=
  testBarrier (onBarrier s id fun b => if next then { b with pendNx := b.pendNx + x } else { b with pend := b.pend + x }) id

def execBarexp (n b : BitVec 8) (s1 : BitVec 3) (s : State) : Out :=
  let scope := s1.toNat
  let i := (scalarAt (me s) (fr s) b.toNat).toNat
  let x : Int := (scalarAt (me s) (fr s) n.toNat).toNat
  let causes := scalarCauses s [n.toNat, b.toNat] [n.toNat, b.toNat] ++ barrierCauses s scope i
  match causes, barrierAt s scope i with
  | [], some y =>
    let old := if arrivedAt s y then y.pendNx else y.pend
    if y.abandoned then .next (advance s)
    else if pendOut (old + x) then
      .next (abandon (raise { cls := 4, code := 0x120, info := BitVec.ofNat 32 i } s) y.id)
    else .next (addPend (advance s) y.id (arrivedAt s y) x)
  | cs, _ => guarded cs s s

/-! ## Counter waits (R230) -/

/-- A wait until the counters are within some fields; one that the ST counter holds drains the core's write-combining buffer (R208), now
and while it waits. -/
def waitCounters (ld st cp tl : Nat) (s : State) : State :=
  let w := me s
  if holds s w (.atMost ld st cp tl) then advance s
  else
    let s := if within w.cntSt st then s else wcbDrain s fun x => x.core == w.core
    waitFor (.atMost ld st cp tl) s

def execWaitc (l s1 c t : BitVec 6) (s : State) : Out := .next (waitCounters l.toNat s1.toNat c.toNat t.toNat s)

def execWaitr (a : BitVec 8) (s : State) : Out :=
  if (fr s).exec == 0#32 then .next (advance s)
  else
    let v := (scalarAt (me s) (fr s) a.toNat).toNat
    guarded (scalarCauses s [a.toNat] [a.toNat])
      (waitCounters (bitsOf v 18 6) (bitsOf v 12 6) (bitsOf v 6 6) (bitsOf v 0 6) s) s

end Sys2Proof.Machine
end

