-- ==== Sys2Proof/Machine/Handles.lean ====
section
/-! DEFINITION. Buffer handles and stage rings (R231 to R235, R330, R396). -/

namespace Sys2Proof.Machine

open Sys2Proof

/-! ## Entries -/

/-- A handle entry replaced, on one side. -/
def putHandle (s : State) (h : Handle) : State :=
  { s with handles := h :: s.handles.filter fun x => !(x.team == h.team && x.num == h.num && x.follower == h.follower) }

/-- A handle entry changed on one side. -/
def onHandle (s : State) (team h : Nat) (follower : Bool) (g : Handle → Handle) : State :=
  putHandle s (g (handleOf s team h follower))

/-- The sides of a handle that an instruction acts on: both in a pair launch (R330). -/
def bothSides (s : State) : List Bool := if (launchOf s (me s)).pair then [false, true] else [false]

/-- A handle changed on every side. -/
def onHandles (s : State) (h : Nat) (sides : List Bool) (g : Handle → Handle) : State :=
  sides.foldl (fun t side => onHandle t (me s).team h side g) s

/-- The code of a state (Table ISAE.2). -/
def stateCode : HState → Nat
  | .free => 0
  | .full => 1
  | .draining => 2
  | .corrupt => 3

/-- The record of an illegal event (Table INSF.2). -/
def eventCause (s : State) (h event : Nat) : Cause :=
  let code := fun side => stateCode (handleOf s (me s).team h side).state
  { cls := 2, code := 0x070
    info := BitVec.ofNat 32 (h % 64 + code false * 256 + (if (launchOf s (me s)).pair then code true else 0) * 1024 + event * 4096) }

/-- The number of an event on some sides of a handle: 4 where one of them reads STATE 3 (Table INSF.2). -/
def eventNumber (s : State) (h event : Nat) (sides : List Bool) : Nat :=
  if sides.any fun side => (handleOf s (me s).team h side).state == .corrupt then 4 else event

/-- The causes of an event that needs some sides of a handle in a state, and in a ring's phase where one is named. -/
def eventCauses (s : State) (h event : Nat) (sides : List Bool) (want : HState) (phase : Option Bool) : List Cause :=
  if sides.all fun side =>
    let x := handleOf s (me s).team h side
    x.state == want && (match phase with
      | none => true
      | some b => x.phase == b)
  then [] else [eventCause s h (eventNumber s h event sides)]

/-- Code 0x071 for a handle number (R396). -/
def numberCauses (s : State) (h : Nat) : List Cause :=
  if (launchOf s (me s)).handles ≤ h then [{ cls := 2, code := 0x071, info := BitVec.ofNat 32 h }] else []

/-! ## Rings (R234) -/

/-- The current handle, the phase, and whether the ring is well formed for the team. -/
structure Ring where
  cur : Nat
  phase : Bool
  ok : Bool
  deriving DecidableEq, Repr

def ringOf (s : State) (v : Word) : Ring :=
  let x := v.toNat
  let b := bitsOf x 0 6
  let c := bitsOf x 6 6 + 1
  let i := bitsOf x 12 6
  { cur := b + i, phase := bitsOf x 18 1 == 1, ok := decide (b + c ≤ (launchOf s (me s)).handles) && decide (i < c) }

/-- A handle or ring operand: the handle, the phase a ring asks for, and its causes. -/
structure Named where
  h : Nat
  phase : Option Bool
  causes : List Cause

def namedHandle (s : State) (v : Word) (ring : Bool) : Named :=
  if ring then
    let r := ringOf s v
    { h := r.cur, phase := some r.phase, causes := if r.ok then [] else [{ cls := 2, code := 0x071, info := v }] }
  else { h := v.toNat, phase := none, causes := numberCauses s v.toNat }

/-- The causes of an event on what an operand names: an operand that names no entry of the team has no state to test (R396). (Log 168: DEDUCED, unsafe.) -/
def Named.orEvent (n : Named) (events : List Cause) : List Cause := if n.causes.isEmpty then events else n.causes

/-- The advanced ring value. -/
def ringNext (v : Word) : Word :=
  let x := v.toNat
  let c := bitsOf x 6 6 + 1
  let i := bitsOf x 12 6 + 1
  let wrapAt := i == c
  let ph := bitsOf x 18 1
  BitVec.ofNat 32 (x / 2 ^ 19 * 2 ^ 19 + (if wrapAt then 1 - ph else ph) * 2 ^ 18 + (if wrapAt then 0 else i) % 64 * 2 ^ 12 + x % 2 ^ 12)

def execRingadvNew (d a : BitVec 8) (c : BitVec 7) (s : State) : Out :=
  let v := scalarAt (me s) (fr s) a.toNat
  guarded (scalarCauses s [a.toNat] [d.toNat, a.toNat])
    (execAndGo [(d.toNat, splat (v + BitVec.ofNat 32 (c.toNat * 64)))] s) s

def execRingadv (d a : BitVec 8) (s : State) : Out :=
  let v := scalarAt (me s) (fr s) a.toNat
  guarded (scalarCauses s [a.toNat] [d.toNat, a.toNat]) (execAndGo [(d.toNat, splat (ringNext v))] s) s

/-! ## HWAIT (R235) -/

def execHwait (a : BitVec 8) (k f : BitVec 1) (s : State) : Out :=
  if (fr s).exec == 0#32 then .next (advance s)
  else
    let n := namedHandle s (scalarAt (me s) (fr s) a.toNat) (k == 1#1)
    let want : HState := if f == 1#1 then .full else .free
    let c : Cond := .handle (me s).team n.h want n.phase
    guarded (scalarCauses s [a.toNat] [a.toNat] ++ n.causes) (if holds s (me s) c then advance s else waitFor c s) s

/-! ## HSET (R233) -/

/-- Ops 0 and 1: a handle configured, once none of its entries is draining (Table ISAE.3, R330). -/
def configure (h b : BitVec 8) (z : BitVec 6) (st : HState) (s : State) : Out :=
  let w := me s
  let f := fr s
  let n := (scalarAt w f h.toNat).toNat
  let o := (scalarAt w f b.toNat).toNat
  let bytes := (z.toNat + 1) * 128
  let causes := scalarCauses s [h.toNat, b.toNat] [h.toNat, b.toNat] ++ numberCauses s n ++
    (if (declOf s w).scratch < o + bytes then [{ cls := 2, code := 0x071, info := BitVec.ofNat 32 n }] else [])
  let sides := bothSides s
  if causes.isEmpty && !holds s w (.undrained w.team n) then .next (waitFor (.undrained w.team n) s)
  else
    guarded causes
      (advance (onHandles s n sides fun x => { x with state := st, phase := false, base := o / 128 % 4096, size := z.toNat })) s

def execHsetFree (h b : BitVec 8) (s1 : BitVec 6) (s : State) : Out := configure h b s1 .free s
def execHsetFull (h b : BitVec 8) (s1 : BitVec 6) (s : State) : Out := configure h b s1 .full s

/-- Ops 2 and 3: an event on a handle, as a release at core scope. (Log 168: DEDUCED, unsafe.) -/
def handleEvent (h : BitVec 8) (event : Nat) (want : HState) (g : Handle → Handle) (s : State) : Out :=
  let n := (scalarAt (me s) (fr s) h.toNat).toNat
  let sides := bothSides s
  let causes := scalarCauses s [h.toNat] [h.toNat] ++
    (namedHandle s (scalarAt (me s) (fr s) h.toNat) false).orEvent (eventCauses s n event sides want none)
  if causes.isEmpty then releaseThen 1 (fun s => advance (onHandles s n sides g)) s else guarded causes s s

def execHsetRel (h : BitVec 8) (s : State) : Out :=
  handleEvent h 0 .full (fun x => { x with state := .free, phase := !x.phase }) s

def execHsetFill (h : BitVec 8) (s : State) : Out :=
  handleEvent h 1 .free (fun x => { x with state := .full }) s

end Sys2Proof.Machine
end

