-- ==== Sys2Proof/Machine/Copy.lean ====
section
/-! DEFINITION. The copy engine (R229, R236 to R240, R329, R423 to R425): COPY, COPYM and COPYS at their issue, and the
engine's acceptance, lines, merges and completion. -/

namespace Sys2Proof.Machine

open Sys2Proof

/-! ## The operands of a copy (Table ISAE.4) -/

/-- A copy as its registers give it. -/
structure CopyReq where
  d : Nat
  a : Nat
  len : Nat
  ctl : Nat
  rows : Nat
  sp : Nat
  dp : Nat
  kind : Nat
  deriving DecidableEq, Repr

def CopyReq.mask (r : CopyReq) : Nat := bitsOf r.ctl 16 16
def CopyReq.follower (r : CopyReq) : Bool := bitsOf r.ctl 14 1 == 1
def CopyReq.fill (r : CopyReq) : Bool := bitsOf r.ctl 13 1 == 1
def CopyReq.bv (r : CopyReq) : Bool := bitsOf r.ctl 12 1 == 1
def CopyReq.bn (r : CopyReq) : Nat := bitsOf r.ctl 8 4
def CopyReq.sk (r : CopyReq) : Nat := bitsOf r.ctl 4 2
def CopyReq.dk (r : CopyReq) : Nat := bitsOf r.ctl 0 2

/-- The bytes from the first of row 0 to the last of the last row (R423). -/
def CopyReq.span (r : CopyReq) (pitch : Nat) : Nat :=
  if r.len == 0 || r.rows == 0 then 0 else (r.rows - 1) * pitch + r.len

/-- The copy that the issuing instruction asks for; `kind` 0 is COPY, 1 COPYM, 2 COPYS. -/
def copyReq (s : State) (kind d a b : Nat) : CopyReq :=
  let v := fun r => (scalarAt (me s) (fr s) r).toNat
  let p := if kind == 2 then v (b + 3) else 0
  { d := d, a := a, len := v b, ctl := v (b + 1), rows := if kind == 2 then v (b + 2) else 1
    sp := bitsOf p 0 16 * 16, dp := bitsOf p 16 16 * 16, kind := kind }

/-- The registers a copy names: pairs for memory, and its run of operands. -/
def CopyReq.named (r : CopyReq) (b : Nat) : List Nat :=
  regRun r.d (if r.dk == 0 then 2 else 1) ++ regRun r.a (if r.sk == 0 then 2 else 1) ++ regRun b (if r.kind == 2 then 4 else 2)

/-- The handle or ring that a destination names. -/
def CopyReq.target (r : CopyReq) (s : State) : Named := namedHandle s (scalarAt (me s) (fr s) r.d) (r.dk == 3)

/-- The entry of the destination's handle, on the side that P names (R330). -/
def CopyReq.entry (r : CopyReq) (s : State) : Handle := handleOf s (me s).team (r.target s).h r.follower

/-- The destination and the source. -/
def CopyReq.dst (r : CopyReq) (s : State) : Place :=
  if r.dk == 0 then .mem (scalarPair (me s) (fr s) r.d).toNat
  else if r.dk == 1 then .scratch (scalarAt (me s) (fr s) r.d).toNat
  else .scratch ((r.entry s).base * 128)

def CopyReq.src (r : CopyReq) (s : State) : Place :=
  if r.sk == 0 then .mem (scalarPair (me s) (fr s) r.a).toNat else .scratch (scalarAt (me s) (fr s) r.a).toNat

/-- The first byte of a place. -/
def Place.start : Place → Nat
  | .mem a => a
  | .scratch o => o

/-! ## Bounds (R423) -/

/-- The end of the window region of a warp's team that holds an aperture address, below the target team's allocation. -/
def windowEnd (s : State) (w : Warp) (va : Nat) : Option Nat :=
  let l := launchOf s w
  let k := bitsOf (va - aperture) 23 4
  let r := l.region k
  if aperture + 0x8000000 ≤ va || r.rights == 0 || decide (r.cls < 3) || (windowTarget s (teamOf s w) k).isNone ||
      decide (windowLen l r.cls ≤ (va - aperture) % 0x800000) then none
  else some (aperture + k * 0x800000 + windowLen l r.cls)

/-- The end of the furthest region of class 0 to 2 that holds an address with a right. (Log 48: DEDUCED, unsafe.) -/
def regionEnd (s : State) (w : Warp) (write : Bool) (va : Nat) : Nat :=
  let l := launchOf s w
  let t := teamOf s w
  largest ((List.range 16).map fun k =>
    let r := l.region k
    let right := if write then decide (2 ≤ r.rights) && r.cls != 1 else r.rights % 2 == 1
    if right && inRegion l t w.wid k va then regionBase l t w.wid k + r.len else 0)

/-- The first byte of a range that lies outside an end. (Log 48: DEDUCED, unsafe.) -/
def firstOutside (lo hi stop : Nat) : Option Nat := if hi ≤ stop then none else some (max lo stop)

/-- The first byte of `[lo, hi)` outside the bound of memory, if any. -/
def memOutside (s : State) (w : Warp) (f : Frag) (write : Bool) (lo hi : Nat) : Option Nat :=
  if hi ≤ lo then none
  else if aperture ≤ lo then firstOutside lo hi ((windowEnd s w lo).getD 0)
  else if roleOf w f == .system then firstOutside lo hi aperture
  else firstOutside lo hi (regionEnd s w write lo)

/-- The first byte of a place's range outside its bound. -/
def placeOutside (s : State) (w : Warp) (f : Frag) (write : Bool) (p : Place) (n limit : Nat) : Option Nat :=
  match p with
  | .mem a => memOutside s w f write a (a + n)
  | .scratch o => if n == 0 then none else firstOutside o (o + n) limit

/-- Codes 0x001 and 0x002. (Log 48: DEDUCED, unsafe.) -/
def rangeCauses (code : Nat) (r : CopyReq) (out : Option Nat) : List Cause :=
  match out with
  | none => []
  | some a => [{ cls := 4, code := code, res := true, addr := BitVec.ofNat 64 a, info := BitVec.ofNat 32 r.len }]

/-- Code 0x003: an address, the length or its limit. -/
def shapeCauses (s : State) (r : CopyReq) : List Cause :=
  let mk := fun a => [({ cls := 4, code := 0x003, res := true, addr := BitVec.ofNat 64 a, info := BitVec.ofNat 32 r.len } : Cause)]
  if (r.dst s).start % 4 != 0 then mk (r.dst s).start
  else if (r.src s).start % 4 != 0 then mk (r.src s).start
  else if r.len % 4 != 0 || decide (16777215 < r.len) then mk 0
  else []

/-- Code 0x004: the control word. (Log 138: DEDUCED, unsafe.) -/
def ctlCauses (s : State) (r : CopyReq) : List Cause :=
  let bad := bitsOf r.ctl 15 1 != 0 || bitsOf r.ctl 6 2 != 0 || bitsOf r.ctl 2 2 != 0 || decide (2 ≤ r.sk) ||
    (r.kind != 1 && r.mask != 0) || (r.kind == 1 && (r.sk != 0 || r.dk == 0)) || (r.fill && decide (r.dk < 2)) ||
    ((r.bv || r.bn != 0) && decide ((launchOf s (me s)).bCore ≤ r.bn))
  if bad then [{ cls := 4, code := 0x004, info := BitVec.ofNat 32 r.ctl }] else []

/-- Codes 0x053 and 0x311 of a copy or tile instruction with P = 1 (R395, R428). -/
def pairCauses (s : State) (pair : Bool) : List Cause :=
  if !pair then []
  else if !(launchOf s (me s)).pair then [{ cls := 2, code := 0x053, info := 1 }]
  else if (teamOf s (me s)).pairBroken then
    [{ cls := 4, code := 0x311, info := BitVec.ofNat 32 ((fr s).pc.toNat / 4) }]
  else []

/-- Every cause of a copy's issue (R237, R396, R423). (Log 168: DEDUCED, unsafe.) -/
def copyCauses (s : State) (r : CopyReq) (b : Nat) : List Cause :=
  let w := me s
  let f := fr s
  let size := (declOf s w).scratch
  let limit := if r.dk == 1 then size else ((r.entry s).base + (r.entry s).size + 1) * 128
  let hold := if r.dk < 2 then [] else
    (r.target s).orEvent (eventCauses s (r.target s).h 3 [r.follower] .free none)
  scalarCauses s (r.named b) (r.named b) ++ hold ++ pairCauses s r.follower ++
    rangeCauses 0x001 r (placeOutside s w f true (r.dst s) (r.span r.dp) limit) ++
    rangeCauses 0x002 r (if r.sk < 2 then placeOutside s w f false (r.src s) (r.span r.sp) size else none) ++
    shapeCauses s r ++ ctlCauses s r

/-! ## Issue -/

/-- The phase a copy of the issuing warp credits (R229): the open one, or the next once the warp has arrived. -/
def creditOf (s : State) (r : CopyReq) : Option (Nat × Nat) :=
  if !r.bv then none
  else
    match barrierAt s 1 r.bn with
    | none => none
    | some b => some (b.id, if arrivedAt s b then b.phaseNo + 1 else b.phaseNo)

/-- The descriptor that goes to the engine. -/
def descriptor (s : State) (r : CopyReq) : Copy :=
  let w := me s
  let f := fr s
  { id := s.nextId, core := w.core, team := w.team, wid := w.wid, merged := r.kind == 1
    dst := r.dst s, src := r.src s, follower := r.follower, len := if r.rows == 0 then 0 else r.len, rows := r.rows
    srcPitch := r.sp, dstPitch := r.dp, mask := BitVec.ofNat 16 r.mask
    fill := if r.fill then some (r.target s).h else none
    bar := r.bv, credit := creditOf s r, pc := f.pc, instr := s.cur.word, frag := f.frag
    after := ((opsOf s w).filter fun o => o.ctr == .st).map (·.id) }

/-- The words of a transfer in order: index, offset from the source, offset from the destination (R238, R239). -/
def Copy.words (c : Copy) : List (Nat × Nat × Nat) :=
  (List.range c.rows).flatMap fun r => (List.range (c.len / 4)).map fun j =>
    (4 * (r * (c.len / 4) + j), r * c.srcPitch + 4 * j, r * c.dstPitch + 4 * j)

/-- The warp that issued a copy, for translation and windows. -/
def Copy.warp (c : Copy) (s : State) : Warp :=
  let i := warpOfTeam s c.team c.wid
  { s.warps.getD i {} with core := c.core, team := c.team, wid := c.wid }

/-- The spot of one word of a copy. (Log 33: DEDUCED, unsafe.) -/
def placeSpot (s : State) (c : Copy) (p : Place) (follower : Bool) (off : Nat) (need : Need) : Except Deny Spot :=
  match p with
  | .mem a => spotOf s (c.warp s) (a + off) need false
  | .scratch o =>
    .ok (.store (scrAddr (sideCore c.core follower) (((teamById s c.team).scrBase + o + off) % 0x400000)))

/-- A word as the engine reads it, past the L1s and outside a gate (R45, R238). -/
def engineLane (s : State) (sp : Spot) : Lane :=
  match sp with
  | .mem a => (homeMem s a).lane a
  | .store a => s.mem.lane a
  | .reg team wid r off => laneAt (regOf (s.warps.getD (warpOfTeam s team wid) {}) r) (off / 4)

/-- The transfer's data with one word put at its index. -/
def putWord (m : Memory) (i : Nat) (x : Lane) : Memory := m.write i (toBytes 4 x.val.toNat) x.poison

/-- The whole source read; or the first word that translation refuses. (Log 46: DESIGN CHOICE, unsafe.) -/
def readSource (s : State) (c : Copy) : Except (Deny × Nat) Memory :=
  c.words.foldl (fun acc x =>
    match acc with
    | .error e => .error e
    | .ok m =>
      match placeSpot s c c.src false x.2.1 .read with
      | .error d => .error (d, c.src.start + x.2.1)
      | .ok sp => .ok (putWord m x.1 (engineLane s sp))) (.ok {})

/-- Whether the copy's bytes go to the store gate (R42, R238). -/
def gated (s : State) (c : Copy) : Bool :=
  (taskAt s (teamById s c.team).task).launch.redundant &&
    match c.dst with
    | .mem a => decide (a < aperture)
    | .scratch _ => false

/-- The bytes a copy would put in its gate. -/
def gateNeed (s : State) (r : CopyReq) : Nat :=
  match r.dst s with
  | .mem _ => r.len * r.rows
  | .scratch _ => 0

/-! ## Acceptance (R237) -/

/-- A copy changed by its number. -/
def onCopy (s : State) (id : Nat) (g : Copy → Copy) : State :=
  { s with copies := updateFirst (fun c => c.id == id) g s.copies }

def dropCopy (s : State) (id : Nat) : State := { s with copies := s.copies.filter fun c => c.id != id }

/-- A pending fault left at a warp; a halted warp only counts the operation as done (R372). (Log 53: DEDUCED, unsafe.) -/
def leavePending (s : State) (team wid : Nat) (p : Pending) : State :=
  let i := warpOfTeam s team wid
  onWarp s i fun w =>
    if w.halted then w.fell p else w.leave s.now p

/-- The code of an engine line's refusal (Table ENGF.1). (Log 47: DEDUCED, unsafe.) -/
def engineCode (d : Deny) : Nat :=
  if d.cls == 5 then 0x101
  else if d.code == 0x003 || d.code == 0x004 then 0x102
  else if d.code == 0x030 then 0x104
  else if d.code == 0x005 || d.code == 0x008 || d.code == 0x009 then 0x103
  else 0x101

/-- A copy that fails (R424): its fault pending, its barrier abandoned; lines not yet performed are not moved. (Log 46: DESIGN CHOICE, unsafe.) -/
def failCopy (s : State) (c : Copy) (code : Nat) (va : Nat) : State :=
  let s := dropCopy s c.id
  let s := leavePending s c.team c.wid
    { cls := 4, code := code, res := !c.bar && code != 0x104, pois := false, frag := c.frag, pc := c.pc, instr := c.instr
      ctr := some .cp, addr := BitVec.ofNat 64 va, info := some (BitVec.ofNat 32 (c.pc.toNat / 4)) }
  match c.credit with
  | some (b, _) => abandon s b
  | none => s

/-- The machine lines of HBM that a range of a copy touches. -/
def Copy.homeLines (c : Copy) (s : State) (p : Place) (offs : List Nat) (need : Need) : List Nat :=
  (offs.filterMap fun o =>
    match placeSpot s c p false o need with
    | .ok (.mem a) => some (lineBase a)
    | _ => none).eraseDups

/-- The destination lines of a transfer: 128-byte lines of its virtual addresses or offsets. -/
def Copy.dstLines (c : Copy) : List Nat := (c.words.map fun x => lineBase (c.dst.start + x.2.2)).eraseDups

/-- The source lines of a transfer. -/
def Copy.srcLines (c : Copy) : List Nat := (c.words.map fun x => lineBase (c.src.start + x.2.1)).eraseDups

/-- The group of 16 cores of a COPYM (R240). -/
def Copy.group (c : Copy) : Nat := c.core / 16

/-- Merge entries that a slice holds. -/
def sliceMerges (s : State) (a : Nat) : Nat :=
  (s.merges.filter fun m => homeDie m.place == homeDie a && homeSlice m.place == homeSlice a && m.place / 2 ^ 41 == a / 2 ^ 41).length

/-- Whether a merge entry is for a line, at its place, under a copy's key. -/
def Merge.wants (m : Merge) (c : Copy) (world line place : Nat) : Bool :=
  m.world == world && m.addr == c.src.start && m.len == c.len && m.mask == c.mask && m.group == c.group && m.line == line && m.place == place

/-- The words of one source line read into a copy's data from the line's place in memory. -/
def Copy.readLine (c : Copy) (m : Memory) (line place : Nat) : Copy :=
  let ws := c.words.filter fun x => lineBase (c.src.start + x.2.1) == line
  { c with data := ws.foldl (fun d x => putWord d x.1 (m.lane (place + (c.src.start + x.2.1 - line)))) c.data }

/-- Whether every core that a merge entry's mask names has requested its line; the issuing core of each request is one of them (R240). -/
def Merge.full (m : Merge) (s : State) : Bool :=
  (List.range 16).all fun i => !m.mask.getLsbD i || s.copies.any fun c => m.waiting.contains c.id && c.core == 16 * m.group + i

/-- Whether a merge entry closes: every participant has requested the line, or 512 clocks have passed since it opened (R240). -/
def Merge.isOver (m : Merge) (s : State) : Bool := m.full s || decide (m.opened + 512 ≤ s.clk)

/-- Whether the reply of a line at a place reaches a copy's core. -/
def Copy.hears (c : Copy) (s : State) (place : Nat) : Bool :=
  homeReached s (taskAt s (teamById s c.team).task).world c.core place

/-- A merge entry closed: the slice reads the line once, and every recorded participant receives it (R329); the entry is kept for those
that no reply reaches. -/
def closeMerge (s : State) (m : Merge) : State :=
  let hear := s.copies.filter fun c => m.waiting.contains c.id && c.hears s m.place
  let left := m.waiting.filter fun i => s.copies.any (fun c => c.id == i) && !hear.any fun c => c.id == i
  let others := s.merges.filter fun y => y.id != m.id
  { s with
    merges := if left.isEmpty then others else others ++ [{ m with waiting := left }]
    copies := s.copies.map fun c =>
      if hear.any fun x => x.id == c.id
      then { c.readLine (homeMem s m.place) m.line m.place with owed := c.owed.filter (fun i => i != m.id) } else c }

/-- One source line of a COPYM requested (R240, R329): joined to an open entry, given a new one, or read at once; an entry whose time is
over closes first.  The request that completes an entry closes it. -/
def requestMerge (s : State) (id line place : Nat) : State :=
  let c := (s.copies.find? fun c => c.id == id).getD {}
  let world := (taskAt s (teamById s c.team).task).world
  let mine := fun (s : State) => s.merges.find? fun m => m.wants c world line place && !m.isOver s
  let s := match s.merges.find? fun m => m.wants c world line place && m.isOver s with
    | some m => closeMerge s m
    | none => s
  if (mine s).isNone && 128 ≤ sliceMerges s place then onCopy s id fun c => c.readLine (homeMem s place) line place
  else
    let m : Merge := (mine s).getD
      { id := s.nextId, world := world, addr := c.src.start, len := c.len, mask := c.mask, group := c.group
        line := line, place := place, waiting := [], opened := s.clk }
    let m := { m with waiting := m.waiting ++ [id] }
    let s := onCopy { s with merges := s.merges.filter (fun y => y.id != m.id) ++ [m], nextId := s.nextId + 1 } id
      fun c => { c with owed := c.owed ++ [m.id] }
    if m.full s then closeMerge s m else s

/-- The lines of a COPYM requested; a source in a window is read as a plain COPY reads it. -/
def requestLines (s : State) (c : Copy) : State :=
  c.srcLines.foldl (fun s line =>
    let first := max line c.src.start
    match placeSpot s c c.src false (first - c.src.start) .read with
    | .ok (.mem a) => requestMerge s c.id line (a - (first - line))
    | _ => s) s

/-- Whether an earlier descriptor of the core still waits to be accepted. -/
def queuedBefore (s : State) (c : Copy) : Bool :=
  s.copies.any fun x => x.core == c.core && !x.accepted && decide (x.id < c.id)

/-- Whether words of a copy lie in window storage that an array works on (R60, R276). (Log 51: DESIGN CHOICE, unsafe.) -/
def copyHeld (s : State) (c : Copy) (p : Place) (follower : Bool) (offs : List Nat) (need : Need) : Bool :=
  offs.any fun o =>
    match placeSpot s c p follower o need with
    | .ok (.store a) => tileBusy s a 4
    | _ => false

/-- The first source line of a copy whose home or storage has no route, by its virtual address or offset (R452). -/
def unreached (s : State) (c : Copy) : Option Nat :=
  let there := homeReached s (taskAt s (teamById s c.team).task).world c.core
  c.srcLines.findSome? fun line =>
    let first := max line c.src.start
    match c.src, placeSpot s c c.src false (first - c.src.start) .read with
    | .scratch _, _ => none
    | _, .ok (.mem a) => if there a then none else some first
    | _, .ok (.store a) => if there a then none else some first
    | _, .ok (.reg team wid r _) => if there (registerPlace s team wid r) then none else some first
    | _, .error _ => none

/-- The one record that a gated copy makes in its warp's signature (R43). (Log 44: DEDUCED, unsafe.) -/
def signCopy (s : State) (c : Copy) (m : Memory) : State × Copy :=
  let i := warpOfTeam s c.team c.wid
  let n := c.len * c.rows
  let w := (s.warps.getD i {}).sign c.dst.start n (m.read 0 n)
  (onWarp s i fun _ => w, { c with data := m, ord := w.records })

/-- A copy accepted: the issuing core's dirty bytes of both ranges are written back, and the source is read, or, for a COPYM, its lines
are asked for; a source that is refused fails it. (Log 44: DEDUCED, unsafe; 46: DESIGN CHOICE, unsafe.) -/
def acceptCopy (s : State) (c : Copy) : State :=
  let lines := c.homeLines s c.src (c.words.map (·.2.1)) .read ++ c.homeLines s c.dst (c.words.map (·.2.2)) .write
  let s := writeBack s fun x => x.core == c.core && lines.contains x.base
  match readSource s c with
  | .error (d, va) => failCopy s c (engineCode d) va
  | .ok m =>
    let inHbm := match c.src with
      | .mem a => decide (a < aperture)
      | .scratch _ => false
    let (s, y) := if gated s c then signCopy s c m else (s, { c with data := if c.merged && inHbm then {} else m })
    let s := onCopy s c.id fun x => { x with accepted := true, data := y.data, ord := y.ord, lines := c.dstLines }
    if c.merged && inHbm && !gated s c then requestLines s c else s

/-- COPY_ACCEPT (R237): in issue order, once the issuing warp's earlier stores are performed and the source has a route. (Log 46: DESIGN CHOICE, unsafe.) -/
def execCopyAccept (id : Nat) (s : State) : Out :=
  match s.copies.find? fun c => c.id == id && !c.accepted with
  | none => .next s
  | some c =>
    if queuedBefore s c || copyHeld s c c.src false (c.words.map (·.2.1)) .read || (unreached s c).isSome then .next s
    else if s.ops.any fun o => c.after.contains o.id then
      .next (wcbDrain s fun x => x.ops.any fun o => c.after.contains o)
    else .next (acceptCopy s c)

/-! ## COPY, COPYM and COPYS -/

/-- The places in window storage that a copy reads. -/
def Copy.readsStorage (c : Copy) (s : State) : List Nat :=
  c.words.filterMap fun x => match placeSpot s c c.src false x.2.1 .read with
    | .ok (.store a) => some a
    | _ => none

/-- What a copy bound for a gate waits for before it issues, so that it is accepted as it issues and its data is that of its place in the
signature: the warp's stores, the arrays at work on its source, and the copies queued before it (R43, R237, R276). (Log 44: DEDUCED, unsafe.) -/
def gatedWait (c : Copy) (s : State) : Option State :=
  if !gated s c then none
  else if !holds s (me s) (.atMost 63 0 63 63) then some (waitCounters 63 0 63 63 s)
  else if !tilesFree s (c.readsStorage s) 4 then some (waitTiles (c.readsStorage s) 4 s)
  else if !holds s (me s) .accepted then some (waitFor .accepted s)
  else none

/-- The copy issued: counted, and queued with the engine, which accepts one bound for a gate at once. (Log 44: DEDUCED, unsafe.) -/
def enqueueCopy (c : Copy) (s : State) : State :=
  let s := advance { setMe s ((me s).onCtr .cp (· + 1)) with copies := s.copies ++ [c], nextId := s.nextId + 1 }
  if gated s c && (unreached s c).isNone then acceptCopy s c else s

/-- COPY, COPYM and COPYS; one that is longer than a gate waits for the whole of it. (Log 148: DESIGN CHOICE, unsafe.) -/
def issueCopy (kind : Nat) (d a b : BitVec 8) (s : State) : Out :=
  let r := copyReq s kind d.toNat a.toNat b.toNat
  let causes := copyCauses s r b.toNat
  let c := descriptor s r
  if !holds s (me s) (.counter .cp) then .next (waitFor (.counter .cp) s)
  else if !holds s (me s) .copyQueue then .next (waitFor .copyQueue s)
  else
    match if causes.isEmpty then gatedWait c s else none with
    | some t => .next t
    | none =>
      if causes.isEmpty && gateNeed s r != 0 && gateFull s (me s) (min 65536 (gateNeed s r)) then .next (standAt 2 s)
      else guarded causes (enqueueCopy c s) s

def execCopy (d a b : BitVec 8) (s : State) : Out := issueCopy 0 d a b s
def execCopym (d a b : BitVec 8) (s : State) : Out := issueCopy 1 d a b s
def execCopys (d a b : BitVec 8) (s : State) : Out := issueCopy 2 d a b s

/-- MERGE_ENTRY_CLOSE (R240, R329): an entry whose 512 clocks are over closes. -/
def execMergeEntryClose (entry : Nat) (s : State) : Out :=
  match s.merges.find? fun m => m.id == entry with
  | none => .next s
  | some m => .next (if m.isOver s then closeMerge s m else s)

/-! ## Lines and completion (R229, R238, R424, R425) -/

/-- The bytes of a performed line credited to the copy's phase. -/
def creditLine (s : State) (c : Copy) (n : Nat) : State :=
  match c.credit with
  | none => s
  | some (id, tag) =>
    match s.barriers.find? fun b => b.id == id with
    | none => s
    | some b =>
      let next := tag == b.phaseNo + 1
      let old := if next then b.pendNx else b.pend
      if c.discard || b.abandoned || !(next || tag == b.phaseNo) then s
      else if pendOut (old - n) then
        leavePending (abandon s id) c.team c.wid
          { cls := 4, code := 0x121, res := false, pois := false, frag := c.frag, pc := c.pc, instr := c.instr, ctr := none
            info := some (BitVec.ofNat 32 (c.pc.toNat / 4)) }
      else addPend s id next (-(n : Int))

/-- One word written by the engine. (Log 50: DESIGN CHOICE, unsafe.) -/
def engineWrite (s : State) (c : Copy) (sp : Spot) (x : Lane) : State :=
  let bs := toBytes 4 x.val.toNat
  match sp with
  | .mem a =>
    if gated s c then gatePush s (c.warp s) c.ord a bs x.poison
    else
      let s := homeWrite s a bs x.poison
      { s with l1 := s.l1.filterMap fun y => if y.core == c.core && y.base == lineBase a then lineStale y else some y }
  | .store a => { s with mem := s.mem.write a bs x.poison }
  | .reg team wid r off =>
    onWarp s (warpOfTeam s team wid) fun v =>
        let row := rowOf fun l => if l == off / 4 then patchLane (laneAt (regOf v r) l) 0 bs x.poison else laneAt (regOf v r) l
      dirtied { v with regs := v.regs.set r row } [r]

/-- The words of one destination line. -/
def Copy.lineWords (c : Copy) (line : Nat) : List (Nat × Nat × Nat) :=
  c.words.filter fun x => lineBase (c.dst.start + x.2.2) == line

/-- The first word of a line that translation refuses to a writer. (Log 49: DEDUCED, unsafe.) -/
def lineDeny (s : State) (c : Copy) (line : Nat) : Option (Deny × Nat) :=
  (c.lineWords line).findSome? fun x =>
    match placeSpot s c c.dst c.follower x.2.2 .write with
    | .error d => some (d, c.dst.start + x.2.2)
    | .ok _ => none

/-- Whether the gate of a redundant copy has room for a line (R42). (Log 148: DESIGN CHOICE, unsafe.) -/
def lineFits (s : State) (c : Copy) (line : Nat) : Bool :=
  !gated s c || decide (gateUsed (teamById s c.team) + 4 * (c.lineWords line).length ≤ 65536)

/-- The core whose storage a place of window storage belongs to, or the die whose home a machine address has, reached from the
copy's core (R15, R59). -/
def lineReached (s : State) (c : Copy) (line : Nat) : Bool :=
  gated s c || (c.lineWords line).all fun x =>
    match placeSpot s c c.dst c.follower x.2.2 .write with
    | .ok (.mem a) => homeReached s (taskAt s (teamById s c.team).task).world c.core a
    | .ok (.store a) => homeReached s (taskAt s (teamById s c.team).task).world c.core a
    | .ok (.reg team wid reg _) => homeReached s (taskAt s (teamById s c.team).task).world c.core (registerPlace s team wid reg)
    | .error _ => true

/-- Whether a line's bytes have all arrived from the merge entries that owe them, its place is reached, the gate has room for it, and
no array works on its place. -/
def lineReady (s : State) (c : Copy) (line : Nat) : Bool :=
  lineReached s c line && lineFits s c line && !copyHeld s c c.dst c.follower ((c.lineWords line).map (·.2.2)) .write && (c.lineWords line).all fun x =>
    !(s.merges.any fun m => c.owed.contains m.id && m.line == lineBase (c.src.start + x.2.1))

/-- Whether lines of a copy are still on their way past its core, from or to memory. -/
def Copy.asksOut (c : Copy) : Bool :=
  !(c.lines.isEmpty && c.owed.isEmpty) && match c.src, c.dst with
    | .scratch _, .scratch _ => false
    | _, _ => true

/-- COPY_LINE_PERFORMED (R238): one destination line is performed, counted and credited, or fails (R424). (Log 49: DEDUCED, unsafe.) -/
def execCopyLinePerformed (id line : Nat) (s : State) : Out :=
  match s.copies.find? fun c => c.id == id && c.accepted && c.lines.contains line with
  | none => .next s
  | some c =>
    if !lineReady s c line || lineLost s id line then .next s
    else
      match lineDeny s c line with
      | some (d, va) => .next (failCopy s c (engineCode d) va)
      | none =>
        let ws := c.lineWords line
        let s := ws.foldl (fun s x =>
          match placeSpot s c c.dst c.follower x.2.2 .write with
          | .error _ => s
          | .ok sp => let s := engineWrite s c sp (c.data.lane x.1)
            if sp matches .mem .. then noteStore s (c.warp s) (c.dst.start + x.2.2) 4 else s) s
        let s := onCopy (countPerf s c.team 7 (4 * ws.length)) id fun c => { c with lines := c.lines.filter (fun l => l != line) }
        .next (creditLine s c (4 * ws.length))

/-- COPY_COMPLETE (R238): FILL applies, and CNT.CP falls by 1. (Log 8: DESIGN CHOICE, safe.) -/
def execCopyComplete (id : Nat) (s : State) : Out :=
  match s.copies.find? fun c => c.id == id && c.accepted && c.lines.isEmpty && c.owed.isEmpty with
  | none => .next s
  | some c =>
    let s := dropCopy s id
    let s := match c.fill with
      | some h => onHandle s c.team h c.follower fun x => if x.state == .free then { x with state := .full } else x
      | none => s
    .next (onWarp s (warpOfTeam s c.team c.wid) fun w => w.onCtr .cp (· - 1))

end Sys2Proof.Machine
end

