-- ==== Sys2Proof/Machine/Fetch.lean ====
section
/-! DEFINITION. Instruction fetch (R101, R418 to R420): lines of the I-cache filled by a demand fetch or ahead of use, and
the walks begun for fetches ahead (R410). -/

namespace Sys2Proof.Machine

open Sys2Proof

/-- The 64-byte line that holds an instruction address. -/
def iLineBase (va : Nat) : Nat := va / 64 * 64

/-- Whether a core's I-cache holds the line of an address. -/
def iPresent (s : State) (core world va : Nat) : Bool :=
  s.ilines.any fun x => x.core == core && x.world == world && x.base == iLineBase va

/-- Whether a machine page is sealed for the world that its second stage gives it to (R101, R418). -/
def sealedPage (s : State) (page : Nat) : Bool :=
  if s.ownership then (ownerOf s page).sealed else pageState s page == .sealed

/-- The cause of a fetch that translation refuses (Table XLTF.1). (Log 31: DEDUCED, unsafe.) -/
def fetchDeny (d : Deny) : Cause :=
  if d.cls == 5 then { cls := 5, code := d.code, pois := true, info := BitVec.ofNat 32 d.info }
  else if d.code ≤ 2 then { cls := 3, code := 0x020, res := true, info := BitVec.ofNat 32 d.info }
  else { cls := 3, code := 0x022 }

/-- The page that a fetch reads, or why R418 refuses it, lowest code first (R407). -/
def fetchPage (s : State) (core world va : Nat) : Except Cause TlbEntry :=
  if aperture ≤ va then .error { cls := 3, code := 0x022 }
  else if (leafOf s core world va).any fun x => !x.x then .error { cls := 3, code := 0x021, res := true }
  else
    match pageFor s core world va with
    | .error d => .error (fetchDeny d)
    | .ok e =>
      if !sealedPage s (e.frame / 65536) || (ownerDeny s e).isSome then .error { cls := 3, code := 0x022 }
      else .ok e

/-- The line of an address as its page holds it. -/
def readLine (s : State) (core world va : Nat) (e : TlbEntry) : ILine :=
  let a := e.frame + iLineBase va % 65536
  { core := core, world := world, base := iLineBase va, frame := e.frame / 65536
    words := (List.range 16).map fun i => BitVec.ofNat 32 (ofBytes (s.mem.read (a + 4 * i) 4))
    poisoned := (List.range 16).filter fun i => s.mem.bad (a + 4 * i) }

/-- The line of an address fetched into a core's I-cache, past the gateway of its route (R65); on a pinned core, into its instruction store (R307). -/
def fetchLine (s : State) (core world va : Nat) (e : TlbEntry) : State :=
  let s := noteSharer (tlbFill s e core) core (e.frame + iLineBase va % 65536)
  { s with ilines := { readLine s core world va e with store := (pinOf s core).isSome } :: s.ilines }

/-- A line fetched if R418 allows it, and dropped silently otherwise (R419); a core that pins a segment fetches nothing ahead (R307). -/
def fetchOrDrop (s : State) (core world va : Nat) : State :=
  if iPresent s core world va || (pinOf s core).isSome then s
  else
    match fetchPage s core world va with
    | .ok e => fetchLine s core world va e
    | .error _ => s

/-- A walk joined or begun for a fetch ahead: a quad's requests for one page merge (R410). (Log 10: DESIGN CHOICE, safe.) -/
def joinWalk (s : State) (core world va : Nat) : State :=
  let same := fun (k : Walk) => k.quad == quadOf core && k.world == world && k.page == va / 65536
  if s.walks.any same then
    { s with walks := updateFirst same (fun k => { k with asked := if k.asked.contains (core, iLineBase va) then k.asked else k.asked ++ [(core, iLineBase va)] }) s.walks }
  else
    { s with walks := s.walks ++ [{ quad := quadOf core, world := world, page := va / 65536, asked := [(core, iLineBase va)] }] }

/-- A line requested ahead of use (R166, R419): skipped if present, fetched or dropped where a TLB holds its page, and
otherwise left to a walk. -/
def requestLine (s : State) (core world va : Nat) : State :=
  if iPresent s core world va || decide (aperture ≤ va) || (pinOf s core).isSome then s
  else if (tlbFind s core world (va / 65536)).isSome then fetchOrDrop s core world va
  else joinWalk s core world va

/-- FETCH_AHEAD (R419). -/
def execFetchAhead (core world line : Nat) (s : State) : Out := .next (requestLine s core world line)

/-- The walks of a die's walker: the worlds and pages that its quads ask for, each once, in order of arrival (R410). -/
def dieWalks (s : State) (die : Nat) : List (Nat × Nat) :=
  ((s.walks.filter fun k => dieOf (4 * k.quad) == die).map fun k => (k.world, k.page)).eraseDups

/-- TRANSLATION_WALK_COMPLETE (R410): the lines that waited for the page are fetched, or dropped, for every quad whose request the die's walker
merged into the walk; the walker works on its 64 oldest walks. (Log 10: DESIGN CHOICE, safe.) -/
def execTranslationWalkComplete (quad world page : Nat) (s : State) : Out :=
  let die := dieOf (4 * quad)
  let same := fun (k : Walk) => dieOf (4 * k.quad) == die && k.world == world && k.page == page
  if !((dieWalks s die).take 64).contains (world, page) then .next s
  else .next (((s.walks.filter same).flatMap (·.asked)).foldl (fun s q => fetchOrDrop s q.1 world q.2)
    { s with walks := s.walks.filter fun x => !same x })

/-- The cursor on a fragment whose words are not all at hand: those fetched stand in the record (R418). -/
def pointFetch (s : State) (i fid : Nat) (pfxWord : Word) : State :=
  { s with cur := { warp := i, frag := indexWhere (fun f => f.id == fid) (s.warps.getD i {}).frags, len := 4, pfxWord := pfxWord } }

/-- Whether a fragment is to issue next as far as its warp and its waits go, so that its words are fetched on demand (R418). -/
def fetchDue (s : State) (w : Warp) (f : Frag) : Bool := warpReady s w && !pendingNow w && fragReady s w f

/-- Whether a core fetches an instruction address on demand: a pinned one, only of its own segment (R307, R438). -/
def mayFetch (s : State) (w : Warp) (va : Nat) : Bool := (pinOf s w.core).all fun pin => inSegment s (launchOf s w) pin va

/-- DEMAND_FETCH (R418): the words at the PC of a fragment that is to issue next are fetched, or the fragment faults. -/
def execDemandFetch (core slot fid : Nat) (s : State) : Out :=
  let i := warpAt s core slot
  let w := s.warps.getD i {}
  let world := (launchOf s w).world
  match (fragById w fid).filter (fetchDue s w) with
  | none => .next s
  | some f =>
    match peek s core world f.pc.toNat with
    | .absent va =>
      if !mayFetch s w va then .next s
      else
        match fetchPage s core world va with
        | .ok e => .next (fetchLine s core world va e)
        | .error c =>
          let had := if va == f.pc.toNat then 0 else ((iWord s core world f.pc.toNat).map (·.1)).getD 0
          .next (raise { c with addr := BitVec.ofNat 64 va } (pointFetch s i fid had))
    | _ => .next s

end Sys2Proof.Machine
end

