-- ==== Sys2Proof/Machine/Control.lean ====
section
/-! DEFINITION. Control: branches, calls and returns, joins, exits and waiting, and IPREF (R159 to R166, R393). -/

namespace Sys2Proof.Machine

open Sys2Proof

/-- An issue that leaves the PC alone is counted all the same (Table ISAE.6). -/
def issued (s : State) : State := countPerf s (me s).team 0 1

/-- A register in the lowest lane of EXEC, for an instruction that always reads one lane (R162). (Log 13: DESIGN CHOICE, safe.) -/
def callLane (s : State) (r : Nat) : Word :=
  if (fr s).exec == 0#32 then Config.noLane r s.tick else scalarAt (me s) (fr s) r

/-- NOP has no effect other than one issue slot (R125). -/
def execNop (s : State) : Out := .next (advance s)

/-! ## Branches (R159 to R161) -/

/-- The target of a BR or CALL word. -/
def nearTarget (p : Option Pfx) (s : State) {n : Nat} (x : BitVec n) : Pc := branchTarget (fr s).pc (immSigned p x)

def execBr (p : Option Pfx) (_h : BitVec 2) (x : BitVec 22) (s : State) : Out := .next (goto (nearTarget p s x) s)

/-- The join address that the module's join map gives a branch (R160). -/
def joinOf (s : State) (pc : Pc) : Option Pc :=
  match sealAt s (launchOf s (me s)).world pc.toNat with
  | none => none
  | some m => (m.joins.find? fun e => e.1 == pc.toNat).map fun e => BitVec.ofNat 57 e.2

/-- Split(T) of R159: the lanes of T form a new fragment at the target, the others go on at the fall-through. (Log 143: DESIGN CHOICE, unsafe.) -/
def split (t : Word) (target join : Pc) (likely : Bool) (s : State) : State :=
  let w := me s
  let f := fr s
  let mark : Split := { id := w.nextSplit, join := join, parent := f.id, favoured := if likely then w.nextFrag else f.id }
  let taken : Frag :=
    { id := w.nextFrag, pc := target, exec := t, frag := t, splits := mark :: f.splits, handler := f.handler
      acquire := f.acquire }
  let s := setMe s { w with frags := w.frags ++ [taken], nextFrag := w.nextFrag + 1, nextSplit := w.nextSplit + 1 }
  advance (setFr s { f with frag := f.frag &&& ~~~t, exec := f.exec &&& ~~~t, splits := mark :: f.splits })

/-- BRC and BRZ, which differ in the condition on a lane. -/
def branchIf (cond : Word → Bool) (p : Option Pfx) (c : Nat) (h : BitVec 2) (x : BitVec 14) (s : State) : Out :=
  let w := me s
  let f := fr s
  let r := regOf w c
  let target := nearTarget p s x
  if h == 3#2 then
    let taken := f.exec != 0#32 && cond (scalarAt w f c)
    guarded (consumed (scalarPoison w f [c]) ++ outside s [c]) (if taken then goto target s else advance s) s
  else
    let t := maskOf fun l => inMask f.exec l && cond (valAt r l)
    let causes := consumed (poisonMask r f.exec) ++ outside s [c]
    if t == 0#32 then guarded causes (advance s) s
    else if t == f.exec then guarded causes (goto target s) s
    else
      match joinOf s f.pc with
      | none => guarded (causes ++ [{ cls := 2, code := 0x002 }]) s s
      | some j =>
        guarded causes (if holds s w .splitEntry then split t target j (h == 1#2) s else waitFor .splitEntry s) s

def execBrc (p : Option Pfx) (c : BitVec 8) (h : BitVec 2) (x : BitVec 14) (s : State) : Out :=
  branchIf (fun v => v.getLsbD 0) p c.toNat h x s

def execBrz (p : Option Pfx) (c : BitVec 8) (h : BitVec 2) (x : BitVec 14) (s : State) : Out :=
  branchIf (fun v => v == 0#32) p c.toNat h x s

/-- The displacements of jump table `t` of the module that holds the instruction (R160, R161). -/
def jumpTable (s : State) (t : Nat) : List Int :=
  match sealAt s (launchOf s (me s)).world (fr s).pc.toNat with
  | none => []
  | some m => look m.jumps t []

def execBrx (i : BitVec 8) (t : BitVec 14) (s : State) : Out :=
  let w := me s
  let f := fr s
  let table := jumpTable s t.toNat
  let e := scalarAt w f i.toNat
  if f.exec == 0#32 then guarded (outside s [i.toNat]) (advance s) s
  else
    guarded (consumed (scalarPoison w f [i.toNat]) ++ outside s [i.toNat] ++
        (if table.length ≤ e.toNat then [{ cls := 2, code := 0x043, info := e }] else []))
      (goto (branchTarget f.pc (table.getD e.toNat 0)) s) s

/-! ## Calls and returns (R162) -/

/-- Why a push is refused (R393, R417). -/
def pushCauses (s : State) : List Cause :=
  let w := me s
  if 4096 ≤ w.link.length then [{ cls := 2, code := 0x040, info := 4096 }]
  else if decide (32 ≤ w.onCore) then
    match pageFor s w.core (launchOf s w).world w.spill.toNat with
    | .ok _ => []
    | .error _ => [{ cls := 3, code := 0x040, res := true, addr := w.spill }]
  else []

/-- A doubleword as two lanes. -/
def lanes64 (d : DWord) : List Lane := [clean (loWord d), clean (hiWord d)]

/-- An entry's 16 bytes: the return address, then the stack pointer pair (R95, R311). -/
def LinkEntry.lanes (e : LinkEntry) : List Lane :=
  lanes64 (e.ret.zeroExtend 64) ++ [{ val := loWord e.sp, poison := e.poisonLo }, { val := hiWord e.sp, poison := e.poisonHi }]

/-- The machine address of a byte of a warp's sealed spill region. -/
def spillPlace (s : State) (w : Warp) (va : DWord) : Option Nat :=
  (pageFor s w.core (launchOf s w).world va.toNat).toOption.map fun e => e.frame + va.toNat % 65536

/-- Entries written to a warp's spill region above those already there, oldest first (R31, R311). (Log 187: DEDUCED, unsafe.) -/
def spillOut (s : State) (w : Warp) (es : List LinkEntry) : State :=
  (es.reverse.flatMap LinkEntry.lanes).zipIdx.foldl (fun s x =>
    match spillPlace s w (w.spill + BitVec.ofNat 64 (4 * x.2)) with
    | none => s
    | some a => homeWrite s a (toBytes 4 x.1.val.toNat) x.1.poison) s

/-- The oldest of a warp's entries on its core, past the newest `n`. -/
def oldestOnCore (w : Warp) (n : Nat) : List LinkEntry := (w.link.take w.onCore).drop n

/-- Push of R162: at 32 entries on the core the oldest 8 are spilled first. -/
def push (ret : Pc) (s : State) : State :=
  let s := if 32 ≤ (me s).onCore then spillOut s (me s) (oldestOnCore (me s) ((me s).onCore - 8)) else s
  let w := me s
  let l := if (fr s).exec == 0#32 then 32 else lowestLane (fr s).exec
  let e : LinkEntry :=
    { ret := ret, sp := pairOf (callLane s 254) (callLane s 255)
      poisonLo := poisonAt (regOf w 254) l, poisonHi := poisonAt (regOf w 255) l }
  let full := decide (32 ≤ w.onCore)
  setMe s { w with
    link := e :: w.link
    onCore := if full then w.onCore - 8 + 1 else w.onCore + 1
    spill := if full then w.spill + 128 else w.spill }

def execCall (p : Option Pfx) (_h : BitVec 2) (x : BitVec 22) (s : State) : Out :=
  guarded (pushCauses s) (goto (nearTarget p s x) (push (nextPc s) s)) s

/-- Whether the package's entry cache holds an entry. -/
def entryCached (s : State) (world e : Nat) : Bool := s.entryCache.contains (world, e)

def execCalli (a : BitVec 8) (s : State) : Out :=
  let w := me s
  let f := fr s
  let world := (launchOf s w).world
  let e := callLane s a.toNat
  if !entryCached s world e.toNat then
    guarded (consumed (scalarPoison w f [a.toNat]) ++ outside s [a.toNat])
      (setFr s { f with wait := .entryMiss e.toNat }) s
  else
    let code := entryCode s world e.toNat (roleCode (roleOf w f))
    guarded (consumed (scalarPoison w f [a.toNat]) ++ outside s [a.toNat] ++ pushCauses s ++
        (if code.isNone then [{ cls := 2, code := 0x042, info := e }] else []))
      (goto (BitVec.ofNat 57 (code.getD 0)) (push (nextPc s) s)) s

/-- ENTRY_CACHE_FILL (R162): the entry arrives from die 0, and the CALLI issues again. (Log 11: DESIGN CHOICE, safe.) -/
def execEntryCacheFill (core slot : Nat) (s : State) : Out :=
  let i := warpAt s core slot
  let w := s.warps.getD i {}
  let world := (launchOf s w).world
  let got := w.frags.filterMap fun f => match f.wait with
    | .entryMiss e => some (world, e)
    | _ => none
  .next { onWarp s i (fun w => { w with frags := w.frags.map fun f => match f.wait with
      | .entryMiss _ => { f with wait := .none }
      | _ => f }) with entryCache := got ++ s.entryCache }

/-- The pop of R162 for a fragment of a warp: v254:v255 take the entry's pair in the lanes of FRAG, and the PC its
return address. -/
def popInto (w : Warp) (f : Frag) (e : LinkEntry) : Warp :=
  let put := fun (r : Nat) (v : Word) (bad : Bool) (w : Warp) =>
    { w with regs := w.regs.set r (writeRow (regOf w r) (rowOf fun _ => if bad then poisoned else clean v) f.frag 0#32) }
  dirtied (put 255 (hiWord e.sp) e.poisonHi (put 254 (loWord e.sp) e.poisonLo
    { w with link := w.link.drop 1, onCore := w.onCore - 1 })) [254, 255]

/-- The block that a refill reads: the newest spilled entries, at most 8. -/
def refillBlock (w : Warp) : DWord := w.spill - BitVec.ofNat 64 (16 * min 8 w.link.length)

def execRet (s : State) : Out :=
  let w := me s
  let f := fr s
  match w.link with
  | [] => guarded [{ cls := 2, code := 0x041 }] s s
  | e :: _ =>
    if w.onCore == 0 then
      match pageFor s w.core (launchOf s w).world (refillBlock w).toNat with
      | .error _ => guarded [{ cls := 3, code := 0x040, res := true, addr := refillBlock w, info := 1 }] s s
      | .ok _ => .next (setFr { s with nextId := s.nextId + 1 } { f with wait := .linkRefill s.nextId })
    else .next (goto e.ret (setMe s (popInto w f e)))

/-- Whether a refilled entry carries poison: a stack pointer spilled with it, or a word of the block in memory (R402, R444). (Log 187: DEDUCED, unsafe.) -/
def refillBad (s : State) (w : Warp) : Bool :=
  let n := min 8 w.link.length
  (w.link.take n).any (fun e => e.poisonLo || e.poisonHi) || (List.range n).any fun i =>
    (spillPlace s w (refillBlock w + BitVec.ofNat 64 (16 * i))).any fun a => (homeMem s a).readBad a 16

/-- Whether the block of a refill comes back: its home is reached, and no packet of the request is lost (R416). (Log 187: DEDUCED, unsafe.) -/
def refillComes (s : State) (w : Warp) (id : Nat) : Bool :=
  !opLost s id && (spillPlace s w (refillBlock w)).all fun a => homeReached s (launchOf s w).world w.core a

/-- The fragment of a warp that waits for a refill, with the number of the request. -/
def refilling (w : Warp) : Option (Frag × Nat) :=
  w.frags.findSome? fun f => match f.wait with
    | .linkRefill id => some (f, id)
    | _ => none

/-- LINK_STACK_REFILL (R162): the newest 8 spilled entries return, and the waiting RET issues again; a poisoned entry
among them halts the warp (Table REL.3). -/
def execLinkStackRefill (core slot : Nat) (s : State) : Out :=
  let i := warpAt s core slot
  let w := s.warps.getD i {}
  match (refilling w).filter fun x => refillComes s w x.2 with
  | none => .next s
  | some (f, _) =>
    if refillBad s w then
      .next (haltWarp s i (recordOf { s with cur := { s.cur with word := 0x07000000#32, pfxWord := 0 } } w f.frag f.pc
        { cls := 5, code := 0x007, pois := true, addr := refillBlock w, info := 10 }))
    else
      .next (onWarp s i fun w =>
        onFrag { w with onCore := w.onCore + min 8 w.link.length, spill := refillBlock w } f.id fun f => { f with wait := .none })

/-! ## Joins, exits and waiting (R163 to R165) -/

/-- A warp whose fused fragment stands outside the segment its core pins begins to depart, past its JOIN (R309). -/
def checkLeave (s : State) (i : Nat) : State :=
  let w := s.warps.getD i {}
  match w.frags.find? fun f => leavesSegment s w f f.pc with
  | some f => onWarp s i fun w => { w with departing := true, blocked := true, leftAt := f.pc - 4#57 }
  | none => s

def execJoin (s : State) : Out :=
  let f := fr s
  match f.splits with
  | x :: _ =>
    if x.join == f.pc then
      let s := issued (setFr s { f with wait := .join x.id })
      .next (checkLeave (setMe s (closeSplits (me s))) s.cur.warp)
    else .next (advance (setFr s { f with exec := f.frag }))
  | [] => .next (advance (setFr s { f with exec := f.frag }))

/-- Fragments that have ended wait for no lock, and a warp with no lane left is no partner any more (R397). -/
def afterExit (s : State) : State :=
  let s := dropStale s s.cur.warp
  if (me s).frags.isEmpty then failPartners s s.cur.warp else s

def execExitw (s : State) : Out :=
  let f := fr s
  let s := issued s
  if f.handler then .next (afterExit (setMe s (exitAll (me s))))
  else .next (afterExit (checkLeave (setMe s (exitFrag (me s) f.id)) s.cur.warp))

def execYield (s : State) : Out :=
  let s := advance s
  .next (setFr s { fr s with yielded := true })

def execSleep (n : BitVec 16) (s : State) : Out :=
  let s := advance s
  .next (if n == 0#16 then s else setFr s { fr s with wait := .sleep n.toNat })

/-- SLEEP_EXPIRY (R165). -/
def execSleepExpiry (core slot fid : Nat) (s : State) : Out :=
  .next (onWarp s (warpAt s core slot) fun w => onFrag w fid fun f => match f.wait with
    | .sleep _ => { f with wait := .none }
    | _ => f)

def execTrap (n : BitVec 16) (s : State) : Out :=
  .next (raise { cls := 1, code := 0, res := true, info := n.zeroExtend 32, next := true } (issued s))

/-! ## IPREF (R166) -/

def execIpref (c : BitVec 8) (x : BitVec 14) (s : State) : Out :=
  let w := me s
  let l := launchOf s w
  let first := iLineBase (nearTarget none s x).toNat
  .next (advance (if l.travelling then s
    else (List.range c.toNat).foldl (fun s i => requestLine s w.core l.world (first + 64 * i)) s))

/-! ## Run-ahead (R419) -/

/-- Where fetch runs ahead for a transfer (Table ENC.6): at its target, or down its fall-through; nowhere for one hinted 10 that always leaves. -/
def aheadOf (s : State) : Instr → Option Pc
  | .br p h x => if h == 2#2 then none else some (nearTarget p s x)
  | .call p h x => if h == 2#2 then none else some (nearTarget p s x)
  | .brc p _ h x => some (if h == 1#2 then nearTarget p s x else nextPc s)
  | .brz p _ h x => some (if h == 1#2 then nearTarget p s x else nextPc s)
  | _ => none

/-- What the core fetches ahead as a fragment issues: the line that a transfer's hint names, and the next sequential line where the instruction is the
first that the fragment issues from its line. -/
def runAhead (i : Instr) (s : State) : State :=
  let w := me s
  let world := (launchOf s w).world
  let line := iLineBase (fr s).pc.toNat
  let s := match aheadOf s i with
    | some pc => requestLine s w.core world pc.toNat
    | none => s
  if (fr s).line == some line then s else setFr (requestLine s w.core world (line + 64)) { fr s with line := some line }

end Sys2Proof.Machine
end

