-- ==== Sys2Proof/Machine/Locks.lean ====
section
/-! DEFINITION. Locks (R218 to R222, R398) and XCHG (R199, R200, R397). -/

namespace Sys2Proof.Machine

open Sys2Proof

/-! ## LOCK and UNLOCK -/

/-- The causes of a lock word's address: poison, registers, alignment, translation (R392, R409, R415). -/
def lockCauses (s : State) (a : Nat) : List Cause :=
  let w := me s
  let f := fr s
  let low := BitVec.ofNat 32 (2 ^ lowestLane f.exec)
  let addr := fun _ : Nat => (scalarPair w f a).toNat
  consumed (scalarPoison w f [a, a + 1]) ++ outside s [a, a + 1] ++ alignCauses low addr 4 ++ spotCauses s w low addr .write true

/-- The lock word's place at its home. -/
def lockPlace (s : State) (a : Nat) : Nat :=
  match spotOf s (me s) (scalarPair (me s) (fr s) a).toNat .write true with
  | .ok (.mem x) => x
  | _ => 0

/-- The word at its home. -/
def homeWord (s : State) (a : Nat) : Word := BitVec.ofNat 32 (ofBytes (homeRead s a 4).1)

/-- What the home finds in a LOCK or UNLOCK's word (R398). -/
def wordCauses (s : State) (a t : Nat) (place : Nat) (lock : Bool) : List Cause :=
  let w := me s
  let addr := scalarPair w (fr s) a
  if s.mem.bad place then [{ cls := 2, code := 0x082, pois := true, addr := addr, info := BitVec.ofNat 32 t }]
  else if lock && homeWord s place == ownerValue s w.core w.slot then
    [{ cls := 2, code := 0x081, addr := addr, info := BitVec.ofNat 32 t }]
  else []

/-- A token slot set by the LOCK that acquires (R370). -/
def setToken (w : Warp) (t : Nat) (k : Token) : Warp := { w with tokens := w.tokens.set t k }

/-- How many fragments wait at the slice of a word. -/
def sliceWaiters (s : State) (a : Nat) : Nat :=
  (s.waiters.filter fun x => homeDie x.word == homeDie a && homeSlice x.word == homeSlice a &&
    x.word / 2 ^ 41 == a / 2 ^ 41 && !x.granted).length

/-- The fragment continues with the lock: token, the L1's copy of the word's line given up (R204), acquire actions, next
instruction. -/
def takeLock (t scope place : Nat) (va : DWord) (s : State) : State :=
  let s := l1Leave (setMe s (setToken (me s) t { addr := va, held := true, scope := scope })) (me s).core place
  advance (acquireActs s (me s).core scope)

/-- LOCK (R220): the word is taken at its home, and the slice's reply lets the fragment go on; or the fragment is registered, or is to try
again; without a route the request is on its way. (Log 185: DEDUCED, unsafe.) -/
def execLock (t : BitVec 3) (a : BitVec 8) (s1 : BitVec 3) (s : State) : Out :=
  let w := me s
  let f := fr s
  let scope := s1.toNat
  let va := scalarPair w f a.toNat
  if f.exec == 0#32 then .next (advance s)
  else
    let pre := lockCauses s a.toNat
    if !pre.isEmpty then guarded pre s s
    else
      let place := lockPlace s a.toNat
      let s := homeReady (fillPages s w 1#32 fun _ => va.toNat) w.core place 4
      let reached := homeReached s (launchOf s w).world w.core place
      let causes := if reached then wordCauses s a.toNat t.toNat place true else []
      if causes.isEmpty && mustCompare s then .next (standAt 5 s)
      else if !causes.isEmpty then guarded causes s s
      else if !reached then
        .next (setFr { s with nextId := s.nextId + 1 } { fr s with wait := .lockSent place s.nextId va })
      else
        let x : Waiter :=
          { word := place, core := w.core, slot := w.slot, frag := f.id, token := t.toNat, scope := scope, vaddr := va
            granted := homeWord s place == 0#32, woken := false, id := s.nextId }
        if x.granted then
          let s := throughWrite s w.core place (bytesOf [ownerValue s w.core w.slot]) false
          .next (setFr { s with waiters := s.waiters ++ [x], nextId := s.nextId + 1 } { fr s with wait := .lock place })
        else if decide (256 ≤ sliceWaiters s place) then .next (setFr s { fr s with wait := .lockRetry place })
        else .next (setFr { s with waiters := s.waiters ++ [x], nextId := s.nextId + 1 } { fr s with wait := .lock place })

/-- An UNLOCK that found the word not its own leaves an imprecise fault pending (R398). -/
def unlockPending (s : State) (code : Nat) (va : DWord) : Pending :=
  let f := fr s
  { cls := 2, code := code, res := true, pois := false, frag := f.frag, pc := f.pc, instr := s.cur.word, pfxWord := 0
    ctr := some .st, addr := va, info := some (BitVec.ofNat 32 (f.pc.toNat / 4)) }

/-- The UNLOCK performed at the home (R221), its reply on its way; a word found not the warp's own is reported. -/
def unlockEffect (t : Nat) (va : DWord) (place : Nat) (s : State) : State :=
  let w := me s
  let found := homeWord s place
  let s := setMe s (setToken (me s) t { (me s).tokens.getD t {} with held := false, addr := 0 })
  let s := handOver (l1Leave s w.core place) place
  if found == ownerValue s w.core w.slot then launchOp .st [] (fr s).exec 0 va [lineBase place] false s
  else
    let code := if found == 0#32 then 0x080 else 0x083
    let p := unlockPending s code va
    setMe s (((me s).onCtr .st (· + 1)).leave s.now p)

def execUnlock (t : BitVec 3) (a : BitVec 8) (s1 : BitVec 3) (s : State) : Out :=
  let w := me s
  let f := fr s
  let va := scalarPair w f a.toNat
  if f.exec == 0#32 then .next (advance s)
  else
    let pre := lockCauses s a.toNat
    let place := lockPlace s a.toNat
    let causes := if pre.isEmpty then wordCauses (homeReady s w.core place 4) a.toNat t.toNat place false else pre
    orderedAccess 2 s1.toNat (some .st) none causes
      (fun s =>
        if isCopy1 s then advance (launchOp .st [] f.exec 0 va [] false (l1Leave (setMe s (setToken (me s) t.toNat {})) w.core place))
        else advance (unlockEffect t.toNat va place (homeReady (fillPages s w 1#32 fun _ => va.toNat) w.core place 4))) s

/-- LOCK_HANDOVER_REPLY (R221): a fragment whose LOCK has acquired its word, or was handed it, takes the lock and goes on; the handover to copy 0 serves
copy 1 too (R222).  A reply to a fragment that a handler holds stands until the handler's ERET, which restores the token slots (R371). (Log 171: DEDUCED, unsafe; 185: DEDUCED, unsafe.) -/
def execLockHandoverReply (core slot fid : Nat) (s : State) : Out :=
  let mine := fun (x : Waiter) => x.core == core && x.slot == slot && x.frag == fid && x.granted
  let i := warpAt s core slot
  let w := s.warps.getD i {}
  let answered := fun (x : Waiter) => mine x && !opLost s x.id && homeReached s (launchOf s w).world core x.word
  match if w.halted || (fragById w fid).any (·.held) then none else s.waiters.find? answered with
  | none => .next s
  | some x =>
    let j := indexWhere (fun f => f.id == fid) (s.warps.getD i {}).frags
    let n := passesOf (coreCfg s core) ((s.warps.getD i {}).frags.getD j {}).exec
    let s := { s with
      waiters := s.waiters.filter fun y => !mine y
      cur := { s.cur with warp := i, frag := j, len := 4, busy := n.1, skipped := n.2 } }
    let take := takeLock x.token x.scope x.word x.vaddr
    .next (forTwin 5 (fr s) (some (fr s).exec) take (take s))

/-- The fragment that waits for the reply to a LOCK's request: its warp's place, its number, the word and the pair's address. -/
def lockAsker (s : State) (id : Nat) : Option (Nat × Nat × Nat × DWord) :=
  match s.waiters.find? fun x => x.id == id && x.granted with
  | some x => some (warpAt s x.core x.slot, x.frag, x.word, x.vaddr)
  | none => s.warps.zipIdx.findSome? fun wi => wi.1.frags.findSome? fun f => match f.wait with
    | .lockSent word n va => if n == id then some (wi.2, f.id, word, va) else none
    | _ => none

/-- A LOCK whose request or reply has been lost (R416): the word may be the warp's all the same, the token slot is not set, and the fragment
stands where it is until the fault is taken. (Log 185: DEDUCED, unsafe.) -/
def loseLock (s : State) (id i fid word : Nat) : State :=
  onWarp { s with waiters := s.waiters.filter fun x => !(x.id == id && x.granted) } i fun w =>
    onFrag w fid fun f => { f with wait := .lockRetry word }

/-- LOCK_RETRY (R220): a LOCK that met a full list, or no route, performs again. (Log 185: DEDUCED, unsafe.) -/
def execLockRetry (core slot fid : Nat) (s : State) : Out :=
  .next (onWarp s (warpAt s core slot) fun w => onFrag w fid fun f => match f.wait with
    | .lockRetry _ => { f with wait := .none, compared := true }
    | .lockSent _ _ _ => { f with wait := .none, compared := true }
    | _ => f)

/-- LOCK_WAITER_WAKE (R220): the woken waiters of a word are unregistered and perform their LOCKs again. -/
def execLockWaiterWake (lockWord : Nat) (s : State) : Out :=
  let mine := fun (x : Waiter) => x.word == lockWord && x.woken && !x.granted
  .next { (s.waiters.filter mine).foldl (fun s x => onWarp s (warpAt s x.core x.slot) fun w =>
      onFrag w x.frag fun f => { f with wait := .none, compared := true }) s with
    waiters := s.waiters.filter fun x => !mine x }

/-! ## XCHG -/

/-- The partner warp of a warp's XCHG through a region: its place, if it is there and has not ended. (Log 35: DEDUCED, unsafe.) -/
def xchgPartner (s : State) (w : Warp) (k : Nat) : Option Nat :=
  match windowTarget s (teamOf s w) k with
  | none => none
  | some u =>
    let i := warpOfTeam s u.id w.wid
    let v := s.warps.getD i {}
    if i < s.warps.length && !v.halted && !v.frags.isEmpty then some i else none

/-- Log 35: DEDUCED, unsafe. -/
def execXchg (d s1 : BitVec 8) (k n : BitVec 4) (s : State) : Out :=
  let w := me s
  let f := fr s
  let count := n.toNat + 1
  let named := regRun d.toNat count ++ regRun s1.toNat count
  match xchgPartner s w k.toNat with
  | none => guarded (outside s named ++ [{ cls := 2, code := 0x061 }]) s s
  | some i =>
    let team := (s.warps.getD i {}).team
    let x : Xchg :=
      { region := k.toNat, word := s.cur.word, ordinal := sentTo w team, dest := d.toNat, count := count, exec := f.exec
        snapshot := (regRun s1.toNat count).map (regOf w), frag := f.id, hold := s.nextId, team := team }
    let w' := { dirtied w (regRun d.toNat count) with
      xchg := some x
      holds := w.holds ++ [{ id := s.nextId, regs := regRun d.toNat count }]
      xchgSent := put w.xchgSent team (sentTo w team + 1) }
    guarded (outside s named) (countPerf (setFr { setMe s w' with nextId := s.nextId + 1 } { f with wait := .xchg }) w.team 0 1) s

/-- XCHG_MATCH (R199, R397): two waiting XCHGs that name each other, with equal ordinals, exchange their runs in one
step, or both fault where their lengths differ; one whose target is its own team has no partner and waits on. (Log 172: DEDUCED, unsafe; 179: DESIGN CHOICE, unsafe.) -/
def execXchgMatch (core slot partnerCore partnerSlot : Nat) (s : State) : Out :=
  let i := warpAt s core slot
  let j := warpAt s partnerCore partnerSlot
  let v := s.warps.getD i {}
  let u := s.warps.getD j {}
  match v.xchg, u.xchg with
  | some x, some y =>
    if xchgPartner s v x.region == some j && xchgPartner s u y.region == some i && x.ordinal == y.ordinal && i != j then
      if x.count == y.count then .next (onWarp (onWarp s i fun v => xchgInto v x y) j fun u => xchgInto u y x)
      else
        .next (onWarp (onWarp s i fun v => failXchg s v x { cls := 2, code := 0x060, info := BitVec.ofNat 32 y.count }) j
          fun u => failXchg s u y { cls := 2, code := 0x060, info := BitVec.ofNat 32 x.count })
    else .next s
  | _, _ => .next s

end Sys2Proof.Machine
end

