-- ==== Sys2Proof/Machine/Sites.lean ====
section
/-! DEFINITION. Counted errors: sites, lasting faults, the actions of Table REL.4 and the pending list (R442, R445 to R447). -/

namespace Sys2Proof.Machine

open Sys2Proof

/-- The die of a machine page (R51). -/
def pageDie (p : Nat) : Nat := p / 2 ^ 20 % 32

/-! ## The pending list (R447) -/

/-- A 32-bit count, or a 16-bit one, that saturates (R363). -/
def satAdd (limit x n : Nat) : Nat := min limit (x + n)

/-- A retired lane or core counted in the lifetime records. -/
def countRetired (s : State) (r : Retire) : State :=
  let l := s.life
  if r.action == 1 then { s with life := { l with lanes := satAdd 0xFFFF l.lanes 1 } }
  else if r.action == 2 then { s with life := { l with cores := satAdd 0xFFFF l.cores 1 } }
  else s

/-- Every site acted on: the pending list, and what a full list had no entry for. -/
def actedOn (s : State) : List Retire := s.retire ++ s.unlisted

/-- An entry added to the pending list, once; where the list is full, it is acted on without one. -/
def addRetire (s : State) (r : Retire) : State :=
  if (actedOn s).any fun x => { x with applied := false } == r then s
  else
    let s := countRetired s r
    if decide (4096 ≤ s.retire.length) then { s with unlisted := s.unlisted ++ [r] } else { s with retire := s.retire ++ [r] }

/-- The entry that retires a core. -/
def coreEntry (sclass core : Nat) : Retire := { action := 2, sclass := sclass, unit := core, lane := 0, applied := false, detail := 0 }

/-! ## Actions on a lasting site (R446) -/

/-- The good lanes of a core with one lane and those of the pending list left out. -/
def lanesLeft (s : State) (core lane : Nat) : Nat :=
  ((List.range 16).filter fun i => (coreCfg s core).laneMap.getLsbD i && i != lane &&
    !(actedOn s).any fun r => r.action == 1 && r.unit == core && r.lane == i).length

/-- A lane, or with fewer than 8 left the core. -/
def retireLane (s : State) (core lane : Nat) : State :=
  if lanesLeft s core lane < 8 then addRetire s (coreEntry 4 core)
  else addRetire s { action := 1, sclass := 4, unit := core, lane := lane, applied := false, detail := 0 }

/-- A spare row of a bank or store, of which each has 2; with none left, the core. -/
def useSpare (s : State) (x : Site) : State :=
  let bank := (x.structClass, x.unit, x.sub)
  let r : Retire := { action := 3, sclass := x.structClass, unit := x.unit, lane := 0, applied := false, detail := x.row, bank := x.sub }
  if (actedOn s).contains r then s
  else if 2 ≤ (s.spares.filter fun y => y == bank).length then addRetire s (coreEntry x.structClass x.unit)
  else addRetire { s with spares := bank :: s.spares } r

/-- A spare row of the array; beyond 2, the core. -/
def useArrayRow (s : State) (x : Site) : State :=
  let r : Retire := { action := 3, sclass := 7, unit := x.unit, lane := 0, applied := false, detail := x.row }
  let used := (coreCfg s x.unit).spareRows + ((actedOn s).filter fun y => y.action == 3 && y.sclass == 7 && y.unit == x.unit).length
  if (actedOn s).contains r then s else if 2 ≤ used then addRetire s (coreEntry 7 x.unit) else addRetire s r

/-- A machine page retired at once: it never enters the clean pool. -/
def retirePage (s : State) (page : Nat) : State :=
  if s.retiredPages.contains page then s
  else addRetire { s with retiredPages := page :: s.retiredPages }
    { action := 4, sclass := 0, unit := pageDie page, lane := 0, applied := false, detail := page % 2 ^ 20 }

/-! ## What a link takes with it (R450, R451) -/

/-- How a packet's path is tested for what has gone down: from a core to a home or to storage, from die to die, and from a core toward the
pod's barriers. -/
structure Cut where
  request : Nat → Nat → Nat → Bool
  ring : Nat → Nat → Bool
  flit : Nat → Nat → Bool

/-- The destination lines of a copy whose packets take a path, or all that wait for a source line that does. (Log 121: DEDUCED, unsafe.) -/
def cutLines (s : State) (k : Cut) (c : Copy) : List Nat :=
  let world := (taskAt s (teamById s c.team).task).world
  if !c.accepted then []
  else if s.merges.any fun m => c.owed.contains m.id && k.request world c.core m.place then c.lines
  else c.lines.filter fun line => (c.lineWords line).any fun x =>
    match placeSpot s c c.dst c.follower x.2.2 .write with
    | .ok (.mem a) => !gated s c && k.request world c.core a
    | .ok (.store a) => k.request world c.core a
    | .ok (.reg team wid r _) => k.request world c.core (registerPlace s team wid r)
    | .error _ => false

/-- What a job moves in order: the offset and size of each piece, its words, or its bytes where KIND 0 moves a range that is not of whole aligned
words (R242, R359). (Log 56: DESIGN CHOICE, unsafe.) -/
def jobPieces (c : JobCard) : List (Nat × Nat) :=
  if c.kind != 0 || (c.dst.toNat % 4 == 0 && c.src.toNat % 4 == 0 && c.len % 4 == 0) then (List.range (c.len / 4)).map fun i => (4 * i, 4)
  else (List.range c.len).map fun i => (i, 1)

/-- The number of the packets of a task slot's job: that of its present task (R450). (Log 137: DEDUCED, unsafe.) -/
def jobNumber (s : State) (slot : Nat) : Nat := 512 * (taskAt s slot).seq.toNat + slot

/-- Where a walk finds a byte of a world, whatever its rights. -/
def walkPlace (s : State) (world va : Nat) : Option Nat := (walk s world va).toOption.map fun x => x.1 / 65536 * 65536 + va % 65536

/-- The destination lines of a task slot's job whose packets take a path: between the engine at a line's home and its source, or toward another
package. (Log 56: DESIGN CHOICE, unsafe; 121: DEDUCED, unsafe.) -/
def cutJob (s : State) (k : Cut) (slot : Nat) : List Nat :=
  match (taskAt s slot).state, (taskAt s slot).body with
  | .running, .job c =>
    let world := (taskAt s slot).world
    let moved := (jobPieces c).filter fun x => (walkPlace s world (c.dst.toNat + x.1)).any fun a =>
      if podRemote s a then k.request world 0 a
      else c.kind != 1 && (walkPlace s world (c.src.toNat + x.1)).any fun b => k.request world (32 * homeDie a) b
    (moved.map fun x => lineBase (c.dst.toNat + x.1)).eraseDups
  | _, _ => []

/-- Where a sled goes: its destination's core, or, not steered yet, the core of replica 0, on whose die the steering slice is (R312). -/
def sledTarget (s : State) (x : Sled) : Nat :=
  x.dest.getD (((s.pins.find? fun p => p.task == x.task && p.k == x.seg && p.j == 0).map (·.core)).getD x.fromCore)

/-- Whether a pod barrier's arrivals are on a path. -/
def cutFlits (s : State) (k : Cut) (b : Barrier) : Bool :=
  b.scope == 5 && decide (0 < b.arrived) && b.teams.any fun t =>
    k.flit (taskAt s b.task).world (teamById s t).core

/-- What is in flight on a path is lost (R451): requests, replies to LOCKs, refills, lines of copies and jobs, sleds and barrier flits. (Log 121: DEDUCED, unsafe.) -/
def loseRequests (s : State) (k : Cut) : State :=
  let ops := (s.ops.filter fun o => o.homes.any fun a => k.request (o.world s) o.core a).map (·.id)
  let locks := (s.waiters.filter fun x => x.granted &&
    k.request (launchOf s (s.warps.getD (warpAt s x.core x.slot) {})).world x.core x.word).map (·.id)
  let refills := s.warps.filterMap fun w => (refilling w).bind fun x =>
    if (spillPlace s w (refillBlock w)).any fun a => k.request (launchOf s w).world w.core a then some x.2 else none
  let lines := s.copies.flatMap fun c => (cutLines s k c).map fun l => PacketId.copyLine 0 c.id l
  let jobs := (List.range 512).flatMap fun i => (cutJob s k i).map fun l => PacketId.jobLine 0 (jobNumber s i) l
  let sleds := (s.sleds.filter fun x => k.ring (dieOf x.fromCore) (dieOf (sledTarget s x))).map fun x => PacketId.sled 0 x.id
  let flits := (s.barriers.filter (cutFlits s k)).map fun b => PacketId.barrierFlit 0 b.id
  { s with lost := s.lost ++ (ops ++ locks ++ refills).map (PacketId.request 0) ++ lines ++ jobs ++ sleds ++ flits }

/-- A Serac link goes down (R451): the unacknowledged packets of the flows that used it are lost. (Log 121: DEDUCED, unsafe.) -/
def linkDown (s : State) (k : Nat) : State :=
  let s := loseRequests s
    { request := fun world core a => podRemote s a && linkToHome s world core a == some k
      ring := fun _ _ => false
      flit := fun world core => flitLink s world core == some k }
  { s with pod := { s.pod with linkUp := s.pod.linkUp &&& ~~~(1#16 <<< k) } }

/-- A die-to-die port goes down (R452), with the packets whose route used its link; one that joins no other die has none (R11). (Log 121: DEDUCED, unsafe.) -/
def portDown (s : State) (die port : Nat) : State :=
  let h := (die, port)
  if !portJoined h then s
  else
    let uses := fun a b => pathUses s a b h (peerPort h)
    let s := loseRequests s
      { request := fun world core a => uses (dieOf core) (ringEnd s world core a)
        ring := uses
        flit := fun world core => (flitLink s world core).any fun k => uses (dieOf core) (linkDie k) }
    { s with downPorts := h :: s.downPorts.filter fun x => x != h }

/-- A die-to-die port moves to its spare lane; with a second lasting lane it goes down. -/
def spareLane (s : State) (port lane : Nat) : State :=
  if s.sparePorts.contains (port, lane) then s
  else if s.sparePorts.any fun x => x.1 == port then portDown s (port / 64) (port % 64)
  else { s with sparePorts := (port, lane) :: s.sparePorts }

/-- A port whose cipher fails: the four cores of a quad port; for a slice, die-to-die or Serac port the die. -/
def retirePort (s : State) (port : Nat) : State :=
  let die := port / 64
  let i := port % 64
  if i < 8 then (List.range 4).foldl (fun s k => addRetire s (coreEntry 13 (die * 32 + i * 4 + k))) s
  else if i < 28 then addRetire s { action := 5, sclass := 13, unit := die, lane := 0, applied := false, detail := i }
  else s

/-- The action of Table REL.4; `page`: the machine page that an HBM row lies in.  Way and entry retirement (classes 1, 2, 3 and 9)
changes no result; a Plough's (class 14) is R453's. -/
def actOn (s : State) (x : Site) (page : Nat) : State :=
  match x.structClass with
  | 0 => retirePage s page
  | 4 => retireLane s x.unit x.sub
  | 5 | 6 | 8 => useSpare s x
  | 7 => useArrayRow s x
  | 10 | 15 => addRetire s (coreEntry x.structClass x.unit)
  | 11 => spareLane s x.unit x.sub
  | 12 => linkDown s x.unit
  | 13 => retirePort s x.unit
  | 1 | 2 | 3 | 9 => if s.retiredWays.contains x then s else { s with retiredWays := x :: s.retiredWays }
  | _ => s

/-! ## Counting (R445) -/

/-- Powered time in nanoseconds. -/
def poweredTime (s : State) : Nat := s.now + s.poweredBase * 3600000000000

/-- The site table with an entry put first; a full table gives up the entry whose newest count is oldest. -/
def putSite (t : List SiteCount) (x : SiteCount) : List SiteCount :=
  let rest := t.filter fun y => y.site != x.site
  if rest.length < 4096 then x :: rest
  else
    match argMin (fun (y : SiteCount) => y.times.headD 0) rest with
    | none => x :: rest
    | some old => x :: rest.filter fun y => y.site != old.site

/-- Three counts within 24 hours. -/
def lasting (times : List Nat) : Bool := times.length == 3 && decide (times.headD 0 - times.getD 2 0 ≤ 86400000000000)

/-- An error in the lifetime records, by its structure class. -/
def countLife (l : Life) (cls : Nat) (corrected : Bool) : Life :=
  let up := fun (xs : List Nat) => xs.set cls (satAdd 0xFFFFFFFF (xs.getD cls 0) 1)
  if corrected then { l with corrected := up l.corrected } else { l with uncorrectable := up l.uncorrectable }

/-- An error counted against its site, once or, uncorrectable, three times; a lasting site is acted upon. -/
def countError (s : State) (x : Site) (corrected : Bool) (page : Nat) : State :=
  let before := ((s.sites.find? fun y => y.site == x).map (·.times)).getD []
  let times := (List.replicate (if corrected then 1 else 3) (poweredTime s) ++ before).take 3
  let s := { s with life := countLife s.life x.structClass corrected, sites := putSite s.sites { site := x, times := times } }
  if lasting times then actOn s x page else s

end Sys2Proof.Machine
end

