-- ==== Sys2Proof/Machine/Matrix.lean ====
section
/-! DEFINITION. The matrix array (R244 to R254, R330, R394, R395, R428): claims, tile instructions at issue, and the
array's queue performing them. -/

namespace Sys2Proof.Machine

open Sys2Proof

/-! ## Arrays and claims -/

/-- The native K-width of a slot (R245). -/
def nativeKw (t : Slot) : Nat := 1024 / codeBits t.fmt

/-- The half a team claims: the whole array, or the lower free half. -/
def claimHalf (s : State) (t : Team) : Nat :=
  if (taskAt s t.task).launch.half then (if s.arrays.any fun a => a.core == t.core && a.half == 0 then 1 else 0) else 2

/-- A team's claim on its array, half or pair, with banks as at team start (R38, R245, R254). -/
def claimArray (s : State) (t : Team) : State :=
  let a : Array := { core := t.core, half := claimHalf s t, team := t.id }
  let more : List Array := if (taskAt s t.task).launch.pair then [{ a with core := t.core + 1, follower := true }] else []
  { onTeam s t.id (fun t => { t with half := claimHalf s t }) with arrays := s.arrays ++ a :: more }

/-- The follower's array of a pair. -/
def followerOf (s : State) (team : Nat) : Array := (s.arrays.find? fun a => a.team == team && a.follower).getD {}

/-- An array changed, on one side. -/
def onArray (s : State) (team : Nat) (follower : Bool) (g : Array → Array) : State :=
  { s with arrays := updateFirst (fun a => a.team == team && a.follower == follower) g s.arrays }

/-- The shadow of the bank that the queue will leave current (R394); a team without a claim starts with the banks of
team start. -/
def shadowOf (s : State) (follower : Bool) : Slot × Nat :=
  match s.arrays.find? fun a => a.team == (me s).team && a.follower == follower with
  | some a => (a.shadowSlot, a.shadowKw)
  | none => ({}, 64)

/-! ## Issue -/

/-- Whether the slots of a TMMA, TMMAB or TMMAP suit each other (R245). -/
def slotsAgree (a b : Slot) (kw : Nat) : Bool := a.isInt == b.isInt && kw == nativeKw a && a.fmt != 7 && b.fmt != 7

/-- A slot of the issuing warp's launch. -/
def tileSlot (s : State) (n : BitVec 3) : Slot := (launchOf s (me s)).slots.getD n.toNat {}

/-- Code 0x052 of a multiplying instruction. -/
def mmaCauses (s : State) (n : BitVec 3) : List Cause :=
  let a := tileSlot s n
  let b := shadowOf s false
  if slotsAgree a b.1 b.2 then []
  else [{ cls := 2, code := 0x052, info := BitVec.ofNat 32 (n.toNat + a.fmt * 16 + b.1.fmt * 256 + b.2 / 4 * 65536) }]

/-- The entry of an instruction in the queue. -/
def tileOp (s : State) (k : TileKind) (hold : Option Nat) : TileOp :=
  { wid := (me s).wid, kind := k, pc := (fr s).pc, instr := s.cur.word, frag := (fr s).frag, hold := hold }

/-- An instruction counted in CNT.TL and put in the queue, its destinations held. -/
def pushTile (k : TileKind) (dests : List Nat) (s : State) : State :=
  let w := me s
  let op := tileOp s k (if dests.isEmpty then none else some s.nextId)
  let h : List Hold := if dests.isEmpty then [] else [{ id := s.nextId, regs := dests }]
  let s := onArray { s with nextId := s.nextId + 1 } w.team false fun a => { a with queue := a.queue ++ [op] }
  setMe s { dirtied (w.onCtr .tl (· + 1)) dests with holds := w.holds ++ h }

/-- A tile instruction: it waits for CNT.TL, its claim and the queue (R244, R254), and then issues; `before` is what it
does at its issue beside entering the queue. -/
def issueTile (causes : List Cause) (before : State → State) (k : TileKind) (dests : List Nat) (s : State) : Out :=
  let w := me s
  let go := fun (s : State) => advance (pushTile k dests (before s))
  if !holds s w (.counter .tl) then .next (waitFor (.counter .tl) s)
  else
    match arrayOf s w.team with
    | none =>
      if claimFree s (teamOf s w) then guarded causes (go (claimArray s (teamOf s w))) s else .next (waitFor .claim s)
    | some a =>
      if a.releasing then .next (waitFor .claim s)
      else if 8 ≤ a.queue.length then .next (waitFor .arrayQueue s)
      else guarded causes (go s) s

/-- The sides whose handles a TBLD uses (R330). (Log 52: DEDUCED, unsafe.) -/
def loadSides (pair : Bool) : List Bool := if pair then [false, true] else [false]

/-- The shadows after a TBLD (R394). -/
def shadowLoad (s : State) (t : Slot) (wide : Bool) (sides : List Bool) : State :=
  sides.foldl (fun s f => onArray s (me s).team f fun a =>
    { a with shadowSlot := t, shadowKw := if wide then 64 else nativeKw t }) s

/-- Log 168: DEDUCED, unsafe. -/
def execTbld (s1 : BitVec 8) (b : BitVec 3) (k : BitVec 2) (p w : BitVec 1) (s : State) : Out :=
  let t := tileSlot s b
  let v := scalarAt (me s) (fr s) s1.toNat
  let sides := loadSides (p == 1#1)
  let n := namedHandle s v (k == 1#2)
  let byHandle := k != 2#2
  let causes := scalarCauses s [s1.toNat] [s1.toNat] ++
    (if t.fmt == 7 then [{ cls := 2, code := 0x052, info := BitVec.ofNat 32 (b.toNat + t.fmt * 256) }] else []) ++
    pairCauses s (p == 1#1) ++ (if byHandle then n.orEvent (eventCauses s n.h 2 sides .full n.phase) else [])
  let before := fun (s : State) =>
    let s := shadowLoad s t (w == 1#1) sides
    if byHandle then onHandles s n.h sides fun x => { x with state := .draining } else s
  issueTile causes before
    (.load (if byHandle then some n.h else none) v.toNat b.toNat (p == 1#1) (w == 1#1)) [] s

/-- The causes that TMMA, TMMAB and TMMAP share. -/
def multiplyCauses (s : State) (c a : BitVec 8) (n : BitVec 3) : List Cause :=
  scalarCauses s [c.toNat] (c.toNat :: regRun a.toNat 16) ++ mmaCauses s n

/-- The accumulator operand. -/
def accOperand (s : State) (c : BitVec 8) : Nat := (scalarAt (me s) (fr s) c.toNat).toNat

def execTmma (c a : BitVec 8) (s1 : BitVec 3) (r z : BitVec 1) (s : State) : Out :=
  issueTile (multiplyCauses s c a s1) id (.mma (accOperand s c) a.toNat s1.toNat (r == 1#1) (z == 1#1)) [] s

def execTmmab (c a : BitVec 8) (s1 : BitVec 3) (r z : BitVec 1) (s : State) : Out :=
  issueTile (multiplyCauses s c a s1) id (.mmaB (accOperand s c) a.toNat s1.toNat (r == 1#1) (z == 1#1)) [] s

/-- Code 0x053 and 0x311 of TMMAP (R395, R428). -/
def tmmapCauses (s : State) : List Cause :=
  let l := launchOf s (me s)
  let x := shadowOf s false
  let y := shadowOf s true
  let info := bit (!l.pair) + 2 * bit ((me s).core % 2 == 1) + 4 * bit (l.pair && !(x.1.fmt == y.1.fmt && x.2 == y.2))
  if info != 0 then [{ cls := 2, code := 0x053, info := BitVec.ofNat 32 info }]
  else if (teamOf s (me s)).pairBroken then
    [{ cls := 4, code := 0x311, info := BitVec.ofNat 32 ((fr s).pc.toNat / 4) }]
  else []

def execTmmap (c a : BitVec 8) (s1 : BitVec 3) (r z : BitVec 1) (s : State) : Out :=
  issueTile (multiplyCauses s c a s1 ++ tmmapCauses s) id (.mmaPair (accOperand s c) a.toNat s1.toNat (r == 1#1) (z == 1#1)) [] s

def execTaccz (c : BitVec 8) (n : BitVec 4) (p : BitVec 1) (s : State) : Out :=
  issueTile (scalarCauses s [c.toNat] [c.toNat] ++ pairCauses s (p == 1#1)) id
    (.zero (accOperand s c) (n.toNat + 1) (p == 1#1)) [] s

/-- The word names D and D + 1 and both are held, also under a half launch, which writes D only (R253, R390). -/
def execTaccld (d c : BitVec 8) (m : BitVec 4) (p : BitVec 1) (s : State) : Out :=
  let w := me s
  let f := fr s
  let dests := regRun d.toNat 2
  issueTile (scalarCauses s [c.toNat] (dests ++ [c.toNat]) ++ pairCauses s (p == 1#1)) id
    (.readAcc d.toNat (accOperand s c) m.toNat (p == 1#1) f.exec (if effZ none w then f.frag &&& ~~~f.exec else 0#32)) dests s

/-- Log 168: DEDUCED, unsafe. -/
def execTaccst (s1 c : BitVec 8) (k : BitVec 2) (p : BitVec 1) (s : State) : Out :=
  let v := scalarAt (me s) (fr s) s1.toNat
  let n := namedHandle s v (k == 2#2)
  let side := p == 1#1
  let x := handleOf s (me s).team n.h side
  let small := decide ((x.size + 1) * 128 < tileBytes (launchOf s (me s)))
  let byHandle := k != 0#2
  let causes := scalarCauses s [s1.toNat, c.toNat] [s1.toNat, c.toNat] ++ pairCauses s side ++
    (if byHandle then n.orEvent (eventCauses s n.h 3 [side] .free none ++
      (if small then [{ cls := 2, code := 0x071, info := if k == 2#2 then v else BitVec.ofNat 32 n.h }] else []))
    else [])
  issueTile causes id
    (.store (if byHandle then some n.h else none) (if byHandle then x.base * 128 else v.toNat) (accOperand s c) side) [] s

/-- TREL: without a claim it only takes its issue slot (R254). -/
def releaseTile (arr : Bool) (s : State) : Out :=
  match arrayOf s (me s).team with
  | none => .next (advance s)
  | some _ => issueTile [] (fun s => if arr then onArray s (me s).team false fun a => { a with releasing := true } else s) (.release arr) [] s

def execTrel (s : State) : Out := releaseTile false s
def execTrelArray (s : State) : Out := releaseTile true s

/-! ## The banks (R246) -/

/-- A code of a column of bytes: its bits and whether its word is poisoned. -/
def codeAt (m : Memory) (a width k : Nat) : BitVec 16 × Bool :=
  let b := a + k * width / 8
  (BitVec.ofNat 16 (bitsOf (ofBytes (m.read b 2)) (k * width % 8) width), m.bad b)

/-- A tile read from a scratchpad: N columns, stored column-major with K contiguous. -/
def readTile (m : Memory) (a cols width kw : Nat) : List (List (BitVec 16 × Bool)) :=
  (List.range cols).map fun n => (List.range kw).map fun k => codeAt m (a + n * (kw * width / 8)) width k

/-- The bank of an array that is current, and the one that is not replaced and made current. -/
def Array.bank (a : Array) : Bank := if a.current then a.bank1 else a.bank0

def Array.loadBank (a : Array) (b : Bank) : Array :=
  if a.current then { a with bank0 := b, current := false } else { a with bank1 := b, current := true }

/-- The scratchpad offset of a TBLD's tile on a side. -/
def loadOff (s : State) (team : Nat) (handle : Option Nat) (off : Nat) (follower : Bool) : Nat :=
  match handle with
  | some h => (handleOf s team h follower).base * 128
  | none => off

/-- A TBLD performed on one side: the bank loaded, the handle freed. -/
def loadSide (s : State) (a : Array) (handle : Option Nat) (off slot : Nat) (wide follower bad : Bool) : State :=
  let t := teamById s a.team
  let l := (taskAt s t.task).launch
  let x := l.slots.getD slot {}
  let kw := if wide then 64 else nativeKw x
  let at' := scrAddr (sideCore a.core follower) ((t.scrBase + loadOff s a.team handle off follower) % 0x400000)
  let codes := readTile s.mem at' (tileCols l) (codeBits x.fmt) kw
  let codes := if bad then codes.map fun r => r.map fun c => (c.1, true) else codes
  let s := onArray s a.team follower fun y => y.loadBank { slot := x, wide := wide, kw := kw, codes := codes }
  match handle with
  | some h => onHandle s a.team h follower fun y => { y with state := .free, phase := !y.phase }
  | none => s

/-! ## Products (R247 to R250) -/

/-- An operand of a product. -/
structure Elem where
  code : Nat
  bad : Bool

/-- Element `k` of a row of A in one register, from lane `lo` (R247). -/
def aElem (r : Row) (width lo k : Nat) : Elem :=
  let per := 32 / width
  let x := laneAt r (lo + k / per)
  { code := bitsOf x.val.toNat (width * (k % per)) width, bad := x.poison }

/-- Cell `k` of row `n` of a bank. -/
def bElem (b : Bank) (n k : Nat) : Elem :=
  let x := (b.codes.getD n []).getD k (0, false)
  { code := x.1.toNat, bad := x.2 }

/-- One accumulator element after a K-step (R155, R156); poison marks it (R373). -/
def kElem (sa sb : Slot) (c : Lane) (xs : List (Elem × Elem)) : Lane :=
  if c.poison || xs.any fun x => x.1.bad || x.2.bad then poisoned
  else if sa.isInt then
    let sum := xs.foldl (fun a x => a + signExt x.1.code (codeBits sa.fmt) * signExt x.2.code (codeBits sb.fmt)) c.val.toInt
    clean (wordOf sum)
  else
    let ps := xs.map fun x => (sa.decode x.1.code).mul (sb.decode x.2.code)
    let nans := xs.flatMap fun x => (sa.nan32 x.1.code).toList ++ (sb.nan32 x.2.code).toList
    clean (BitVec.ofNat 32 (kStep c.val.toNat nans (ps.map (·.1)) (ps.any (·.2))))

/-- A poisoned row of A or column of B touches every element it takes part in: the operands with that mark spread. -/
def accStep (m : Memory) (a : Nat) (zf : Bool) (sa sb : Slot) (xs : List (Elem × Elem)) : Memory :=
  let v := kElem sa sb (if zf then {} else m.lane a) xs
  m.write a (toBytes 4 v.val.toNat) v.poison

/-- TMMA on one array: A's sixteen rows against the bank, into the tile at machine address `acc` (R248). -/
def mmaTile (m : Memory) (acc cols : Nat) (zf : Bool) (sa : Slot) (b : Bank) (rows : List Row) : Memory :=
  (List.range 16).foldl (fun m i => (List.range cols).foldl (fun m n =>
    accStep m (acc + 4 * cols * i + 4 * n) zf sa b.slot
      ((List.range b.kw).map fun k => (aElem (rows.getD i zeroRow) (codeBits sa.fmt) 0 k, bElem b n k))) m) m

/-- TMMAB: sixteen products of 4 rows by 16 columns, eight under a half launch (R250). -/
def mmaBatch (m : Memory) (acc : Nat) (half zf : Bool) (sa : Slot) (b : Bank) (rows : List Row) : Memory :=
  let kj := b.kw / 4
  (((List.range 16).filter fun j => !half || decide (j % 4 < 2))).foldl (fun m j =>
    let base := acc + 256 * (if half then 2 * (j / 4) + j % 4 else j)
    (List.range 4).foldl (fun m r => (List.range 16).foldl (fun m c =>
      accStep m (base + 64 * r + 4 * c) zf sa b.slot
        ((List.range kj).map fun k =>
          (aElem (rows.getD j zeroRow) (codeBits sa.fmt) (8 * r) k, bElem b (16 * (j % 4) + c) (kj * (j / 4) + k)))) m) m) m

/-- The A operand of a multiplying instruction: the latch's where it serves, or the registers' (R249). -/
def aRows (s : State) (a : Array) (wid reg slot : Nat) (reuse : Bool) : List Row :=
  let fresh := (regRun reg 16).map (regOf (s.warps.getD (warpOfTeam s a.team wid) {}))
  match a.latch with
  | some x => if reuse && x.wid == wid && x.a == reg && x.slot == slot then x.rows else fresh
  | none => fresh

/-- The latch after it. -/
def latchAfter (wid reg slot : Nat) (reuse : Bool) (rows : List Row) : Option Latch :=
  if reuse then some { wid := wid, a := reg, slot := slot, rows := rows } else none

/-! ## Rows struck by an error (R427) -/

/-- The elements, as byte offsets in a tile, that a struck row of a whole product touches: a row of A, or a column of B. -/
def struckTile (cols : Nat) (x : Struck) : List Nat :=
  if x.latch then (if x.row < 16 then (List.range cols).map fun n => 4 * cols * x.row + 4 * n else [])
  else if x.row < cols then (List.range 16).map fun m => 4 * cols * m + 4 * x.row
  else []

/-- The elements that it touches of sixteen products of 4 rows by 16 columns (R250). -/
def struckBatch (half : Bool) (x : Struck) : List Nat :=
  (((List.range 16).filter fun j => !half || decide (j % 4 < 2))).flatMap fun j =>
    let base := 256 * (if half then 2 * (j / 4) + j % 4 else j)
    if x.latch then (if x.row == j then (List.range 64).map fun e => base + 4 * e else [])
    else if x.row / 16 == j % 4 then (List.range 4).map fun r => base + 64 * r + 4 * (x.row % 16)
    else []

/-- Elements of a tile made poison. -/
def strike (m : Memory) (acc : Nat) (offs : List Nat) : Memory :=
  offs.foldl (fun m o => m.write (acc + o) (toBytes 4 poisoned.val.toNat) true) m

/-! ## The queue's head performed -/

/-- Words of an accumulator or scratchpad range poisoned (R428). -/
def poisonRange (s : State) (a n : Nat) : State := { s with mem := s.mem.markAll true (wordsTouched a n) }

/-- One row of a tile as registers: columns 0 to 31 and 32 to 63 (R253). -/
def accRow (s : State) (a cols m : Nat) (bad : Bool) (i : Nat) : Row :=
  rowOf fun l => if bad then poisoned else s.mem.lane (a + 4 * cols * m + 4 * (32 * i + l))

/-- Bytes moved word by word with their poison. -/
def moveWords (s : State) (src dst n : Nat) : State :=
  { s with mem := (List.range (n / 4)).foldl (fun m i =>
      let x := s.mem.lane (src + 4 * i)
      m.write (dst + 4 * i) (toBytes 4 x.val.toNat) x.poison) s.mem }

/-- A tile instruction performed by its array; `lost`: the follower did not retire, and its part is poisoned (R428), while its entry of
a handle is freed all the same. (Log 52: DEDUCED, unsafe.) -/
def performTile (s : State) (a : Array) (o : TileOp) (lost : Bool) : State :=
  let l := (taskAt s (teamById s a.team).task).launch
  let cols := tileCols l
  let n := tileBytes l
  match o.kind with
  | .load h off slot pair wide =>
    let s := loadSide s a h off slot wide false false
    if pair then loadSide s a h off slot wide true lost else s
  | .mma t reg slot reuse zf =>
    let rows := aRows s a o.wid reg slot reuse
    let s := onArray s a.team false fun y => { y with latch := latchAfter o.wid reg slot reuse rows }
    let mem := mmaTile s.mem (accPlace s a false t) cols zf (l.slots.getD slot {}) a.bank rows
    countPerf { s with mem := strike mem (accPlace s a false t) (a.struck.flatMap (struckTile cols)) } a.team 6 1
  | .mmaB t reg slot reuse zf =>
    let rows := aRows s a o.wid reg slot reuse
    let s := onArray s a.team false fun y => { y with latch := latchAfter o.wid reg slot reuse rows }
    let mem := mmaBatch s.mem (accPlace s a false t) l.half zf (l.slots.getD slot {}) a.bank rows
    countPerf { s with mem := strike mem (accPlace s a false t) (a.struck.flatMap (struckBatch l.half)) } a.team 6 1
  | .mmaPair t reg slot reuse zf =>
    let rows := aRows s a o.wid reg slot reuse
    let s := onArray s a.team false fun y => { y with latch := latchAfter o.wid reg slot reuse rows }
    let b := followerOf s a.team
    let product := fun (m : Memory) (x : Array) (acc : Nat) =>
      strike (mmaTile m acc 64 zf (l.slots.getD slot {}) x.bank rows) acc (x.struck.flatMap (struckTile 64))
    let s := { s with mem := product s.mem a (accPlace s a false t) }
    let s := if lost then poisonRange s (accPlace s a true t) 4096
      else { s with mem := product s.mem b (accPlace s a true t) }
    countPerf s a.team 6 1
  | .zero t k pair =>
    let s := { s with mem := s.mem.clear (accPlace s a false t) (k * n) }
    if !pair then s
    else if lost then poisonRange s (accPlace s a true t) (k * n)
    else { s with mem := s.mem.clear (accPlace s a true t) (k * n) }
  | .readAcc d t m pair exec zeroed =>
    let ds := (List.range (cols / 32)).map fun i => (d + i, accRow s (accPlace s a pair t) cols m lost i)
    onWarp s (warpOfTeam s a.team o.wid) fun w =>
      { (if w.halted then w else dirtied (writeRegs w exec zeroed ds) (ds.map (·.1))) with
        holds := w.holds.filter fun h => some h.id != o.hold }
  | .store h off t pair =>
    let place := scrAddr (sideCore a.core pair) (((teamById s a.team).scrBase + off) % 0x400000)
    let s := if lost then poisonRange s place n else moveWords s (accPlace s a pair t) place n
    match h with
    | some x => onHandle s a.team x pair fun y => if y.state == .free then { y with state := .full } else y
    | none => s
  | .release arr =>
    let s := onArray s a.team false fun y => { y with latch := none }
    if arr then { s with arrays := s.arrays.filter fun y => y.team != a.team } else s

/-- The head of a queue retires: performed, counted, and off the queue; what struck it strikes no other. -/
def retireTile (s : State) (a : Array) (o : TileOp) (lost : Bool) : State :=
  let s := onArray s a.team false fun y => { y with queue := y.queue.drop 1 }
  let s := performTile s a o lost
  let s := { s with arrays := s.arrays.map fun y => if y.team == a.team then { y with struck := [] } else y }
  let s := countPerf s a.team 5 1
  onWarp s (warpOfTeam s a.team o.wid) fun w => w.onCtr .tl (· - 1)

/-- The array of a core and half that a team holds as its leader. -/
def arrayAt (s : State) (core half : Nat) : Option Array :=
  s.arrays.find? fun a => a.core == core && a.half == half && !a.follower

/-- Whether an entry is a TBLD. -/
def TileOp.isLoad (o : TileOp) : Bool :=
  match o.kind with
  | .load .. => true
  | _ => false

/-- Whether an entry needs the follower's array (R428). -/
def TileOp.isPair (o : TileOp) : Bool :=
  match o.kind with
  | .load _ _ _ pair _ => pair
  | .mmaPair .. => true
  | .zero _ _ pair => pair
  | .readAcc _ _ _ pair _ _ => pair
  | .store _ _ _ pair => pair
  | _ => false

/-- The head of an array's queue, where it is of a kind. -/
def headTile (s : State) (core half : Nat) (f : TileOp → Bool) : Option (Array × TileOp) :=
  match arrayAt s core half with
  | none => none
  | some a =>
    match a.queue with
    | [] => none
    | o :: _ => if f o then some (a, o) else none

/-- TBLD_LATCH (R246): a TBLD at the head loads the non-current bank, which becomes current, and frees its handle. -/
def execTbldLatch (core half : Nat) (s : State) : Out :=
  match headTile s core half TileOp.isLoad with
  | none => .next s
  | some (a, o) => .next (retireTile s a o false)

/-- TILE_RETIRE (R244): any other tile instruction at the head acts and retires. -/
def execTileRetire (core half : Nat) (s : State) : Out :=
  match headTile s core half fun o => !o.isLoad with
  | none => .next s
  | some (a, o) => .next (retireTile s a o false)

/-- TMMAP_FOLLOWER_TIMEOUT (R428): the leader's part stands, the follower's is poisoned, the pair is broken and code
0x310 is left pending. (Log 52: DEDUCED, unsafe.) -/
def execTmmapFollowerTimeout (core : Nat) (s : State) : Out :=
  match headTile s core 2 TileOp.isPair with
  | none => .next s
  | some (a, o) =>
    let s := onTeam (retireTile s a o true) a.team fun t => { t with pairBroken := true }
    let s := countError s { structClass := 7, unit := core + 1, sub := 0, row := 0 } true 0
    .next (leavePending s a.team o.wid
      { cls := 4, code := 0x310, res := true, pois := false, frag := o.frag, pc := o.pc, instr := o.instr, ctr := none
        info := some (BitVec.ofNat 32 (o.pc.toNat / 4)) })

end Sys2Proof.Machine
end

