-- ==== Sys2Proof/Machine/Room.lean ====
section
/-! DEFINITION. Where a team fits: the needs of R292, the eligible cores (R292, R297, R345, R365), the choice among them
(R293), and a team's start (R26, R27, R36). -/

namespace Sys2Proof.Machine

open Sys2Proof

/-! ## What a core holds -/

/-- The launch of a team. -/
def Team.launch (s : State) (t : Team) : Launch := (taskAt s t.task).launch

/-- Whether a team holds resources of a core: as its own, or as the follower's side of a pair (R252). -/
def Team.holdsOn (s : State) (core : Nat) (t : Team) : Bool :=
  t.core == core || ((t.launch s).pair && t.core + 1 == core)

/-- The teams resident on a core that hold something of it. -/
def teamsOn (s : State) (core : Nat) : List Team := s.teams.filter fun t => !t.ended && t.holdsOn s core

/-- The teams placed on a core itself. -/
def ownTeams (s : State) (core : Nat) : List Team := s.teams.filter fun t => !t.ended && t.core == core

/-- The warp-registers that a team of a launch takes (R292). -/
def Launch.regNeed (l : Launch) : Nat := l.warps * l.regGranules

/-- Granules of 4 KiB of scratchpad and of accumulators (R292). -/
def Launch.scrGranules (l : Launch) : Nat := ceilDiv l.scratch 4096
def Launch.accGranules (l : Launch) : Nat := ceilDiv l.accb 4096

/-- Free warp-registers of a core, of 2,048. -/
def freeRegs (s : State) (core : Nat) : Nat := 2048 - total ((ownTeams s core).map fun t => (t.launch s).regNeed)

/-- Free warp slots of a core, of 64. -/
def freeWarps (s : State) (core : Nat) : Nat := 64 - total ((ownTeams s core).map fun t => (t.launch s).warps)

/-- Free handles of a core, of 64; a pair's follower side takes as many (R252). -/
def freeHandles (s : State) (core : Nat) : Nat := 64 - total ((teamsOn s core).map fun t => (t.launch s).handles)

/-- Free team barriers of a core, of 16. -/
def freeBars (s : State) (core : Nat) : Nat := 16 - total ((ownTeams s core).map fun t => (t.launch s).bCore)

/-- Free granules of a core's scratchpad, of 128, and of its accumulator store, of 1,024; a pair's follower side takes as many (R252). -/
def freeScr (s : State) (core : Nat) : Nat := 128 - total ((teamsOn s core).map fun t => (t.launch s).scrGranules)
def freeAcc (s : State) (core : Nat) : Nat := 1024 - total ((teamsOn s core).map fun t => (t.launch s).accGranules)

/-- Whether granules `[lo, lo + n)` meet none of some ranges. -/
def clear (used : List (Nat × Nat)) (lo n : Nat) : Bool :=
  used.all fun u => decide (u.1 + u.2 ≤ lo) || decide (lo + n ≤ u.1)

/-- The first free run of `n` granules among `size`. (Log 57: DESIGN CHOICE, unsafe.) -/
def firstFit (used : List (Nat × Nat)) (n size : Nat) : Option Nat :=
  if n == 0 then some 0 else if size < n then none else leastFrom (fun lo => clear used lo n) 0 (size + 1 - n)

/-- The granules of scratchpad and of accumulators in use on some cores. -/
def usedScr (s : State) (cores : List Nat) : List (Nat × Nat) :=
  cores.flatMap fun c => (teamsOn s c).map fun t => (t.scrBase / 4096, (t.launch s).scrGranules)
def usedAcc (s : State) (cores : List Nat) : List (Nat × Nat) :=
  cores.flatMap fun c => (teamsOn s c).map fun t => (t.accBase / 4096, (t.launch s).accGranules)

/-- The granule of registers in use on a core. -/
def usedRegs (s : State) (core : Nat) : List (Nat × Nat) :=
  (ownTeams s core).map fun t => (t.regBase, (t.launch s).regNeed / 8)

/-- The cores that a team of a launch takes when its leader is `core`. -/
def coresOf (l : Launch) (core : Nat) : List Nat := if l.pair then [core, core + 1] else [core]

/-! ## Eligibility -/

/-- Whether a core lies in the range of a virtual device (R297); a range past core 1,023 ends there. -/
def inRange (s : State) (vdev core : Nat) : Bool :=
  let v := s.vdevs.getD vdev {}
  decide (v.core0 ≤ core) && decide (core < v.core0 + v.ncore) && decide (core < 1024)

/-- Whether a core's pass class matches CLASS (Table SCHED.3). -/
def classFits (s : State) (l : Launch) (core : Nat) : Bool :=
  l.passClass == 0 || (coreCfg s core).passes == l.passClass + 1

/-- Whether a core could serve teams of a launch at all: PRESENT, in the range, of the class. -/
def coreSuits (s : State) (vdev : Nat) (l : Launch) (core : Nat) : Bool :=
  (coreCfg s core).present && inRange s vdev core && classFits s l core

/-- The worlds of the teams on a core. -/
def worldsOn (s : State) (core : Nat) : List Nat := ((teamsOn s core).map fun u => (taskAt s u.task).world).eraseDups

/-- Whether the teams on a core leave room for one of a world: one world per core, but for the two halves of an array, each of which
may serve a half launch of a world of its own where both have XHALF = 1 (R345). -/
def worldFits (s : State) (k : Task) (core : Nat) : Bool :=
  let halfOf := fun (k : Task) => k.launch.half && decide (0 < k.launch.nMat) && (s.worlds.getD k.world {}).xhalf
  (worldsOn s core).all (fun w => w == k.world) ||
    (halfOf k && (teamsOn s core).all (fun u => halfOf (taskAt s u.task)) &&
      decide ((k.world :: worldsOn s core).eraseDups.length ≤ 2))

/-- Whether a core's array has what a launch claims at placement (R38, R254). -/
def arrayFits (s : State) (l : Launch) (core : Nat) : Bool :=
  l.nMat == 0 || claimFree { s with tasks := s.tasks ++ [{ body := .launch l }] } { task := s.tasks.length, core := core }

/-- Whether one core of a team's cores may take it: serving (R365), not pinned (R307), of its world. -/
def coreOpen (s : State) (k : Task) (core : Nat) : Bool :=
  coreSuits s k.vdev k.launch core && s.pod.dies.getLsbD (dieOf core) && (pinOf s core).isNone && worldFits s k core

/-- Whether a core is eligible for a team of a task (R292): it holds every need free, on both cores of a
pair (R252); split-table entries are none of the needs. (Log 166: DESIGN CHOICE, unsafe.) -/
def eligible (s : State) (k : Task) (core : Nat) : Bool :=
  let l := k.launch
  let cs := coresOf l core
  (!l.pair || core % 2 == 0) && cs.all (coreOpen s k) && decide (l.regNeed ≤ freeRegs s core) &&
    cs.all (fun c => decide (l.scrGranules ≤ freeScr s c) && decide (l.accGranules ≤ freeAcc s c)) &&
    decide (l.warps ≤ freeWarps s core) && decide ((ownTeams s core).length < 16) &&
    cs.all (fun c => decide (l.handles ≤ freeHandles s c)) && decide (l.bCore ≤ freeBars s core) && arrayFits s l core

/-- Every core of the package. -/
def allCores : List Nat := List.range 1024

/-- The eligible core with the most free warp-registers, ties to the lowest (R293), among those that satisfy `f`. -/
def bestCore (s : State) (k : Task) (f : Nat → Bool) : Option Nat :=
  argMin (fun c => 2048 - freeRegs s c) (allCores.filter fun c => f c && eligible s k c)

/-! ## A team's start -/

/-- The role of warp `i` of a team: vector warps first, then copy, then matrix. -/
def roleAt (l : Launch) (i : Nat) : Role := if i < l.nVec then .vector else if i < l.nVec + l.nCopy then .copy else .matrix

/-- The lowest free warp slots of a core. -/
def freeSlots (s : State) (core : Nat) : List Nat :=
  (List.range 64).filter fun n => !s.warps.any fun w => w.core == core && w.slot == n

/-- The start value of v254:v255: the top of the warp's private instance of region m15 (R26, R99). -/
def stackTop (l : Launch) (t : Team) (wid : Nat) : Nat :=
  if (l.region 15).cls == 2 && (l.region 15).rights != 0 then regionBase l t wid 15 + (l.region 15).len else 0

/-- A warp's registers at its start (Table EXEC.1). -/
def startRegs (top : Nat) : List Row :=
  List.replicate 254 zeroRow ++ [splat (BitVec.ofNat 32 top), splat (BitVec.ofNat 32 (top / 2 ^ 32))]

/-- A warp as it begins a task (Table EXEC.1). (Log 14: DESIGN CHOICE, safe.) -/
def freshWarp (s : State) (t : Team) (wid slot : Nat) : Warp :=
  let k := taskAt s t.task
  let l := k.launch
  let pc := (entryCode s k.world l.entry (roleCode (roleAt l wid))).getD 0
  { core := t.core, slot := slot, team := t.id, wid := wid, role := roleAt l wid
    frags := [{ pc := BitVec.ofNat 57 pc }], spill := Config.spillBase t.task t.index wid
    regs := startRegs (stackTop l t wid), tokens := List.replicate 8 {} }

/-- A team's storage set to zero on its cores (R27). -/
def zeroStorage (s : State) (t : Team) : State :=
  let l := t.launch s
  { s with mem := (coresOf l t.core).foldl (fun m c =>
      (m.clear (scrAddr c t.scrBase) (4096 * l.scrGranules)).clear (accAddr c t.accBase) (4096 * l.accGranules)) s.mem }

/-- The coordinates of a linear index (R288). -/
def Launch.coords (l : Launch) (i : Nat) : Nat × Nat × Nat :=
  (i % l.gridX, i / l.gridX % l.gridY, i / (l.gridX * l.gridY))

/-- Team barriers allocated to a team (R225). -/
def teamBarriers (s : State) (t : Team) : State :=
  let l := t.launch s
  { s with
    barriers := s.barriers ++ (List.range l.bCore).map fun n =>
      { id := s.nextId + n, scope := 1, index := n, task := t.task, teams := [t.id], unit := some t.core, expect := l.warps }
    nextId := s.nextId + l.bCore }

/-- A core's L1 emptied, its dirty bytes written back first (R272, R279). (Log 58: DESIGN CHOICE, unsafe.) -/
def flushCore (s : State) (core : Nat) : State :=
  let s := writeBack s fun x => x.core == core
  { s with l1 := s.l1.filter fun x => x.core != core }

/-- The teams that hold storage on the two cores of a pair, in the order in which it is packed: those of pair launches, whose places are the
same on both, and then each core's own. -/
def packOrder (s : State) (lead : Nat) : List Team :=
  (teamsOn s lead).filter (fun t => (t.launch s).pair) ++
    [lead, lead + 1].flatMap fun c => (ownTeams s c).filter fun t => !(t.launch s).pair

/-- A team with its storage packed behind that of the teams before it. -/
def packed (s : State) (order : List Team) (t : Team) : Team :=
  let before := (order.takeWhile fun u => u.id != t.id).filter fun u => u.holdsOn s t.core
  if order.all fun u => u.id != t.id then t
  else
    { t with
      regBase := total ((before.filter fun u => u.core == t.core).map fun u => (u.launch s).regNeed / 8)
      scrBase := 4096 * total (before.map fun u => (u.launch s).scrGranules)
      accBase := 4096 * total (before.map fun u => (u.launch s).accGranules) }

/-- The storage of the teams on the two cores of a pair moved together, contents with it: no program sees where its allocation lies (R58,
R59). (Log 57: DESIGN CHOICE, unsafe.) -/
def packCores (s : State) (lead : Nat) : State :=
  let order := packOrder s lead
  let mem := order.foldl (fun m t => (coresOf (t.launch s) t.core).foldl (fun m c =>
    let u := packed s order t
    (m.paste s.mem (scrAddr c t.scrBase) (4096 * (t.launch s).scrGranules) (scrAddr c u.scrBase)).paste s.mem
      (accAddr c t.accBase) (4096 * (t.launch s).accGranules) (accAddr c u.accBase)) m) s.mem
  { s with mem := mem, teams := s.teams.map (packed s order) }

/-- Whether a core has one run free of each kind of storage that a launch needs, at one place on both cores of a pair. -/
def runsFree (s : State) (l : Launch) (core : Nat) : Bool :=
  (firstFit (usedRegs s core) (l.regNeed / 8) 256).isSome && (firstFit (usedScr s (coresOf l core)) l.scrGranules 128).isSome &&
    (firstFit (usedAcc s (coresOf l core)) l.accGranules 1024).isSome

/-- A core that holds a launch's needs free, with each of them in one run. -/
def makeRoom (s : State) (l : Launch) (core : Nat) : State := if runsFree s l core then s else packCores s (core - core % 2)

/-- A team's allocations on a core (R292), first free granules. (Log 57: DESIGN CHOICE, unsafe.) -/
def allocate (s : State) (l : Launch) (core : Nat) (t : Team) : Team :=
  let cs := coresOf l core
  { t with
    core := core
    regBase := (firstFit (usedRegs s core) (l.regNeed / 8) 256).getD 0
    scrBase := 4096 * (firstFit (usedScr s cs) l.scrGranules 128).getD 0
    accBase := 4096 * (firstFit (usedAcc s cs) l.accGranules 1024).getD 0
    since := s.now }

/-- A team of a task begun on a core: its storage zeroed, its barriers and array allocated, its warps started; the task's first team
finds no line of the core's L1 left: its edges carry the host's earlier writes to all its regions, the writes released by its LAUNCH,
and those of the tasks it waited for (R273, R279, R281). (Log 58: DESIGN CHOICE, unsafe.) -/
def beginTeam (s : State) (slot index copy core : Nat) (retry : Bool) (avoid : List Nat) : State :=
  let k := taskAt s slot
  let l := k.launch
  let xyz := l.coords index
  let s := makeRoom s l core
  let t := allocate s l core
    { id := s.nextId, task := slot, index := index, x := xyz.1, y := xyz.2.1, z := xyz.2.2, copy := copy
      perf := List.replicate 11 0, retry := retry, avoid := avoid }
  let first := !(s.teams.any fun u => u.task == slot && u.core == core)
  let s := if first then flushCore s core else s
  let slots := freeSlots s core
  let s := zeroStorage { s with teams := s.teams ++ [t], nextId := s.nextId + 1 } t
  let s := teamBarriers s t
  let s := { s with warps := s.warps ++ (List.range l.warps).map fun i => freshWarp s t i (slots.getD i 0) }
  if l.nMat == 0 then s else claimArray s t

/-! ## Placing teams -/

/-- The core of copy 1 of a redundant team among those that satisfy `g` (R293): another die's best, or another quad's of the same die. -/
def bestTwin (s : State) (k : Task) (core : Nat) (g : Nat → Bool) (avoid : List Nat) : Option Nat :=
  (bestCore s k fun c => g c && dieOf c != dieOf core && !avoid.contains c).orElse fun _ =>
    bestCore s k fun c => g c && dieOf c == dieOf core && quadOf c != quadOf core && !avoid.contains c

/-- One team placed on the best core that satisfies `g` and `f`; a redundant one only with both copies, of which `f` asks nothing of copy 1 (R293). -/
def placeTeam (s : State) (slot index : Nat) (g f : Nat → Bool) (retry : Bool) (avoid : List Nat) : Option State :=
  let k := taskAt s slot
  match bestCore s k fun c => g c && f c && !avoid.contains c with
  | none => none
  | some c =>
    let s1 := beginTeam s slot index 0 c retry avoid
    if !k.launch.redundant then some s1
    else
      match bestTwin s1 k c g avoid with
      | none => none
      | some d => some (beginTeam s1 slot index 1 d retry avoid)

/-- Teams placed one after another on cores that satisfy `g`, all or none. -/
def placeAll (s : State) (slot : Nat) (g : Nat → Bool) : List Nat → Option State
  | [] => some s
  | i :: rest =>
    match placeTeam s slot i g (fun _ => true) false [] with
    | none => none
    | some s => placeAll s slot g rest

/-! ## Barriers wider than a core (R46, R47, R225, R354) -/

/-- The unit of a core at a scope. -/
def unitOf (scope core : Nat) : Nat := if scope == 2 then quadOf core else if scope == 3 then dieOf core else 0

/-- Barriers that a unit of a scope holds (Table EXEC.6). -/
def unitBarriers (scope : Nat) : Nat := if scope == 2 then 8 else if scope == 3 then 32 else 64

/-- The pod barriers that this package's launches hold. -/
def heldPod (s : State) : Nat := (s.barriers.filter fun b => b.scope == 5).length

/-- Free pod barriers of the pod's pool of 64 (R354): the package with PODIDX 0 holds it; another package asks that one, whose answer is
open here, short of what this package holds. -/
def freePod (s : State) : Nat := if s.pod.podIdx == 0 then s.podBarriers else Config.podPool s.tick % (65 - min 64 (heldPod s))

/-- Pod barriers given back to the pool, where this package holds it. -/
def returnPod (s : State) (n : Nat) : State := if s.pod.podIdx == 0 then { s with podBarriers := s.podBarriers + n } else s

/-- Free barriers of a unit; pod barriers are the pool's (R354). (Log 154: DESIGN CHOICE, safe.) -/
def freeWide (s : State) (scope unit : Nat) : Nat :=
  if scope == 5 then freePod s
  else unitBarriers scope - (s.barriers.filter fun b => b.scope == scope && b.unit == some unit).length

/-- The barriers of one scope for the teams of one copy in one unit, if the unit has them free. -/
def wideBarriers (s : State) (slot scope unit copy : Nat) : Option State :=
  let l := (taskAt s slot).launch
  let n := declared l scope
  let ts := s.teams.filter fun t => t.task == slot && t.copy == copy && unitOf scope t.core == unit
  if ts.isEmpty || n == 0 then some s
  else if freeWide s scope unit < n then none
  else some { s with
    barriers := s.barriers ++ (List.range n).map fun i =>
      { id := s.nextId + i, scope := scope, index := i, task := slot, teams := ts.map (·.id), unit := some unit
        expect := ts.length * l.warps }
    nextId := s.nextId + n
    podBarriers := if scope == 5 && s.pod.podIdx == 0 then s.podBarriers - n else s.podBarriers }

/-- Every barrier of a launch wider than a core, for all units its teams lie in. -/
def allWide (s : State) (slot : Nat) : Option State :=
  let keys := ([2, 3, 4, 5].flatMap fun scope =>
    (s.teams.filter fun t => t.task == slot).map fun t => (scope, unitOf scope t.core, t.copy)).eraseDups
  keys.foldl (fun acc x => acc.bind fun s => wideBarriers s slot x.1 x.2.1 x.2.2) (some s)

/-- Whether a launch is a gang (R294): window partners, or barriers wider than a core. -/
def Launch.gang (l : Launch) : Bool :=
  decide (0 < l.bQuad + l.bDie + l.bPkg + l.bPod) ||
    l.regions.any fun r => r.rights != 0 && decide (3 ≤ r.cls) && !r.self

/-- A whole gang placed on cores that satisfy `g`, with its barriers, or nothing (R294). -/
def placeGang (s : State) (slot : Nat) (g : Nat → Bool) : Option State :=
  let n := (taskAt s slot).launch.grid
  if 16384 < n then none else (placeAll s slot g (List.range n)).bind fun s => allWide s slot

/-- The package with nothing on its cores, every die serving that still may, and one task in a slot beyond the table. -/
def emptyPackage (s : State) (k : Task) : State :=
  { s with
    teams := [], warps := [], arrays := [], pins := [], barriers := [], l1 := [], mem := {}
    podBarriers := 64
    pod := { s.pod with dies := if s.deadlinePast then s.pod.dies else BitVec.allOnes 32, podIdx := 0 }
    tasks := s.tasks ++ [k] }

/-- Whether a gang fits in its range when that is empty (R294). -/
def gangFits (s : State) (k : Task) : Bool := (placeGang (emptyPackage s k) s.tasks.length fun _ => true).isSome

end Sys2Proof.Machine
end

