-- ==== Sys2Proof/Machine/SegMap.lean ====
section
/-! DEFINITION. The segment map of a travelling launch (Tables TRAV.2 and TRAV.3), read as a load reads it (R259, R309) and
written at its home (R306). -/

namespace Sys2Proof.Machine

open Sys2Proof

/-- An entry of the map: base address, words, replicas, and each replica's core where it is valid. -/
structure SegEntry where
  base : Nat
  len : Nat
  nrep : Nat
  cores : List (Option Nat)
  deriving DecidableEq, Repr

/-- The map as one reading finds it. -/
structure SegMap where
  nseg : Nat
  epoch : Word
  ringBase : Nat
  ringLen : Nat
  sledMax : Nat
  thresh : Nat
  entries : List SegEntry
  deriving DecidableEq, Repr

/-- A word of a list of lanes. -/
def wordAt (xs : List Lane) (i : Nat) : Word := (xs.getD i {}).val

/-- The header's fields (Table TRAV.2). -/
def headerOf (xs : List Lane) : SegMap :=
  { nseg := (wordAt xs 0).toNat % 65536, epoch := wordAt xs 1
    ringBase := (pairOf (wordAt xs 2) (wordAt xs 3)).toNat, ringLen := (wordAt xs 4).toNat
    sledMax := (wordAt xs 5).toNat % 65536, thresh := (wordAt xs 6).toNat % 65536, entries := [] }

/-- An entry's fields (Table TRAV.3). -/
def entryOf (xs : List Lane) : SegEntry :=
  { base := (pairOf (wordAt xs 0) (wordAt xs 1)).toNat, len := (wordAt xs 2).toNat, nrep := (wordAt xs 3).toNat % 16
    cores := (List.range 8).map fun j =>
      let v := bitsOf (wordAt xs (4 + j / 2)).toNat (16 * (j % 2)) 16
      if v / 32768 == 1 then some (v % 1024) else none }

/-- The entries of a map read from their addresses, and the first address that fails. -/
def readEntries (s : State) (w : Warp) (va : Nat) : Nat → Except Nat (State × List SegEntry)
  | 0 => .ok (s, [])
  | n + 1 =>
    match areaWords s w va 8 with
    | .error a => .error a
    | .ok (s, xs) =>
      match readEntries s w (va + 32) n with
      | .error a => .error a
      | .ok (s, rest) => .ok (s, entryOf xs :: rest)

/-- The map of a warp's launch. -/
def readMap (s : State) (w : Warp) : Except Nat (State × SegMap) :=
  let va := (launchOf s w).travMap.toNat
  match areaWords s w va 7 with
  | .error a => .error a
  | .ok (s, xs) =>
    let h := headerOf xs
    match readEntries s w (va + 64) h.nseg with
    | .error a => .error a
    | .ok (s, es) => .ok (s, { h with entries := es })

/-- The segment that holds an address. -/
def SegMap.segmentOf (m : SegMap) (a : Nat) : Option Nat :=
  let k := indexWhere (fun e => decide (e.base ≤ a) && decide (a < e.base + 4 * e.len)) m.entries
  if k < m.entries.length then some k else none

end Sys2Proof.Machine
end

