-- ==== Sys2Proof/Machine/Tasks.lean ====
section
/-! DEFINITION. Launch records and job cards as the command front end reads and checks them (R77, R151, R241, R287 to
R289, R303, R326, R331, R332, R355 to R359, R432), footprints and edges (R278, R333), the task table (R290), and the
instructions LAUNCH, JOB and JOBWT. -/

namespace Sys2Proof.Machine

open Sys2Proof

/-! ## Reads of the front end -/

/-- The 64-byte pieces of a range. -/
def pieces (a n : Nat) : List (Nat × Nat) :=
  if n == 0 then []
  else (List.range ((a + n - 1) / 64 - a / 64 + 1)).map fun i =>
    let lo := max a ((a / 64 + i) * 64)
    (lo, min (a + n) ((a / 64 + i + 1) * 64) - lo)

/-- The machine address of a byte of a world outside the windows, for a need, by a walk (R54) with the rights and the seal state
of its page (R409). -/
def jobSpot (s : State) (world va : Nat) (need : Need) : Except Deny Nat :=
  if aperture ≤ va then .error { code := 0x001 }
  else
    match (walkLeaf s world va).toOption.bind fun x => rightsDeny x.r x.w need with
    | some d => .error d
    | none =>
      match walk s world va with
      | .error d => .error d
      | .ok (frame, leaf) =>
        let e : TlbEntry := { quad := false, unit := 0, world := world, page := va / 65536, frame := frame / 65536 * 65536
                              r := leaf.r, w := leaf.w, x := leaf.x }
        match (sealDeny s e need).orElse fun _ => blockDeny s false (e.frame + va % 65536) with
        | some d => .error d
        | none => .ok (e.frame + va % 65536)

/-- The same for the front end, which reports no cause. (Log 60: DEDUCED, unsafe.) -/
def frontPage (s : State) (world va : Nat) (need : Need) : Option Nat := (jobSpot s world va need).toOption

/-- Bytes read piece by piece, where each piece's machine address is found by `place`. -/
def gather (s : State) (place : Nat → Option Nat) (a n : Nat) : Option (List Byte) :=
  (pieces a n).foldl (fun acc x => acc.bind fun bs => (place x.1).bind fun p =>
    if (homeRead s p x.2).2 then none else some (bs ++ (homeRead s p x.2).1)) (some [])

/-- A place that the front end's die reaches; a read that gets no reply fails (R416, R431). (Log 60: DEDUCED, unsafe.) -/
def answered (s : State) (world : Nat) (p : Option Nat) : Option Nat := p.filter (homeReached s world 0)

/-- `n` bytes at a virtual address of a world, where it is readable. (Log 60: DEDUCED, unsafe; 101: DEDUCED, unsafe.) -/
def frontRead (s : State) (world va n : Nat) : Option (List Byte) := gather s (fun a => answered s world (frontPage s world a .read)) va n

/-- `n` bytes at a world-physical address. (Log 60: DEDUCED, unsafe.) -/
def physRead (s : State) (world a n : Nat) : Option (List Byte) := gather s (fun a => answered s world (stage2 s world a).toOption) a n

/-- A field of a record: `n` bits from bit `lo` of the word at byte `off`. -/
def field (bs : List Byte) (off lo n : Nat) : Nat := bitsOf (wordIn bs off).toNat lo n

/-- Whether some fields are all zero. -/
def zeroAll (bs : List Byte) (fs : List (Nat × Nat × Nat)) : Bool := fs.all fun x => field bs x.1 x.2.1 x.2.2 == 0

/-! ## Grants (R289, R331) -/

/-- A grant table entry. -/
structure Grant where
  base : Nat
  len : Nat
  tenant : Nat
  rights : Nat
  guard : Nat
  deriving DecidableEq, Repr

/-- The grants of a world, in table order. -/
def grantsOf (s : State) (world : Nat) : List Grant :=
  let d := s.worlds.getD world {}
  (List.range d.ngrant).filterMap fun i => (physRead s world (d.grants.toNat + 32 * i) 32).map fun bs =>
    { base := (dwordIn bs 0).toNat, len := (dwordIn bs 8).toNat, tenant := field bs 16 0 16, rights := field bs 16 16 2
      guard := (dwordIn bs 24).toNat }

/-- Whether rights `have` include rights `need` (bit 0 r, bit 1 w). -/
def hasRights (given need : Nat) : Bool := (need % 2 == 0 || given % 2 == 1) && (decide (need < 2) || decide (2 ≤ given))

/-- The first grant of a tenant that wholly holds a range with some rights. (Log 68: DEDUCED, unsafe.) -/
def grantFor (gs : List Grant) (tenant : Option Nat) (base len need : Nat) : Option Grant :=
  gs.find? fun g => (match tenant with
      | some t => g.tenant == t
      | none => true) &&
    hasRights g.rights need && decide (g.base ≤ base) && decide (base + len ≤ g.base + g.len)

/-! ## Launch records (R287) -/

/-- A region descriptor at byte `off` (Table SCHED.4). -/
def regionAt (bs : List Byte) (off : Nat) : Region :=
  let d := (dwordIn bs (off + 8)).toNat
  { base := dwordIn bs off, self := bitsOf d 46 1 == 1, cls := bitsOf d 43 3, rights := bitsOf d 41 2, len := bitsOf d 0 41 }

/-- A format slot at byte `off` (Table NUM.6); its codebook is loaded at dispatch. -/
def slotAt (bs : List Byte) (off : Nat) : Slot :=
  { fmt := field bs off 0 4, acc := field bs off 4 1, scale := signExt (field bs off 8 8) 8, sat := field bs off 16 1 == 1
    book := dwordIn bs (off + 8) }

/-- The launch that 512 bytes describe (Table SCHED.3). -/
def launchAt (bs : List Byte) : Launch :=
  { entry := field bs 0 0 16, gridX := field bs 4 0 16, gridY := field bs 4 16 16, gridZ := field bs 8 0 16
    nVec := field bs 8 16 5, nCopy := field bs 8 21 5, nMat := field bs 8 26 5
    regs := field bs 0xC 0 9, handles := field bs 0xC 9 7, scratch := field bs 0x10 0 32, accb := field bs 0x14 0 32
    bCore := field bs 0x18 0 8, bQuad := field bs 0x18 8 8, bDie := field bs 0x18 16 8, bPkg := field bs 0x18 24 8
    bPod := field bs 0x1C 0 8, travelling := field bs 0x1C 8 1 == 1, redundant := field bs 0x1C 9 1 == 1
    pair := field bs 0x1C 10 1 == 1, half := field bs 0x1C 11 1 == 1, passClass := field bs 0x1C 16 2, prio := field bs 0x1C 20 3
    world := field bs 0x20 0 6, vdev := field bs 0x20 8 6, tenant := field bs 0x20 16 16
    av := field bs 0x24 31 1 == 1, variant := field bs 0x24 0 20, baseGen := wordIn bs 0x28, trapEnt := field bs 0x2C 0 16
    save := dwordIn bs 0x30, travMap := dwordIn bs 0x38
    slots := (List.range 8).map fun i => slotAt bs (0x40 + 16 * i)
    regions := (List.range 16).map fun k => regionAt bs (0xC0 + 16 * k)
    params := (List.range 16).map fun i => wordIn bs (0x1C0 + 4 * i) }

/-- The fields of the header that are zero (Table SCHED.3). (Log 69: DEDUCED, unsafe.) -/
def zeroFields : List (Nat × Nat × Nat) :=
  [(0, 16, 16), (8, 31, 1), (0xC, 16, 16), (0x1C, 12, 4), (0x1C, 18, 2), (0x1C, 23, 9), (0x20, 6, 2), (0x20, 14, 2),
   (0x24, 20, 11), (0x2C, 16, 16)]

/-- The bytes of a region of class 0 to 2 in all its instances (R288). -/
def spanLen (l : Launch) (r : Region) : Nat := if r.cls == 2 then l.grid * l.warps * r.len else r.len

/-- The used regions of class 0 to 2, by number. -/
def memRegions (l : Launch) : List (Nat × Region) :=
  ((List.range 16).map fun k => (k, l.region k)).filter fun x => x.2.rights != 0 && decide (x.2.cls < 3)

/-! ## What the checks find, by status of Table ENGF.5 -/

/-- Status 0x01 of the header: fields outside their ranges, and zero fields. (Log 69: DEDUCED, unsafe.) -/
def headerBad (bs : List Byte) (l : Launch) : Bool :=
  !zeroAll bs zeroFields || l.gridX == 0 || l.gridY == 0 || l.gridZ == 0 || l.warps == 0 || decide (16 < l.warps) ||
    decide (64 < l.handles) || l.regs == 0 || decide (256 < l.regs) || decide (16 < l.bCore) || decide (8 < l.bQuad) ||
    decide (32 < l.bDie) || decide (64 < l.bPkg) || decide (64 < l.bPod) || decide (524288 < l.scratch) ||
    decide (4194304 < l.accb) || (!l.travelling && l.travMap != 0)

/-- Status 0x01 of the regions: zero fields, reserved classes, and bases and private lengths not of 4 KiB (R288). -/
def regionsBad (bs : List Byte) (l : Launch) : Bool :=
  (List.range 16).any fun k =>
    let r := l.region k
    bitsOf (dwordIn bs (0xC8 + 16 * k)).toNat 47 17 != 0 || decide (6 ≤ r.cls) || (r.cls == 2 && r.len % 4096 != 0) ||
      (r.rights != 0 && decide (r.cls < 3) && r.base.toNat % 4096 != 0)

/-- Status 0x02. -/
def identityBad (s : State) (l : Launch) (world vdev : Nat) : Bool :=
  l.world != world || l.vdev != vdev || !(s.vdevs.getD vdev {}).en || !(s.worlds.getD world {}).en

/-- Whether an entry has an entry block for a role. -/
def Entry.hasRole (e : Entry) (role : Nat) : Bool := (e.code.getD role none).isSome

/-- Status 0x03. -/
def entryBad (e : Option Entry) (l : Launch) : Bool :=
  match e with
  | none => true
  | some e => e.isFn || (decide (0 < l.nVec) && !e.hasRole 0) || (decide (0 < l.nCopy) && !e.hasRole 1) ||
      (decide (0 < l.nMat) && !e.hasRole 2)

/-- Whether a region of the record gives less than the kernel declares. -/
def lessRegion (l : Launch) (k : Nat) (d : RegionDecl) : Bool :=
  let r := l.region k
  d.rights != 0 && (r.cls != d.cls || !hasRights r.rights d.rights ||
    decide ((if 3 ≤ d.cls then windowLen l d.cls else r.len) < d.minLen))

/-- Status 0x04: the record grants less than the kernel declares (R77). -/
def grantsLess (d : KernelDecl) (l : Launch) : Bool :=
  l.regs != d.regs || decide (l.scratch < d.scratch) || decide (l.accb < d.accb) || decide (l.handles < d.handles) ||
    decide (l.bCore < d.bCore) || decide (l.bQuad < d.bQuad) || decide (l.bDie < d.bDie) || decide (l.bPkg < d.bPkg) ||
    decide (l.bPod < d.bPod) || (List.range 16).any (fun k => lessRegion l k (d.regions.getD k {})) ||
    (decide (0 < d.stack) && ((l.region 15).cls != 2 || (l.region 15).rights == 0))

/-- Whether a slot breaks Table NUM.6, Table NUM.7 or R151. -/
def slotBad (bs : List Byte) (l : Launch) (i : Nat) : Bool :=
  let off := 0x40 + 16 * i
  let t := slotAt bs off
  let isInt := t.fmt == 4 || t.fmt == 5
  let held := (memRegions l).any fun x => x.2.rights % 2 == 1 && decide (x.2.base.toNat ≤ t.book.toNat) &&
    decide (t.book.toNat + 32 ≤ x.2.base.toNat + spanLen l x.2)
  decide (8 ≤ t.fmt) || t.acc != bit isInt || (isInt && t.scale != 0) ||
    !zeroAll bs [(off, 5, 3), (off, 17, 7), (off, 24, 8), (off + 4, 0, 32)] ||
    (if t.fmt == 6 then t.book.toNat % 32 != 0 || !held else t.book != 0)

/-- The grant that each used region of class 0 to 2 lies in, with the region's number (R288). -/
def regionGrants (gs : List Grant) (l : Launch) : List (Nat × Region × Option Grant) :=
  (memRegions l).map fun x => (x.1, x.2, grantFor gs (some l.tenant) x.2.base.toNat (spanLen l x.2) x.2.rights)

/-- The guard address that the kernel declares for region K, in the launch's terms (R332). -/
def guardOfRegion (d : KernelDecl) (l : Launch) (k : Nat) : Option (Nat × Nat) :=
  (d.regions.getD k {}).guard.map fun g => (g.1, (l.region g.1).base.toNat + g.2)

/-- Status 0x07 (R332). -/
def guardBad (gs : List Grant) (d : KernelDecl) (l : Launch) : Bool :=
  (regionGrants gs l).any fun x =>
    match x.2.2 with
    | none => false
    | some g =>
      let lockOk := fun j => gs.any fun h => h.tenant == l.tenant && h.rights == 3 && h.guard == 0 &&
        decide (h.base ≤ (l.region j).base.toNat) && decide ((l.region j).base.toNat + spanLen l (l.region j) ≤ h.base + h.len)
      g.guard % 4 != 0 || match guardOfRegion d l x.1 with
        | none => decide (2 ≤ x.2.1.rights) && g.guard != 0
        | some (j, a) => g.guard != a || (decide (2 ≤ x.2.1.rights) && g.guard != 0 && !lockOk j)

/-- Status 0x08: a window that names no team of the grid (R57). -/
def windowBad (l : Launch) : Bool :=
  l.regions.any fun r => r.rights != 0 && decide (3 ≤ r.cls) && !r.self &&
    !(decide (bitsOf r.base.toNat 0 16 < l.gridX) && decide (bitsOf r.base.toNat 16 16 < l.gridY) &&
      decide (bitsOf r.base.toNat 32 16 < l.gridZ))

/-- The module whose code holds a kernel's vector entry block. -/
def kernelModule (s : State) (world : Nat) (e : Option Entry) : Option Seal :=
  (e.bind fun e => e.code.getD 0 none).bind fun pc => sealAt s world pc

/-- Bytes of the save area that a launch needs (R288, R301, R319). -/
def saveArea (s : State) (world : Nat) (e : Option Entry) (l : Launch) : Nat :=
  if l.travelling then 8 * ((kernelModule s world e).map fun m => m.segments.length).getD 0 * 4096 * l.scrGranules
  else l.grid * roundUp (saveNeed l) 4096 * (if l.redundant then 2 else 1)

/-- Status 0x09. -/
def saveBad (gs : List Grant) (l : Launch) (need : Nat) : Bool :=
  l.save != 0 && (l.save.toNat % 65536 != 0 || (grantFor gs (some l.tenant) l.save.toNat need 3).isNone)

/-- Status 0x0A (Table EXEC.5). -/
def modesBad (l : Launch) : Bool := (l.travelling && (l.redundant || l.pair || l.half)) || (l.pair && l.half)

/-- A byte list as words. -/
def lanesOfBytes (bs : List Byte) : List Lane := (List.range (bs.length / 4)).map fun i => clean (wordIn bs (4 * i))

/-- The segment map of a launch as the front end reads it. -/
def frontMap (s : State) (world : Nat) (l : Launch) : Option SegMap :=
  let va := l.travMap.toNat
  (frontRead s world va 28).bind fun hd =>
    let h := headerOf (lanesOfBytes hd)
    ((List.range h.nseg).foldl (fun (acc : Option (List SegEntry)) k => acc.bind fun es =>
        (frontRead s world (va + 0x40 + 32 * k) 32).map fun bs => es ++ [entryOf (lanesOfBytes bs)]) (some [])).map fun es =>
      { h with entries := es }

/-- The end of segment k of a module, in words. -/
def segmentEnd (m : Seal) (k : Nat) : Nat := m.segments.getD (k + 1) m.words

/-- The fields of a map header that are zero (Table TRAV.2), and of an entry, its V bits among them, which software writes 0 (Table TRAV.3). -/
def mapZeros : List (Nat × Nat × Nat) :=
  [(0, 16, 16), (0x14, 16, 16), (0x18, 16, 16)] ++ (List.range 9).map fun i => (0x1C + 4 * i, 0, 32)
def entryZeros : List (Nat × Nat × Nat) :=
  (0x0C, 4, 28) :: (List.range 8).map fun j => (0x10 + 4 * (j / 2), 16 * (j % 2) + 10, 6)

/-- Whether a segment map breaks Tables TRAV.2 and TRAV.3 for a module and a grid, or its grants (R303, R306). -/
def mapBad (s : State) (gs : List Grant) (world : Nat) (l : Launch) (m : Seal) : Bool :=
  match frontMap s world l, frontRead s world l.travMap.toNat 64 with
  | some x, some hd =>
    x.nseg != m.segments.length || x.nseg == 0 || decide (1024 < x.nseg) || !zeroAll hd mapZeros || x.epoch != 0 ||
      x.ringBase % 4096 != 0 || x.ringLen % 4096 != 0 || decide (x.ringLen < 128 + l.grid * x.sledMax) ||
      x.sledMax % 128 != 0 || decide (x.sledMax < 128 * (2 + m.maxLive)) ||
      (grantFor gs (some l.tenant) l.travMap.toNat (0x40 + 32 * x.nseg) 3).isNone ||
      (grantFor gs (some l.tenant) x.ringBase (8 * x.nseg * x.ringLen) 3).isNone ||
      (List.range x.nseg).any fun k =>
        let e := x.entries.getD k { base := 0, len := 0, nrep := 0, cores := [] }
        e.base != m.code + 4 * m.segments.getD k 0 || e.len != segmentEnd m k - m.segments.getD k 0 || e.nrep == 0 ||
          decide (8 < e.nrep) || match frontRead s world (l.travMap.toNat + 0x40 + 32 * k) 32 with
            | some bs => !zeroAll bs entryZeros
            | none => true
  | _, _ => true

/-- Status 0x0B (R303). -/
def travelBad (s : State) (gs : List Grant) (world : Nat) (e : Option Entry) (l : Launch) : Bool :=
  match kernelModule s world e with
  | none => l.travelling
  | some m =>
    m.travel != l.travelling ||
      (l.travelling && (l.nVec != 1 || l.nCopy != 0 || l.nMat != 0 || l.accb != 0 || l.handles != 0 ||
        l.bCore + l.bQuad + l.bDie + l.bPkg + l.bPod != 0 || l.regions.any (fun r => decide (3 ≤ r.cls)) ||
        l.travMap.toNat % 64 != 0 || mapBad s gs world l m))

/-- The cores of a virtual device's range that a launch's class admits and that are PRESENT. -/
def suitable (s : State) (vdev : Nat) (l : Launch) : List Nat := allCores.filter (coreSuits s vdev l)

/-- Status 0x0C (R326). -/
def classBad (s : State) (vdev : Nat) (l : Launch) : Bool := l.passClass != 0 && (suitable s vdev l).isEmpty

/-- Replicas that a map asks for at dispatch (R307). -/
def SegMap.replicas (m : SegMap) : Nat := total (m.entries.map fun e => e.nrep)

/-- The statuses that apply to a launch, among those that no substitution changes. -/
def fixedStatuses (s : State) (gs : List Grant) (bs : List Byte) (l : Launch) (world vdev : Nat) : List Nat :=
  let e := entryFor s world l.entry
  (if headerBad bs l then [1] else []) ++ (if identityBad s l world vdev then [2] else []) ++
    (if entryBad e l then [3] else []) ++ (if saveBad gs l (saveArea s world e l) then [9] else []) ++
    (if modesBad l then [0xA] else []) ++ (if classBad s vdev l then [0xC] else [])

/-- The statuses that apply to a launch against what its kernel declares and what its cores can hold. (Log 67: DEDUCED, unsafe.) -/
def roomStatuses (s : State) (gs : List Grant) (d : KernelDecl) (l : Launch) (world vdev : Nat) : List Nat :=
  (if grantsLess d l then [4] else []) ++ (if travelBad s gs world (entryFor s world l.entry) l then [0xB] else []) ++
    (if l.gang && !gangFits s { body := .launch l, vdev := vdev, world := world, tenant := l.tenant } then [0xD] else []) ++
    (if l.travelling && decide ((suitable s vdev l).length < ((frontMap s world l).map SegMap.replicas).getD 0) then [0xE] else [])

/-- What the kernel of a launch declares. -/
def kernelOf (s : State) (world : Nat) (l : Launch) : KernelDecl := ((entryFor s world l.entry).map (·.decl)).getD {}

/-- The statuses that apply to a launch with its regions and slots as they will run. -/
def bodyStatuses (s : State) (gs : List Grant) (bs : List Byte) (l : Launch) (world vdev : Nat) : List Nat :=
  let d := kernelOf s world l
  (if regionsBad bs l then [1] else []) ++ (if (List.range 8).any (slotBad bs l) then [5] else []) ++
    (if (regionGrants gs l).any (fun x => x.2.2.isNone) then [6] else []) ++ (if guardBad gs d l then [7] else []) ++
    (if windowBad l then [8] else []) ++ roomStatuses s gs d l world vdev

/-- The statuses that apply to a launch whose regions and slots no resolution has given: those that hold whatever they are. (Log 67: DEDUCED, unsafe.) -/
def bareStatuses (s : State) (gs : List Grant) (l : Launch) (world vdev : Nat) : List Nat :=
  roomStatuses s gs { kernelOf s world l with regions := [], stack := 0 }
    { l with regions := List.replicate 16 {}, slots := List.replicate 8 {} } world vdev

/-! ## Adaptations (R355 to R359) -/

/-- What a resolution finds: a refusal, or the substituted record and the jobs of a cold load with their entry. -/
structure Resolved where
  record : List Byte
  jobs : List JobCard := []
  cold : Option (Nat × DWord) := none
  deriving DecidableEq, Repr

/-- Bytes of a list replaced from a place. -/
def splice (bs : List Byte) (off : Nat) (xs : List Byte) : List Byte := bs.take off ++ xs ++ bs.drop (off + xs.length)

/-- The entries that the masks of an adaptation entry name: their places in the launch record and in the substitution record. -/
def substPlaces (e : List Byte) : List (Nat × Nat) :=
  (((List.range 16).filter fun k => bitsOf (field e 0 0 16) k 1 == 1).map fun k => (0xC0 + 16 * k, 16 * k)) ++
    ((List.range 8).filter fun i => bitsOf (field e 0 16 8) i 1 == 1).map fun i => (0x40 + 16 * i, 256 + 16 * i)

/-- The record with the regions and slots that an entry's masks name taken from its substitution record, of which no other entry is read (R355). (Log 64: DEDUCED, unsafe.) -/
def substitute (s : State) (world : Nat) (bs e : List Byte) : Option (List Byte) :=
  (substPlaces e).foldl (fun acc x => acc.bind fun bs =>
    (frontRead s world ((dwordIn e 0x10).toNat + x.2) 16).map (splice bs x.1)) (some bs)

/-- The jobs of a cold load (R359) of a record with its substitutions: one for each substituted region, in ascending K, from STAGE on. -/
def coldJobs (record : List Byte) (mask stage : Nat) : List JobCard :=
  (((List.range 16).filter fun k => bitsOf mask k 1 == 1).foldl (fun (acc : Nat × List JobCard) k =>
    let r := regionAt record (0xC0 + 16 * k)
    (acc.1 + r.len, acc.2 ++ [{ kind := 0, dst := r.base, src := BitVec.ofNat 64 acc.1, len := r.len }])) (stage, [])).2

/-- Resolve(rec) of R358; a refusal comes with the record where its substitutions are known. The four tries read one memory at one moment here, so
an entry never changes between them. (Log 64: DEDUCED, unsafe; 65: DEDUCED, unsafe; 66: DEDUCED, unsafe.) -/
def resolve (s : State) (bs : List Byte) (l : Launch) : Except (Nat × Option (List Byte)) Resolved :=
  if !l.av then .ok { record := bs }
  else
    let d := s.worlds.getD l.world {}
    let at0 := d.adapt.toNat + 64 * l.variant
    match physRead s l.world at0 64 with
    | none => .error (0x10, none)
    | some e =>
      if field e 0 30 2 != 2 || field e 0xC 0 16 != l.tenant then .error (0x10, none)
      else if l.baseGen != d.gen || wordIn e 8 != d.gen then .error (0x11, none)
      else
        match substitute s l.world bs e with
        | none => .error (0x10, none)
        | some record =>
          if field e 0 29 1 == 1 then .ok { record := record }
          else if dwordIn e 0x18 == 0 then .error (0x13, some record)
          else .ok { record := record, jobs := coldJobs record (field e 0 0 16) (dwordIn e 0x18).toNat, cold := some (at0, dwordIn e 0) }

/-! ## Footprints and edges (R278, R333) -/

/-- The footprint of a launch: its regions of class 0 and 1, with the guards its kernel declares. -/
def launchSpans (d : KernelDecl) (l : Launch) : List Span :=
  let guards := (List.range 16).filterMap fun k => if (l.region k).rights != 0 then guardOfRegion d l k else none
  ((memRegions l).filter fun x => x.2.cls != 2).map fun x =>
    { base := x.2.base.toNat, len := x.2.len, write := decide (2 ≤ x.2.rights)
      guard := (guardOfRegion d l x.1).map (·.2), locks := (guards.filter fun g => g.1 == x.1).map (·.2) }

/-- The footprint of a job (R242). -/
def jobSpans (c : JobCard) : List Span :=
  let w : Span := { base := c.dst.toNat, len := c.len, write := true }
  if c.kind == 1 then [w] else [{ base := c.src.toNat, len := c.len, write := false }, w]

/-- Whether an overlap is left out because both ranges stand under one guard (R333). -/
def guardedBoth (a b : Span) : Bool := (a.guard.isSome && a.guard == b.guard) || a.locks.any b.locks.contains

/-- Where two ranges of two tasks meet with write rights on a side, if they do (R278). -/
def spansMeet (a b : Span) : Option (Nat × Nat) :=
  let lo := max a.base b.base
  let hi := min (a.base + a.len) (b.base + b.len)
  if (a.write || b.write) && decide (lo < hi) && !guardedBoth a b then some (lo, hi - lo) else none

/-- The edges from the tasks in flight of the same world whose footprints meet some ranges, but for some tasks. -/
def edgesFor (s : State) (world : Nat) (spans : List Span) (but : List (Nat × BitVec 22)) : List Edge :=
  (List.range 512).filterMap fun i =>
    let k := taskAt s i
    if k.state == .free || k.world != world || but.contains (i, k.seq) then none
    else
      match spans.flatMap fun a => k.span.filterMap (spansMeet a) with
      | [] => none
      | ranges => some { slot := i, seq := k.seq, ranges := ranges }

/-! ## The task table (R290) -/

/-- Whether an edge's task has completed. -/
def edgeOver (s : State) (e : Edge) : Bool := (taskAt s e.slot).state == .free || (taskAt s e.slot).seq != e.seq

/-- Held tasks whose edges are all over become ready (Table SCHED.5). -/
def promote (s : State) : State :=
  { s with tasks := s.tasks.map fun k =>
      if k.state == .held && k.edges.all (edgeOver s) then { k with state := .ready } else k }

/-- The lowest free slot. (Log 70: DESIGN CHOICE, unsafe.) -/
def freeSlot (s : State) : Option Nat := leastFrom (fun i => (taskAt s i).state == .free) 0 512

/-- A task taken by a slot: the sequence number and the ordinal of acceptance advance (R290). -/
def takeSlot (s : State) (slot : Nat) (k : Task) : State :=
  promote { s with
    tasks := s.tasks.set slot { k with state := .held, seq := (taskAt s slot).seq + 1, order := s.accepted }
    accepted := s.accepted + 1 }

/-- A task word for an accepted task (R241). -/
def taskWord (s : State) (slot : Nat) : Word := BitVec.ofNat 32 ((taskAt s slot).seq.toNat * 512 + slot)

/-- A task word for a refusal. -/
def refusedWord (status : Nat) : Word := BitVec.ofNat 32 (2 ^ 31 + status % 256)

/-! ## Acceptance -/

/-- Who asks for a task: its world, virtual device and tenant where they replace the record's, the cap of its priority,
the tasks it forms no edge with, and its origin. -/
structure Asker where
  world : Nat
  vdev : Nat
  own : Option (Nat × Nat) := none
  ancestors : List (Nat × BitVec 22) := []
  origin : Origin
  deriving DecidableEq, Repr

/-- The record's launch with the asker's identity in place of its own (R241). -/
def Asker.adopt (a : Asker) (l : Launch) : Launch :=
  match a.own with
  | none => l
  | some (tenant, prio) => { l with world := a.world, vdev := a.vdev, tenant := tenant, prio := min l.prio prio }

/-- The least of some statuses. (Log 67: DEDUCED, unsafe.) -/
def leastStatus (xs : List Nat) : Option Nat := argMin id xs

/-- The jobs in flight that already load a cold entry (R359). -/
def loadingJobs (s : State) (world : Nat) (cold : Nat × DWord) : List Edge :=
  ((List.range 512).filter fun i =>
    (taskAt s i).state != .free && (taskAt s i).world == world && (taskAt s i).coldEntry.map (·.1) == some cold.1).map
      fun i => { slot := i, seq := (taskAt s i).seq }

/-- A job entered in the table; the answer names its slot. (Log 63: DESIGN CHOICE, unsafe.) -/
def enterJob (s : State) (a : Asker) (tenant prio : Nat) (card : JobCard) (cold : Option (Nat × DWord)) : Option (State × Nat) :=
  match freeSlot s with
  | none => none
  | some slot =>
    let spans := jobSpans card
    some (takeSlot s slot
      { body := .job card, vdev := a.vdev, world := a.world, tenant := tenant, prio := prio, origin := a.origin
        ancestors := a.ancestors, coldEntry := cold, edges := edgesFor s a.world spans a.ancestors, span := spans }, slot)

/-- The jobs of a cold load entered in order; their slots and sequence numbers. -/
def enterJobs (s : State) (a : Asker) (l : Launch) (cold : Option (Nat × DWord)) : List JobCard →
    Option (State × List Edge)
  | [] => some (s, [])
  | c :: rest =>
    match enterJob s { a with origin := {} } l.tenant l.prio c cold with
    | none => none
    | some (s, i) =>
      match enterJobs s a l cold rest with
      | none => none
      | some (s, es) => some (s, { slot := i, seq := (taskAt s i).seq } :: es)

/-- How an acceptance ends. -/
inductive Verdict where
  /-- Accepted, in a slot. -/
  | taken (s : State) (slot : Nat)
  | refused (status : Nat)
  /-- No slot is free. -/
  | full
  deriving DecidableEq, Repr

/-- A launch of checked bytes entered in the table, after the jobs it waits for. -/
def enterLaunch (s : State) (a : Asker) (l : Launch) (r : Resolved) : Verdict :=
  let running := match r.cold with
    | some c => loadingJobs s a.world c
    | none => []
  match enterJobs s a l r.cold (if running.isEmpty then r.jobs else []) with
  | none => .full
  | some (s1, made) =>
    match freeSlot s1 with
    | none => .full
    | some slot =>
      let spans := launchSpans (kernelOf s a.world l) l
      let edges := (edgesFor s1 a.world spans a.ancestors ++ running ++ made).eraseDups
      .taken (takeSlot s1 slot
        { body := .launch l, vdev := a.vdev, world := a.world, tenant := l.tenant, prio := l.prio, entry := l.entry
          origin := a.origin, ancestors := a.ancestors, edges := edges, span := spans }) slot

/-- A launch record checked (R288, R432) and entered, or refused with the lowest status that applies. -/
def acceptLaunch (s : State) (a : Asker) (bs : List Byte) : Verdict :=
  let raw := a.adopt (launchAt bs)
  let gs := grantsOf s a.world
  let fixed := fixedStatuses s gs bs raw a.world a.vdev
  let body := fun (record : List Byte) => bodyStatuses s gs record (a.adopt (launchAt record)) a.world a.vdev
  match resolve s bs raw with
  | .error (st, record) =>
    let more := match record with
      | some bs => body bs
      | none => bareStatuses s gs raw a.world a.vdev
    .refused ((leastStatus (st :: fixed ++ more)).getD st)
  | .ok r =>
    let l := a.adopt (launchAt r.record)
    match leastStatus (fixed ++ body r.record) with
    | some x => .refused x
    | none => enterLaunch s a l r

/-- The job that 64 bytes describe (Table ISAE.5). -/
def cardAt (bs : List Byte) : JobCard :=
  { kind := field bs 0 0 4, dst := dwordIn bs 8, src := dwordIn bs 16, len := field bs 0x18 0 32 }

/-- Whether a card's zero fields are not all zero. -/
def cardZeroBad (bs : List Byte) : Bool :=
  !zeroAll bs ((0, 4, 28) :: (4, 0, 32) :: (List.range 9).map fun i => (0x1C + 4 * i, 0, 32))

/-- Whether a card's kind, length or addresses leave their ranges. -/
def cardBad (c : JobCard) : Bool :=
  decide (3 ≤ c.kind) || c.len % 4 != 0 || c.dst.toNat % 4 != 0 || (c.kind != 1 && c.src.toNat % 4 != 0)

/-- A host job card checked and entered: a card names no tenant, so any grant of the world carries its ranges. (Log 63: DESIGN CHOICE, unsafe.) -/
def acceptHostJob (s : State) (a : Asker) (bs : List Byte) : Verdict :=
  let c := cardAt bs
  let gs := grantsOf s a.world
  let out := (grantFor gs none c.dst.toNat c.len 2).isNone || (c.kind != 1 && (grantFor gs none c.src.toNat c.len 1).isNone)
  let sts := (if cardZeroBad bs || cardBad c then [1] else []) ++
    (if !(s.vdevs.getD a.vdev {}).en || !(s.worlds.getD a.world {}).en then [2] else []) ++ (if out then [6] else [])
  match leastStatus sts with
  | some st => .refused st
  | none =>
    match enterJob s a 0 0 c none with
    | some (s, slot) => .taken s slot
    | none => .full

/-! ## Device-side tasks (R241, R432) -/

/-- The issuing warp as one who asks. -/
def deviceAsker (s : State) : Asker :=
  let t := teamOf s (me s)
  let k := taskAt s t.task
  { world := k.world, vdev := k.vdev, own := some (k.tenant, k.launch.prio), ancestors := (t.task, k.seq) :: k.ancestors
    origin := { word := s.cur.word, warp := some ((me s).team, (me s).wid), pc := (fr s).pc, frag := (fr s).frag } }

/-- The statuses that a device-side task may meet before its record is read. -/
def deviceStatuses (s : State) (a : Asker) (unreadable : Bool) : List Nat :=
  (if !(s.vdevs.getD a.vdev {}).en || !(s.worlds.getD a.world {}).en then [2] else []) ++
    (if (freeSlot s).isNone then [0x14] else []) ++ (if unreadable then [0x15] else []) ++
    (if 15 < a.ancestors.length then [0x16] else [])

/-- The bytes of a device-side record or card, 64-byte-aligned. -/
def deviceBytes (s : State) (a : Asker) (va n : Nat) : Option (List Byte) := if va % 64 == 0 then frontRead s a.world va n else none

/-- The task word of a verdict, with the state it leaves. -/
def Verdict.word (v : Verdict) (s : State) : State × Word :=
  match v with
  | .taken t slot => (t, taskWord t slot)
  | .refused st => (s, refusedWord st)
  | .full => (s, refusedWord 0x14)

/-- A verdict with the statuses known beside it. -/
def Verdict.least (v : Verdict) (sts : List Nat) : Verdict :=
  match v with
  | .refused st => .refused ((leastStatus (st :: sts)).getD st)
  | _ => match leastStatus sts with
    | some st => .refused st
    | none => v

/-- LAUNCH's record handed to the task table. -/
def deviceLaunch (s : State) (va : Nat) : State × Word :=
  let a := deviceAsker s
  match deviceBytes s a va 512 with
  | none => (s, refusedWord ((leastStatus (deviceStatuses s a true)).getD 0x15))
  | some bs => ((acceptLaunch s a bs).least (deviceStatuses s a false)).word s

/-- Whether a range lies in one region of the issuing launch that carries the right (R241). -/
def inOwnRegion (s : State) (base len need : Nat) : Bool :=
  let w := me s
  let l := launchOf s w
  (List.range 16).any fun k =>
    let r := l.region k
    decide (r.cls < 3) && hasRights r.rights need && !(need == 2 && r.cls == 1) &&
      decide (regionBase l (teamOf s w) w.wid k ≤ base) && decide (base + len ≤ regionBase l (teamOf s w) w.wid k + r.len)

/-- JOB's card handed to the task table. -/
def deviceJob (s : State) (va : Nat) : State × Word :=
  let a := deviceAsker s
  match deviceBytes s a va 64 with
  | none => (s, refusedWord ((leastStatus (deviceStatuses s a true)).getD 0x15))
  | some bs =>
    let c := cardAt bs
    let bad := cardBad c || !inOwnRegion s c.dst.toNat c.len 2 || (c.kind != 1 && !inOwnRegion s c.src.toNat c.len 1)
    match leastStatus ((if cardZeroBad bs then [1] else []) ++ deviceStatuses s a bad) with
    | some st => (s, refusedWord st)
    | none =>
      match enterJob s a (taskOf s (me s)).tenant (taskOf s (me s)).launch.prio c none with
      | some (t, slot) => (t, taskWord t slot)
      | none => (s, refusedWord 0x14)

/-- The registers that LAUNCH and JOB name, and their causes. -/
def taskCauses (s : State) (d a : Nat) : List Cause := scalarCauses s (regRun a 2) (d :: regRun a 2)

/-- A task word written to D, and on. -/
def answerTask (d : Nat) (word : Word) (s : State) : State := execAndGo [(d, splat word)] s

/-- LAUNCH and JOB hand their task over once the warp's earlier accesses are released at package scope; both copies of a redundant launch stand
at that release, and copy 0 submits the task for both (R44, R241, R277).  The core's PRIV lines reach their homes too, which the new task
may read (R273). (Log 184: DEDUCED, unsafe.) -/
def submit (causes : List Cause) (effect : State → State) (s : State) : Out :=
  if causes.isEmpty && holds s (me s) (.drained true) && mustCompare s then .next (standAt 6 s)
  else
    match causes with
    | [] => releaseThen 4 (fun s => effect (evictPrivate s (me s).core)) s
    | cs => guarded cs s s

/-- LAUNCH (R241). (Log 43: DEDUCED, unsafe.) -/
def execLaunch (d a : BitVec 8) (s : State) : Out :=
  if (fr s).exec == 0#32 then .next (advance s)
  else
    submit (taskCauses s d.toNat a.toNat) (fun s =>
      let x := deviceLaunch s (scalarPair (me s) (fr s) a.toNat).toNat
      forTwin 6 (fr s) none (answerTask d.toNat x.2) (answerTask d.toNat x.2 x.1)) s

/-- JOB (R241): CNT.CP counts an accepted job until it completes. (Log 43: DEDUCED, unsafe.) -/
def execJob (d a : BitVec 8) (s : State) : Out :=
  if (fr s).exec == 0#32 then .next (advance s)
  else if !holds s (me s) (.counter .cp) then .next (waitFor (.counter .cp) s)
  else
    submit (taskCauses s d.toNat a.toNat) (fun s =>
      let x := deviceJob s (scalarPair (me s) (fr s) a.toNat).toNat
      let land := fun (s : State) => answerTask d.toNat x.2 (if x.2.getLsbD 31 then s else setMe s ((me s).onCtr .cp (· + 1)))
      forTwin 6 (fr s) none land (land x.1)) s

/-- JOBWT (R243): it waits for the task, and then acquires at package scope, keeping no PRIV line that the task may have overtaken. (Log 71: DEDUCED, unsafe; 184: DEDUCED, unsafe.) -/
def execJobwt (a : BitVec 8) (s : State) : Out :=
  let word := scalarAt (me s) (fr s) a.toNat
  let causes := scalarCauses s [a.toNat] [a.toNat]
  if (fr s).exec == 0#32 then .next (advance s)
  else if causes.isEmpty && !taskOver s word then .next (waitFor (.task word) s)
  else guarded causes (advance (acquireActs (evictPrivate s (me s).core) (me s).core 4)) s

end Sys2Proof.Machine
end

