-- ==== Sys2Proof/Machine/Labry.lean ====
section
/-! DEFINITION. Labry images as the admission unit reads them (R132 to R135, R83, R84), and the register types of their
annotations (Table ADM.4).  Every violation of a layout is a rejection under rule 105. -/

namespace Sys2Proof.Machine

open Sys2Proof

/-! ## Rejection (R379) -/

/-- "None" in a rejection record. -/
def noWord : Nat := 0xFFFFFFFF

/-- The cause that a request reports (Table ADMF.1). -/
structure Rej where
  rule : Nat
  kind : Nat := 0
  item : Nat := 0
  detail : Nat := 0
  block : Nat := noWord
  word : Nat := noWord
  instr : Word := 0
  target : Nat := noWord
  deriving DecidableEq, Repr

/-- A test that rejects where it fails. -/
def need (ok : Bool) (r : Rej) : Except Rej Unit := if ok then .ok () else .error r

/-- A rejection of a layout, in a section type (0: the header or the section table), with the field's value. -/
def layout (part detail : Nat) : Rej :=
  { rule := 105, kind := if part == 0 then 0 else 6, item := part, detail := detail % 2 ^ 32 }

/-- A list read by one step per element, from a rest that each step shortens. -/
def readMany {α β : Type} (f : β → Except Rej (α × β)) : Nat → β → Except Rej (List α × β)
  | 0, b => .ok ([], b)
  | n + 1, b => do
    let (x, b) ← f b
    let (xs, b) ← readMany f n b
    return (x :: xs, b)

/-- A little-endian number of `n` bytes at an offset of a byte list. -/
def num (bs : List Byte) (off n : Nat) : Nat := ofBytes ((bs.drop off).take n)

/-- A byte list as words. -/
def toWords (bs : List Byte) : List Word := (List.range (bs.length / 4)).map fun i => wordIn bs (4 * i)

/-! ## Register types (R78) -/

/-- A bound of a pointer type: a signed constant, or len(mK) - c. -/
inductive Bound where
  | num (x : Int)
  | len (c : Nat)
  deriving DecidableEq, Repr, Inhabited

/-- What a register holds (Table ADM.4); `value` by its code 0x02 to 0x08, `num c` the constant of R80, and `upper` the odd
register of a pair. -/
inductive Holds where
  | dead
  | bits
  | value (code : Nat)
  | bool
  | ptr (k : Nat) (lo hi : Bound)
  | len (k : Nat)
  | sptr (lo hi : Nat)
  | acc (lo hi : Nat)
  | hnd
  | bar (scope : Nat)
  | ring
  | idx (n : Nat)
  | fn (sig : Nat)
  | win (kind : Nat)
  | num (c : Nat)
  | upper
  deriving DecidableEq, Repr, Inhabited

/-- A register type: what it holds, `uni`, and the alignment of an address type. -/
structure Ty where
  holds : Holds := .dead
  uni : Bool := false
  al : Nat := 0
  deriving DecidableEq, Repr, Inhabited

/-- Whether a type is a pair type. -/
def Ty.pair (t : Ty) : Bool :=
  match t.holds with
  | .ptr _ _ _ => true
  | .len _ => true
  | _ => false

/-- The type code and parameters of a type (R84). -/
def Holds.code (al : Nat) : Holds → Nat × Nat
  | .dead => (0, 0)
  | .bits => (1, 0)
  | .value c => (c, 0)
  | .bool => (9, 0)
  | .ptr k _ _ => (0x10, k + al * 256)
  | .len k => (0x11, k + al * 256)
  | .sptr _ _ => (0x12, al * 256)
  | .acc _ _ => (0x13, al * 256)
  | .hnd => (0x14, 0)
  | .bar s => (0x15, s)
  | .ring => (0x16, 0)
  | .idx _ => (0x17, 0)
  | .fn g => (0x18, g)
  | .win k => (0x19, k)
  | .num _ => (1, 0)
  | .upper => (1, 0)

/-- The type head word of a register, as a rejection record shows it (Table ADMF.2): 0 for a dead one. -/
def headOf (r : Nat) (t : Ty) : Nat :=
  if t.holds == .dead then 0
  else
    let c := t.holds.code t.al
    r * 2 ^ 24 + bit t.uni * 2 ^ 23 + c.1 * 2 ^ 16 + c.2

/-- A bound from its 64 bits. -/
def boundAt (v : Nat) : Bound := if 2 ^ 63 ≤ v then .len (v % 2 ^ 63) else .num (signExt v 63)

/-- A doubleword of two words of a list. -/
def twoWords (ws : List Word) (i : Nat) : Nat := (ws.getD i 0).toNat + 2 ^ 32 * (ws.getD (i + 1) 0).toNat

/-- A type entry (R84): its register and type, and the words after it.  Where the words end too early, `short`. -/
def typeEntry (short : Rej) (ws : List Word) : Except Rej ((Nat × Ty) × List Word) := do
  let h := (ws.headD 0).toNat
  let code := bitsOf h 16 7
  let p := bitsOf h 0 16
  let al := bitsOf h 8 4
  let extra := if code == 0x10 then 4 else if code == 0x12 || code == 0x13 then 2 else if code == 0x17 then 1 else 0
  need (decide (1 + extra ≤ ws.length)) short
  let w := fun i => (ws.getD i 0).toNat
  let hold ← (match code with
    | 0x00 => if bitsOf h 23 1 == 1 then .error { rule := 104, kind := 1, item := bitsOf h 24 8, detail := bitsOf h 16 8 } else .ok .dead
    | 0x01 => .ok .bits
    | 0x09 => .ok .bool
    | 0x10 => .ok (.ptr (bitsOf h 0 4) (boundAt (twoWords ws 1)) (boundAt (twoWords ws 3)))
    | 0x11 => .ok (.len (bitsOf h 0 4))
    | 0x12 => .ok (.sptr (w 1) (w 2))
    | 0x13 => .ok (.acc (w 1) (w 2))
    | 0x14 => .ok .hnd
    | 0x15 => if bitsOf h 0 3 == 7 then .error { rule := 104, kind := 1, item := bitsOf h 24 8, detail := 7 } else .ok (.bar (bitsOf h 0 3))
    | 0x16 => .ok .ring
    | 0x17 => .ok (.idx (w 1))
    | 0x18 => .ok (.fn p)
    | 0x19 => .ok (.win (bitsOf h 0 2))
    | c => if 2 ≤ c && c ≤ 8 then .ok (.value c)
      else .error { rule := 104, kind := 1, item := bitsOf h 24 8, detail := bitsOf h 16 8 } : Except Rej Holds)
  let addr := 0x10 ≤ code && code ≤ 0x13
  return ((bitsOf h 24 8, { holds := hold, uni := bitsOf h 23 1 == 1, al := if addr then al else 0 }), ws.drop (1 + extra))

/-! ## Signatures (R96, R135) -/

/-- A signature: its role, frame need, the types of its arguments and results, and its own bytes, which decide equality. -/
structure Sig where
  role : Nat := 0
  frame : Nat := 0
  args : List (Nat × Ty) := []
  results : List (Nat × Ty) := []
  bytes : List Byte := []
  deriving DecidableEq, Repr, Inhabited

/-- Type entries within a range of registers, in strictly ascending order, a pair type under its even register and with its odd
one (R135). -/
def ascending (lo hi : Nat) : List (Nat × Ty) → Bool
  | [] => true
  | (x, t) :: rest =>
    let last := x + bit t.pair
    decide (lo ≤ x) && decide (last ≤ hi) && (!t.pair || x % 2 == 0) && ascending (last + 1) hi rest

/-- A signature record at a byte offset of the annotation section. -/
def sigAt (ann : List Byte) (off : Nat) : Except Rej Sig := do
  let bad := layout 3 off
  need (decide (off + 8 ≤ ann.length)) bad
  let w0 := num ann off 4
  let nargs := bitsOf w0 8 5
  let nres := bitsOf w0 16 3
  need (bitsOf w0 2 6 == 0 && bitsOf w0 13 3 == 0 && bitsOf w0 19 13 == 0 && decide (nargs ≤ 16) && decide (nres ≤ 4)) bad
  let ws := toWords (ann.drop (off + 8))
  let (args, rest) ← readMany (typeEntry bad) nargs ws
  let (results, rest) ← readMany (typeEntry bad) nres rest
  need (ascending 8 23 args && ascending 8 11 results) bad
  return { role := bitsOf w0 0 2, frame := num ann (off + 4) 4, args := args, results := results
           bytes := (ann.drop off).take (8 + 4 * (ws.length - rest.length)) }

/-! ## Exports, imports, tables, headers (R134) -/

/-- An export: name hash, signature index, FN, REPLACE, the kernel header's offset, and the entry block of each role. -/
structure Export where
  name : Nat
  sig : Nat
  isFn : Bool
  replaces : Bool
  header : Nat
  blocks : List Nat
  decl : KernelDecl := {}
  deriving DecidableEq, Repr, Inhabited

/-- An import: name hash, signature index, and the word offset of the patched MOVI. -/
structure Import where
  name : Nat
  sig : Nat
  word : Nat
  deriving DecidableEq, Repr, Inhabited

/-- A region declaration of a kernel header (Table ENC.15). -/
def declAt (ann : List Byte) (off : Nat) : Except Rej RegionDecl := do
  let w := num ann off 4
  let goff := num ann (off + 4) 4
  let rights := bitsOf w 8 2
  let guard := bitsOf w 16 1 == 1
  let bad := layout 3 w
  need (bitsOf w 24 8 == 0 && bitsOf w 17 3 == 0 && bitsOf w 10 6 == 0 && decide (bitsOf w 0 8 ≤ 5)) bad
  need (if guard then goff % 4 == 0 else bitsOf w 20 4 == 0 && goff == 0) bad
  need (rights != 0 || num ann off 16 == 0) bad
  return { cls := bitsOf w 0 8, rights := rights, minLen := num ann (off + 8) 8
           guard := if guard then some (bitsOf w 20 4, goff) else none }

/-- A kernel header: its fields packed in the order of Table ADM.3, 28 bytes, then sixteen region declarations. (Log 119: DESIGN CHOICE, unsafe.) -/
def headerAt (ann : List Byte) (off : Nat) : Except Rej KernelDecl := do
  need (decide (off + 284 ≤ ann.length)) (layout 3 off)
  let b := fun i => num ann (off + i) 1
  let (regions, _) ← readMany (fun k => do
    let d ← declAt ann (off + 28 + 16 * k)
    return (d, k + 1)) 16 0
  return { regs := b 0 + 1, roles := b 1, handles := b 2
           bCore := b 3, bQuad := b 4, bDie := b 5, bPkg := b 6, bPod := b 7
           scratch := num ann (off + 8) 4, accb := num ann (off + 12) 4, stack := num ann (off + 16) 4
           params := (List.range 16).map fun i => bitsOf (num ann (off + 20) 8) (4 * i) 4
           regions := regions }

/-! ## The image -/

/-- An image, its sections taken apart. -/
structure Image where
  sys : Bool := false
  travel : Bool := false
  codeOff : Nat := 0
  code : List Word := []
  blocks : List (Nat × Nat) := []
  ann : List Byte := []
  sigs : List Sig := []
  segs : List Nat := []
  exports : List Export := []
  imports : List Import := []
  tables : List (Nat × List Int) := []
  deriving DecidableEq, Repr, Inhabited

/-- A section: type, offset and size. -/
structure Section where
  type : Nat
  off : Nat
  size : Nat
  deriving DecidableEq, Repr, Inhabited

/-- One entry of the section table (Table ENC.12). -/
def sectionAt (img : List Byte) (off : Nat) : Except Rej Section := do
  let type := num img off 4
  let align := num img (off + 4) 4
  let o := num img (off + 8) 8
  let size := num img (off + 16) 8
  need (decide (1 ≤ type) && decide (type ≤ 8) && type != 6) (layout type type)
  need (decide (2 ≤ align) && decide (align ≤ 16) && (type != 1 || align == 16)) (layout type align)
  need (o % 2 ^ align == 0) (layout type o)
  need (decide (o + size ≤ img.length)) (layout type size)
  need (num img (off + 24) 8 == 0) (layout type (num img (off + 24) 8))
  return { type := type, off := o, size := size }

/-- Two sections of one type, or that overlap. -/
def clash (a b : Section) : Bool :=
  a.type == b.type || (a.size != 0 && b.size != 0 && decide (a.off < b.off + b.size) && decide (b.off < a.off + a.size))

/-- The bytes of a section; none where the image has none of the type. -/
def sectionBytes (img : List Byte) (ss : List Section) (type : Nat) : List Byte :=
  match ss.find? fun x => x.type == type with
  | some x => (img.drop x.off).take x.size
  | none => []

/-- An export record (R134); a kernel, which no call reaches, needs no signature, and the
bits that the table gives no content are 0. (Log 174: DESIGN CHOICE, unsafe; 175: DESIGN CHOICE, unsafe.) -/
def exportAt (sigs : Nat) (ann bs : List Byte) (off : Nat) : Except Rej Export := do
  need (decide (off + 32 ≤ bs.length)) (layout 4 off)
  let w := num bs (off + 8) 4
  let header := num bs (off + 12) 4
  let isFn := bitsOf w 16 1 == 1
  need (bitsOf w 18 14 == 0 && (!isFn || decide (bitsOf w 0 16 < sigs))) (layout 4 w)
  need (isFn == (header == noWord)) (layout 4 header)
  let decl ← if isFn then .ok {} else headerAt ann header
  return { name := num bs off 8, sig := bitsOf w 0 16, isFn := isFn, replaces := bitsOf w 17 1 == 1, header := header
           blocks := (List.range 4).map fun i => num bs (off + 16 + 4 * i) 4, decl := decl }

/-- An import record (R134): its word is a MOVI with a prefix before it. (Log 175: DESIGN CHOICE, unsafe.) -/
def importAt (sigs : Nat) (code : List Word) (bs : List Byte) (off : Nat) : Except Rej Import := do
  need (decide (off + 16 ≤ bs.length)) (layout 4 off)
  let sig := num bs (off + 8) 4
  let word := num bs (off + 12) 4
  need (decide (sig < sigs)) (layout 4 sig)
  need (decide (1 ≤ word) && decide (word < code.length) && (code.getD word 0) >>> 24 == 0x3A#32 &&
    (code.getD (word - 1) 0) >>> 28 == 0xF#32) (layout 4 word)
  return { name := num bs off 8, sig := sig, word := word }

/-- A jump table at its byte offset: the word offset of its BRX, and its displacements. -/
def tableAt (bs : List Byte) (off : Nat) : Except Rej (Nat × List Int) := do
  need (decide (off + 8 ≤ bs.length)) (layout 5 off)
  let n := num bs off 4
  need (decide (off + 8 + 4 * n ≤ bs.length)) (layout 5 n)
  return (num bs (off + 4) 4, (List.range n).map fun i => signExt (num bs (off + 8 + 4 * i) 4) 32)

/-- The jump-table section: a count, and one byte offset per table. -/
def tablesIn (bs : List Byte) : Except Rej (List (Nat × List Int)) := do
  if bs.isEmpty then return []
  let n := num bs 0 4
  need (decide (4 ≤ bs.length) && decide (4 + 4 * n ≤ bs.length)) (layout 5 n)
  let (ts, _) ← readMany (fun i => do
    let t ← tableAt bs (num bs (4 + 4 * i) 4)
    return (t, i + 1)) n 0
  return ts

/-- The words of a segment of a list (R304). -/
def segmentWords (words : Nat) (segs : List Nat) (i : Nat) : Nat := segs.getD (i + 1) words - segs.getD i 0

/-- The number of the first segment of a list that breaks R304, its length apart, which is a rule of the layout (R134). -/
def badSegment (words : Nat) (starts : List Nat) (segs : List Nat) : Option Nat :=
  if segs.isEmpty then some 0
  else (List.range segs.length).find? fun i =>
    let a := segs.getD i 0
    let b := segs.getD (i + 1) words
    (i == 0 && a != 0) || decide (b ≤ a) || !starts.contains a

/-- The annotation section's header: the signatures and the segment list; rule 703 with them (R382). -/
def annIn (sys travel : Bool) (words : Nat) (starts : List Nat) (ann : List Byte) : Except Rej (List Sig × List Nat) := do
  need (decide (16 ≤ ann.length)) (layout 3 ann.length)
  let nsig := num ann 0 4
  let dir := num ann 4 4
  let nseg := num ann 8 4
  let list := num ann 12 4
  need (decide (dir + 4 * nsig ≤ ann.length)) (layout 3 dir)
  let (sigs, _) ← readMany (fun i => do
    let g ← sigAt ann (num ann (dir + 4 * i) 4)
    return (g, i + 1)) nsig 0
  need (travel || nseg == 0) (layout 3 nseg)
  need (decide (list + 4 * nseg ≤ ann.length)) (layout 3 list)
  let segs := (List.range nseg).map fun i => num ann (list + 4 * i) 4
  need ((List.range nseg).all fun i => decide (segmentWords words segs i ≤ 16384)) (layout 3 list)
  if travel && !sys then
    match badSegment words starts segs with
    | some i => .error { rule := 703, kind := 8, item := i, detail := 0 }
    | none => return (sigs, segs)
  else return (sigs, segs)

/-- The header and the section table (R132, R133). -/
def sectionsIn (img : List Byte) (kind : Nat) : Except Rej (Nat × List Section) := do
  let w := fun off n => num img off n
  need (decide (64 ≤ img.length)) (layout 0 img.length)
  need (w 0 4 == 0x5952424C) (layout 0 (w 0 4))
  need (w 4 2 == 1) (layout 0 (w 4 2))
  need (w 6 2 == 2) (layout 0 (w 6 2))
  need (decide (1 ≤ w 8 4) && decide (w 8 4 ≤ 32)) (layout 0 (w 8 4))
  need (bitsOf (w 12 4) 2 30 == 0) (layout 0 (w 12 4))
  need (bitsOf (w 12 4) 1 1 == kind) (layout 0 (bitsOf (w 12 4) 1 1))
  need (w 16 8 % 32 == 0 && decide (w 16 8 + 32 * w 8 4 ≤ img.length)) (layout 0 (w 16 8))
  need (((img.drop 0x18).take 0x28).all fun b => b == 0#8) (layout 0 0)
  let (ss, _) ← readMany (fun i => do
    let x ← sectionAt img (w 16 8 + 32 * i)
    return (x, i + 1)) (w 8 4) 0
  match (List.range ss.length).find? fun i => (ss.take i).any (clash (ss.getD i default)) with
  | some i => .error (layout (ss.getD i default).type (ss.getD i default).off)
  | none => return (w 12 4, ss)

/-- An image read from its bytes, for a request of a kind (R73): structure only, in the order of R382 item 1. (Log 119: DESIGN CHOICE, unsafe; 176: DESIGN CHOICE, unsafe.) -/
def imageOf (img : List Byte) (kind : Nat) : Except Rej Image := do
  let (flags, ss) ← sectionsIn img kind
  let part := sectionBytes img ss
  let sys := bitsOf flags 1 1 == 1
  let travel := bitsOf flags 0 1 == 1
  need ((part 1).length % 4 == 0) (layout 1 (part 1).length)
  let code := toWords (part 1)
  need ((part 2).length % 8 == 0) (layout 2 (part 2).length)
  let blocks := (List.range ((part 2).length / 8)).map fun i => (num (part 2) (8 * i) 4, num (part 2) (8 * i + 4) 4)
  let (sigs, segs) ← annIn sys travel code.length (blocks.map (·.1)) (part 3)
  let et := part 4
  need (decide (8 ≤ et.length)) (layout 4 et.length)
  let nexp := num et 0 4
  need (decide (8 + 32 * nexp ≤ et.length)) (layout 4 nexp)
  let (exports, _) ← readMany (fun i => do
    let x ← exportAt sigs.length (part 3) et (4 + 32 * i)
    return (x, i + 1)) nexp 0
  let at' := 4 + 32 * nexp
  let nimp := num et at' 4
  let (imports, _) ← readMany (fun i => do
    let x ← importAt sigs.length code et (at' + 4 + 16 * i)
    return (x, i + 1)) nimp 0
  let tables ← tablesIn (part 5)
  return { sys := sys, travel := travel
           codeOff := ((ss.find? fun x => x.type == 1).map (·.off)).getD 0
           code := code, blocks := blocks, ann := part 3, sigs := sigs, segs := segs, exports := exports
           imports := imports, tables := tables }

/-! ## Annotations (R84) -/

/-- An open join of an annotation: the join label, C, and W. -/
structure OpenJoin where
  label : Nat
  conv : Bool
  written : BitVec 256
  deriving DecidableEq, Repr, Inhabited

/-- A block's annotation. -/
structure Annot where
  role : Nat := 0
  conv : Bool := false
  split : Option Nat := .none
  isFn : Bool := false
  fnSig : Option Nat := .none
  joins : List OpenJoin := []
  locks : List (Nat × Nat) := []
  types : List (Nat × Ty) := []
  deriving DecidableEq, Repr, Inhabited

/-- The first word of a list, taken. -/
def takeOne (short : Rej) (ws : List Word) : Except Rej (Nat × List Word) :=
  match ws with
  | w :: rest => .ok (w.toNat, rest)
  | [] => .error short

/-- An open-join entry of nine words; the entries come outermost first. -/
def joinEntry (short : Rej) (ws : List Word) : Except Rej (OpenJoin × List Word) := do
  need (decide (9 ≤ ws.length)) short
  let w0 := (ws.headD 0).toNat
  let mask := (List.range 8).foldl (fun m i => m + (ws.getD (i + 1) 0).toNat * 2 ^ (32 * i)) 0
  return ({ label := bitsOf w0 0 31, conv := bitsOf w0 31 1 == 1, written := BitVec.ofNat 256 mask }, ws.drop 9)

/-- A lock entry: token and bound register. -/
def lockEntry (short : Rej) (ws : List Word) : Except Rej ((Nat × Nat) × List Word) := do
  let (w, rest) ← takeOne short ws
  need (bitsOf w 0 21 == 0) { rule := 102, detail := bitsOf w 0 21 }
  return ((bitsOf w 29 3, bitsOf w 21 8), rest)

/-- A word taken only where a flag says it is there. -/
def takeIf (there : Bool) (short : Rej) (ws : List Word) : Except Rej (Option Nat × List Word) :=
  if there then (takeOne short ws).map fun x => (some x.1, x.2) else .ok (none, ws)

/-- The annotation record at a byte offset; rule 407 where it does not lie in the annotation section. -/
def annotAt (ann : List Byte) (off : Nat) : Except Rej Annot := do
  let short : Rej := { rule := 407 }
  need (decide (off + 4 ≤ ann.length) && off % 4 == 0) short
  let (w, rest) ← takeOne short (toWords (ann.drop off))
  need (bitsOf w 9 9 == 0) { rule := 102, detail := bitsOf w 9 9 }
  need (decide (bitsOf w 20 4 ≤ 8)) { rule := 104, detail := bitsOf w 20 4 }
  need (decide (bitsOf w 0 9 ≤ 256)) { rule := 104, detail := bitsOf w 0 9 }
  need (bitsOf w 19 1 == 0 || bitsOf w 18 1 == 1) { rule := 104, detail := bitsOf w 18 2 }
  let (fnSig, rest) ← takeIf (bitsOf w 18 1 == 1) short rest
  let (split, rest) ← takeIf (bitsOf w 28 1 == 1) short rest
  let (joins, rest) ← readMany (joinEntry short) (bitsOf w 24 4) rest
  let (locks, rest) ← readMany (lockEntry short) (bitsOf w 20 4) rest
  let (types, _) ← readMany (typeEntry short) (bitsOf w 0 9) rest
  return { role := bitsOf w 30 2, conv := bitsOf w 29 1 == 1, split := split, isFn := bitsOf w 19 1 == 1, fnSig := fnSig
           joins := joins, locks := locks, types := types }

end Sys2Proof.Machine
end

