-- ==== Sys2Proof/Machine/Verify.lean ====
section
/-! DEFINITION. The admission walk (R78 to R99, R379 to R384): subtyping, the obligations of Table ADM.6, the transfer of
Table ADM.7, and the rules of Tables ADMF.3 to ADMF.8, each check in the order of R382. -/

namespace Sys2Proof.Machine

open Sys2Proof

/-! ## Subtyping (R79, R80) -/

/-- A declared region. (Log 108: DEDUCED, unsafe.) -/
def KernelDecl.region (d : KernelDecl) (k : Nat) : RegionDecl := d.regions.getD k {}

/-- minlen(mK). -/
def KernelDecl.minLen (d : KernelDecl) (k : Nat) : Nat := (d.region k).minLen

/-- Barriers that a header declares at a scope. -/
def KernelDecl.barriers (d : KernelDecl) (scope : Nat) : Nat := [0, d.bCore, d.bQuad, d.bDie, d.bPkg, d.bPod].getD scope 0

/-- Comparison of bounds over one region of minimum length `ml` (R79). -/
def Bound.le (ml : Nat) : Bound → Bound → Bool
  | .num x, .num y => decide (x ≤ y)
  | .num x, .len c => decide (x + c ≤ ml)
  | .len a, .len b => decide (b ≤ a)
  | .len _, .num _ => false

/-- Trailing zero bits of a constant, capped at 12 (R80); 0 has as many as the cap. -/
def zerosBelow (c : Nat) : Nat := if c == 0 then 12 else ((List.range 12).takeWhile fun i => c % 2 ^ (i + 1) == 0).length

/-- Whether one content is below another, uni apart. -/
def holdsLe (d : KernelDecl) (t u : Ty) : Bool :=
  match t.holds, u.holds with
  | .ptr k lo hi, .ptr k' lo' hi' =>
    k == k' && lo'.le (d.minLen k) lo && hi.le (d.minLen k) hi' && decide (u.al ≤ t.al)
  | .sptr lo hi, .sptr lo' hi' => decide (lo' ≤ lo) && decide (hi ≤ hi') && decide (u.al ≤ t.al)
  | .acc lo hi, .acc lo' hi' => decide (lo' ≤ lo) && decide (hi ≤ hi') && decide (u.al ≤ t.al)
  | .idx n, .idx m => decide (n ≤ m)
  | .idx _, .value 3 => true
  | .idx _, .bits => true
  | .value _, .bits => true
  | .bool, .bits => true
  | .hnd, .bits => true
  | .bar _, .bits => true
  | .fn _, .bits => true
  | .win _, .bits => true
  | .num c, .idx n => decide (c < n)
  | .num c, .value 3 => decide (c < 2 ^ 32 - 1)
  | .num c, .sptr lo hi => decide (lo ≤ c) && decide (c ≤ hi) && decide (u.al ≤ zerosBelow c)
  | .num c, .acc lo hi => decide (lo ≤ c) && decide (c ≤ hi) && decide (u.al ≤ zerosBelow c)
  | .num c, .hnd => decide (c < d.handles)
  | .num c, .bar s => decide (c < d.barriers s)
  | .num c, .win k => decide (c < 16) && (d.region c).rights != 0 && (d.region c).cls == 3 + k
  | .num _, .bits => true
  | a, b => a == b

/-- Subtyping of R79, with the constants of R80. -/
def Ty.le (d : KernelDecl) (t u : Ty) : Bool := u.holds == .dead || ((t.uni || !u.uni) && holdsLe d t u)

/-- Whether a type is below `bits`, as a 32-bit value operand takes it. -/
def Ty.isValue (t : Ty) : Bool := t.le {} { holds := .bits }

/-! ## The state of the walk (R85) -/

/-- Types by register, held locks with the registers bound, open joins outermost first, CONV, ROLE, and the function. -/
structure WalkState where
  regs : List Ty := []
  locks : List (Nat × Nat) := []
  joins : List OpenJoin := []
  conv : Bool := false
  role : Nat := 0
  fnSig : Option Nat := .none
  deriving DecidableEq, Repr

/-- The type of a register. -/
def WalkState.ty (s : WalkState) (r : Nat) : Ty := s.regs.getD r {}

/-- Type entries as a register file: a pair type covers its odd register too. -/
def typesOf (ts : List (Nat × Ty)) : List Ty :=
  ts.foldl (fun rs x =>
    let rs := rs.set x.1 x.2
    if x.2.pair then rs.set (x.1 + 1) { holds := .upper, uni := x.2.uni } else rs) (List.replicate 256 {})

/-- The state that an annotation states. -/
def Annot.state (a : Annot) : WalkState :=
  { regs := typesOf a.types, locks := a.locks, joins := a.joins, conv := a.conv, role := a.role, fnSig := a.fnSig }

/-- What the walk of a block knows. -/
structure Checked where
  img : Image
  /-- The module is checked under the rules of a system image only (R384). -/
  sys : Bool
  decl : KernelDecl
  /-- The signatures that R103 gives the patched MOVIs, by word offset. -/
  patched : List (Nat × Nat)
  start : Nat
  stop : Nat
  ann : Annot
  deriving DecidableEq, Repr

/-- The rules that R384 applies to a system image. (Log 107: DEDUCED, unsafe.) -/
def sysRule (r : Nat) : Bool :=
  (101 ≤ r && r ≤ 106) || (402 ≤ r && r ≤ 410) || r == 603 || r == 604 || (801 ≤ r && r ≤ 806) || r == 808

/-- The first failure of the lowest rule among those that apply. -/
def leastRej (sys : Bool) (rs : List Rej) : Except Rej Unit :=
  match argMin Rej.rule (rs.filter fun r => !sys || sysRule r.rule) with
  | none => .ok ()
  | some r => .error r

/-- A failure where a test holds. -/
def failIf (b : Bool) (r : Rej) : List Rej := if b then [r] else []

/-- The block that starts at a word, with its annotation; none where no block does or its annotation cannot be read. -/
def annotOf (m : Image) (start : Nat) : Option Annot :=
  match m.blocks.find? fun b => b.1 == start with
  | none => none
  | some b => (annotAt m.ann b.2).toOption

/-- Whether a block starts at a word of the code section. -/
def startsBlock (m : Image) (w : Nat) : Bool := decide (w < m.code.length) && m.blocks.any fun b => b.1 == w

/-- The segment of a word (R304). -/
def Image.segment (m : Image) (w : Nat) : Nat := (m.segs.filter fun a => decide (a ≤ w)).length - 1

/-- DETAIL of rules 402 to 405 (Table ADMF.2). -/
def flowDetail (s : WalkState) (t : Option WalkState) : Nat :=
  s.joins.length % 16 + bit s.conv * 16 +
    (match t with
      | some t => t.joins.length % 16 * 256 + bit t.conv * 4096
      | none => 0)

/-- The tokens of a lock set as bits. -/
def tokenBits (ls : List (Nat × Nat)) : Nat := (List.range 8).foldl (fun n t => n + bit (ls.any fun l => l.1 == t) * 2 ^ t) 0

/-! ## Instructions -/

/-- An instruction of the code section: its address in words, its length, and its fields. -/
structure Ins where
  pos : Nat
  len : Nat
  word : Word
  pfx : Option Pfx
  i : Instr
  deriving DecidableEq, Repr

def Ins.op (x : Ins) : Nat := bitsOf x.word.toNat 24 8
def Ins.d (x : Ins) : Nat := bitsOf x.word.toNat 16 8
def Ins.a (x : Ins) : Nat := bitsOf x.word.toNat 8 8
def Ins.b (x : Ins) : Nat := bitsOf x.word.toNat 0 8
/-- Bits of the word from `lo`. -/
def Ins.bits (x : Ins) (lo n : Nat) : Nat := bitsOf x.word.toNat lo n
/-- The third source (R121). -/
def Ins.c (x : Ins) : Nat := thirdReg x.pfx x.d
/-- The signed immediate or displacement in the low `n` bits, extended by X5. -/
def Ins.imm (x : Ins) (n : Nat) : Int := immSigned x.pfx (BitVec.ofNat n x.word.toNat)
/-- The same, zero-extended. -/
def Ins.immZ (x : Ins) (n : Nat) : Nat := immZero x.pfx (BitVec.ofNat n x.word.toNat)
/-- The word after the instruction. -/
def Ins.next (x : Ins) : Nat := x.pos + x.len
/-- The hint field of a branch. -/
def Ins.hint (x : Ins) : Nat := if x.op == 0x02 || x.op == 0x05 then x.bits 22 2 else x.bits 14 2
/-- BRC or BRZ. -/
def Ins.isCond (x : Ins) : Bool := x.op == 0x03 || x.op == 0x04
/-- A branch that splits. -/
def Ins.splits (x : Ins) : Bool := x.isCond && x.hint != 3
/-- Whether its own prefix guards it; the walk's state (R85) holds no guard of MODE. (Log 110: DEDUCED, unsafe.) -/
def Ins.guarded (x : Ins) : Bool := x.pfx.any fun p => p.gv
/-- A word offset as an integer. -/
def Ins.target (x : Ins) : Int := (x.pos : Int) + (if x.op == 0x02 || x.op == 0x05 then x.imm 22 else x.imm 14)
/-- Bytes per lane of a memory access (Tables ISAM.2, ISAM.5). -/
def Ins.size (x : Ins) : Nat :=
  let op := x.op
  if op == 0x80 || op == 0x81 || op == 0x87 then 1
  else if op == 0x82 || op == 0x83 || op == 0x88 then 2
  else if op == 0x85 || op == 0x8A || op == 0xAB || op == 0xAC then 8
  else if op == 0x86 || op == 0x8B || op == 0x8D || op == 0x95 || op == 0x96 then 16
  else 4
/-- The byte offset of a plain memory form. -/
def Ins.off (x : Ins) : Int :=
  let op := x.op
  if (0x80 ≤ op && op ≤ 0x8F) || (0x93 ≤ op && op ≤ 0x96) then x.imm 8 * x.size else 0
/-- A constant as R80 knows it, 32 bits. -/
def wrap32 (v : Int) : Nat := (v % 2 ^ 32).toNat

/-- The fields of a mask: its runs of bits, split where another field of the format starts; lowest bit and width, highest first. -/
def maskFields (cuts : List Nat) (mask : Nat) : List (Nat × Nat) :=
  let set := fun i => bitsOf mask i 1 == 1
  let start := fun i => set i && (i == 0 || !set (i - 1) || cuts.contains i)
  let width := fun lo => ((List.range (31 - lo)).takeWhile fun k => set (lo + k + 1) && !start (lo + k + 1)).length + 1
  (((List.range 32).filter start).map fun lo => (lo, width lo)).reverse

/-- The value of the highest field of a mask that is not 0, right-aligned (Table ADMF.2). -/
def offending (cuts : List Nat) (v mask : Nat) : Nat :=
  (((maskFields cuts mask).map fun f => bitsOf v f.1 f.2).find? fun x => x != 0).getD 0

/-- The prefix bits that a word does not accept (rule 102). -/
def refusedBits (k : Accepts) (p : Pfx) : Nat :=
  (if k.zeroing then 0 else 2 ^ 27) + (if k.rounding then 0 else 2 ^ 26) + (if k.rounding && p.rv then 0 else 7 * 2 ^ 23) +
    (if k.guard then 0 else 255 * 2 ^ 15 + 2 ^ 14) + (if k.guard && p.gv then 0 else 2 ^ 13) +
    (if k.extend then 0 else 31 * 2 ^ 8) + (if k.fourth then 0 else 255)

/-- The fields of a prefix word, from Z down. -/
def pfxFields : List (Nat × Nat) := [(27, 1), (26, 1), (23, 3), (15, 8), (14, 1), (13, 1), (8, 5), (0, 8)]

/-- The field that breaks rule 102, of the word, else of its prefix. -/
def zeroDetail (pre word : Word) : Nat :=
  match opRow word with
  | none => 0
  | some r =>
    let v := offending [8, 16] word.toNat (zerosOf word r).toNat
    if v != 0 then v
    else
      match (r.build (some (pfxOf pre)) word).carried with
      | none => 0
      | some (k, p) =>
        ((pfxFields.map fun f => bitsOf (pre.toNat &&& refusedBits k p) f.1 f.2).find? fun x => x != 0).getD 0

/-- The field that holds a reserved value (rule 104). (Log 112: DEDUCED, unsafe.) -/
def reservedDetail (i : Instr) (w : Nat) : Nat :=
  let rm := (i.carried.map fun x => x.2.rm.toNat).getD 0
  let op := bitsOf w 24 8
  if 5 ≤ rm then rm
  else if op == 0x8F || op == 0x0F then bitsOf w 16 8
  else
    match i with
    | .br _ h _ | .call _ h _ => h.toNat
    | .setmode p => if etOk (p.extractLsb' 10 4) then bitsOf p.toNat 14 3 else bitsOf p.toNat 10 4
    | .movx _ _ x | .xmov _ _ x => x.toNat
    | .cvtf _ _ _ k _ | .cvtfi _ _ _ k _ | .cvtif _ _ _ k _ | .cvtn _ _ _ _ k _ | .cvtw _ _ _ _ k _ => k.toNat
    | .lock _ _ s | .unlock _ _ s | .bar _ _ s | .bararv _ s | .barwt _ _ s | .barexp _ _ s => s.toNat
    | .sadd _ _ _ s q | .scas _ _ _ s q | .sxchg _ _ _ s q => if 2 ≤ s.toNat then s.toNat else q.toNat
    | .ldacq _ _ _ s q | .strel _ _ _ s q | .fence s q | .aadd _ _ _ s q | .amin _ _ _ s q | .amax _ _ _ s q | .aand _ _ _ s q
    | .aor _ _ _ s q | .axor _ _ _ s q | .axchg _ _ _ s q | .acas _ _ _ s q | .ainc _ _ _ s q | .afadd _ _ _ s q
    | .afadd2 _ _ _ s q | .aadd64 _ _ _ s q | .acas64 _ _ _ s q => if s == 7#3 then 7 else q.toNat
    | .tbld _ _ k _ _ | .taccst _ _ k _ => k.toNat
    | .perf _ n => n.toNat
    | _ => 0

/-- The register field that breaks R111 (rule 106): the first that breaks it with the other register fields at 0. -/
def runDetail (pre : Option Word) (w : Word) : Nat :=
  let op := (w >>> 24).toNat
  let keepB := op == 0x7F || op == 0x97 || op == 0x98
  let low : Word := if keepB then 0xFF#32 else 0
  let bad := fun (p : Option Word) (m : Word) => (match decodeWord (p.map pfxOf) (w &&& (0xFF000000#32 ||| m)) with
    | .error e => e == Reject.pairRun
    | .ok _ => false : Bool)
  let bare := pre.map fun p => p &&& 0xFFFFFF00#32
  if bad bare (0xFF0000#32 ||| low) then bitsOf w.toNat 16 8
  else if bad bare (0xFF00#32 ||| low) then bitsOf w.toNat 8 8
  else if bad bare 0xFF#32 then bitsOf w.toNat 0 8
  else pre.elim 0 fun (p : Word) => bitsOf p.toNat 0 8

/-- DETAIL of a word that does not decode. -/
def codeDetail (e : Reject) (pre : Option Word) (w : Word) : Nat :=
  match e with
  | .opcode => bitsOf w.toNat 24 8
  | .zeroField => zeroDetail (pre.getD 0) w
  | .reserved => (opRow w).elim 0 fun r => reservedDetail (r.build (pre.map pfxOf) w) w.toNat
  | .pairRun => runDetail pre w
  | .pfxUse | .truncated => 0

/-- The instruction of a block at a word; rules 101 to 104 and 106 where there is none.  A prefix takes no word of another
block or segment (R119). -/
def insAt (c : Checked) (pos : Nat) : Except Rej Ins :=
  let w := c.img.code.getD pos 0
  let pre := isPfxWord w
  let next := if pre && decide (pos + 1 < c.stop) && c.img.segment pos == c.img.segment (pos + 1) then some (c.img.code.getD (pos + 1) 0) else none
  let word := next.getD w
  match decodePair w next with
  | .ok i => .ok { pos := pos, len := if pre then 2 else 1, word := word, pfx := if pre then some (pfxOf w) else none, i := i }
  | .error e =>
    let rule := match e with
      | .opcode => 101
      | .zeroField => 102
      | .pfxUse => 103
      | .reserved => 104
      | .pairRun => 106
      | .truncated => 103
    let v := codeDetail e (if pre then some w else none) word
    .error { rule := rule, detail := v, block := c.start, word := pos, instr := if isPfxWord word then 0 else word }

/-! ## What an instruction takes -/

/-- A register that an instruction reads: as a 32-bit value; as a value, sptr or acc (Table ADM.5); or whatever it holds. -/
inductive Take where
  | value (r : Nat)
  | addr (r : Nat)
  | any (r : Nat)
  deriving DecidableEq, Repr

def Take.reg : Take → Nat
  | .value r => r
  | .addr r => r
  | .any r => r

/-- Whether a type serves a read. -/
def Take.fits (t : Ty) : Take → Bool
  | .value _ => t.isValue
  | .addr _ => t.isValue || (match t.holds with
    | .sptr _ _ => true
    | .acc _ _ => true
    | _ => false)
  | .any _ => t.holds != .dead

/-- A run of registers read whole. -/
def anyRun (r n : Nat) : List Take := (regRun r n).map .any

/-- The elements of the runs of CVTN and CVTW (R191). -/
def packRun (v : Nat) : Nat := if v == 0 then 2 else if v == 3 then 8 else 4

/-- Reads of rows 0x to 3x. -/
def takesLow (x : Ins) : List Take :=
  let op := x.op
  if x.isCond then [.value x.d]
  else if op == 0x0D then [.any x.d]
  else if op == 0x06 then [.any x.a]
  else if op < 0x10 then []
  else if op == 0x10 then [.addr x.a, .addr x.b]
  else if op == 0x14 || op == 0x1D || op == 0x28 || (0x2A ≤ op && op ≤ 0x2D) then [.value x.a, .value x.b, .value x.c]
  else if op == 0x29 then [.value x.a, .value x.b, .value x.d]
  else if op == 0x2E then [.any x.a]
  else if op == 0x1E || op == 0x1F || (0x24 ≤ op && op ≤ 0x26) || op == 0x2F then [.value x.a]
  else if op < 0x30 then [.value x.a, .value x.b]
  else if op == 0x30 || op == 0x34 then [.addr x.a]
  else if op ≤ 0x39 then [.value x.a]
  else if op == 0x3B then [.value x.d]
  else if op == 0x3D then [.value x.a]
  else if op == 0x3E then [.any x.a]
  else if op == 0x3F then [.any x.a, .value x.d]
  else []

/-- Reads of rows 4x to 7x. -/
def takesMid (x : Ins) : List Take :=
  let op := x.op
  let v := x.bits 0 2
  if op == 0x40 || op == 0x42 || op == 0x4C then anyRun x.a 2 ++ anyRun x.b 2
  else if op == 0x43 || op == 0x47 then anyRun x.a 2
  else if op == 0x48 then [.value x.a, .value x.b]
  else if op == 0x49 then [.value x.a, .value x.b] ++ anyRun x.c 2
  else if op < 0x4D then anyRun x.a 2 ++ [.value x.b]
  else if op == 0x4D then anyRun x.d 2
  else if op == 0x4E then [.value x.d]
  else if op == 0x4F then [.addr x.d]
  else if op == 0x53 || op == 0x69 then [.value x.a, .value x.b, .value x.c]
  else if op == 0x5E then [.value x.a, .value x.d]
  else if op == 0x5C || op == 0x5D || (0x60 ≤ op && op ≤ 0x68) then [.value x.a]
  else if op < 0x60 then [.value x.a, .value x.b]
  else if op == 0x6A then (regRun x.a (if v < 2 then 2 else 1)).map .value
  else if op == 0x6D then (regRun x.a (packRun v)).map .value
  else if op < 0x70 then [.value x.a]
  else if op < 0x74 then [.any x.a, .value x.b]
  else if op == 0x7D then []
  else if op == 0x7F then anyRun x.a (x.bits 0 4 + 1)
  else [.value x.a]

/-- The data registers that a store, atomic or run reads. (Log 115: DEDUCED, unsafe.) -/
def takesData (x : Ins) : List Take :=
  let op := x.op
  if op == 0x87 || op == 0x88 || op == 0x89 || op == 0x8E || op == 0x91 || op == 0x94 then [.value x.d]
  else if op == 0x8A then anyRun x.d 2
  else if op == 0x8B || op == 0x96 then anyRun x.d 4
  else if op == 0x98 then anyRun x.d (x.bits 3 5 + 1)
  else if op == 0xA7 || op == 0xAE then [.value x.d, .value x.c]
  else if op == 0xAC then anyRun x.d 2 ++ anyRun x.c 2
  else if op == 0xAB then anyRun x.d 2
  else if 0xA0 ≤ op && op ≤ 0xAF then [.value x.d]
  else []

/-- Whether the address field of a row 8x to Ax word is one register. -/
def Ins.single (x : Ins) : Bool := (0x93 ≤ x.op && x.op ≤ 0x96) || 0xAD ≤ x.op

/-- Reads of rows 8x to Ax. -/
def takesMem (x : Ins) : List Take :=
  if x.op == 0x92 then [] else (if x.single then [.any x.a] else anyRun x.a 2) ++ takesData x

/-- The source and destination kinds of a copy, where its control word is a known constant. -/
def copyKinds (s : WalkState) (x : Ins) : Option (Nat × Nat) :=
  match (s.ty (x.b + 1)).holds with
  | .num v => some (bitsOf v 4 2, bitsOf v 0 2)
  | _ => none

/-- Reads of rows Bx to Ex. -/
def takesEng (s : WalkState) (x : Ins) : List Take :=
  let op := x.op
  if op == 0xB0 || op == 0xB1 || op == 0xB2 || op == 0xB6 || op == 0xB8 then [.any x.a]
  else if op == 0xB3 then [.value x.d, .any x.a]
  else if op == 0xB5 || op == 0xC5 then [.value x.a]
  else if op == 0xB7 then if x.bits 6 2 < 2 then [.any x.d, .any x.a] else [.any x.d]
  else if op == 0xC0 || op == 0xC1 || op == 0xC2 then
    let ks := (copyKinds s x).getD (1, 1)
    anyRun x.d (if ks.2 == 0 then 2 else 1) ++ anyRun x.a (if ks.1 == 0 then 2 else 1) ++
      anyRun x.b (if op == 0xC2 then 4 else 2)
  else if op == 0xC3 || op == 0xC4 || op == 0xE4 then anyRun x.a 2
  else if op == 0xD0 || op == 0xD4 then [.any x.d]
  else if 0xD1 ≤ op && op ≤ 0xD3 then [.any x.d] ++ (regRun x.a 16).map .value
  else if op == 0xD5 then [.any x.a]
  else if op == 0xD6 then [.any x.d, .any x.a]
  else []

/-- Everything that an instruction reads, the guard of its prefix among it. (Log 115: DEDUCED, unsafe.) -/
def takes (s : WalkState) (x : Ins) : List Take :=
  (if x.op < 0x40 then takesLow x else if x.op < 0x80 then takesMid x else if x.op < 0xB0 then takesMem x else takesEng s x) ++
    (match x.pfx with
      | some p => if p.gv then [.value p.g.toNat] else []
      | none => [])

/-- The registers that rule 202 requires to be uni. -/
def uniRegs (s : WalkState) (x : Ins) : List Nat :=
  let op := x.op
  if x.isCond then (if x.hint == 3 then [x.d] else [])
  else if op == 0x0D then [x.d]
  else if op == 0x06 || (0x97 ≤ op && op ≤ 0x9A) then [x.a]
  else if op == 0xC5 then []
  else if 0xD1 ≤ op && op ≤ 0xD3 then [x.d]
  else if 0xB0 ≤ op then (takesEng s x).map Take.reg
  else []

/-- The registers that rule 203 requires to be constants. -/
def constRegs (x : Ins) : List Nat :=
  if x.op == 0xC0 || x.op == 0xC1 then [x.b + 1]
  else if x.op == 0xC2 then [x.b + 1, x.b + 3]
  else if x.op == 0xB8 && x.bits 7 1 == 1 then [x.a]
  else []

/-- The registers of the runs of LDM, STM and XCHG, which rule 307 bounds by regs without exception. -/
def runRegs (x : Ins) : List Nat :=
  if x.op == 0x97 || x.op == 0x98 then regRun x.d (x.bits 3 5 + 1)
  else if x.op == 0x7F then regRun x.d (x.bits 0 4 + 1) ++ regRun x.a (x.bits 0 4 + 1)
  else []

/-- The registers that rule 307 requires to be storage of the warp. -/
def storageRegs (s : WalkState) (x : Ins) : List Nat :=
  if 0xC0 ≤ x.op && x.op ≤ 0xC2 then (takesEng s x).map Take.reg else namedRegs x.i

/-! ## Obligations (Table ADM.6) -/

/-- A value as DETAIL shows it: 32 bits, saturated (Table ADMF.2). -/
def sat32 (v : Int) : Nat := if v < 0 then wrap32 v else min v.toNat noWord

/-- The least value that a bound can have over a region of minimum length `ml`. -/
def Bound.least (ml : Nat) : Bound → Int
  | .num v => v
  | .len c => (ml : Int) - c

/-- Whether a token is held whose pair is typed ptr(mJ, g, g) (R90). (Log 110: DEDUCED, unsafe.) -/
def guardHeld (s : WalkState) (g : Nat × Nat) : Bool :=
  s.locks.any fun l => match (s.ty l.2).holds with
    | .ptr k lo hi => k == g.1 && lo == .num g.2 && hi == .num g.2
    | _ => false

/-- What an access through a ptr does. -/
structure PtrUse where
  reg : Nat
  off : Int := 0
  size : Nat
  reads : Bool := false
  writes : Bool := false
  atomic : Bool := false
  stable : Bool := false
  guarded : Bool := false
  al : Nat := 0
  deriving DecidableEq, Repr

/-- The obligations of an access through a ptr. -/
def ptrRules (c : Checked) (s : WalkState) (u : PtrUse) : List Rej :=
  let t := s.ty u.reg
  match t.holds with
  | .ptr k lo hi =>
    let r := c.decl.region k
    let low := lo.least r.minLen + u.off
    let high := hi.least r.minLen + u.off + u.size
    failIf (decide (low < 0)) { rule := 301, kind := 3, item := k, detail := sat32 low } ++
    failIf (decide ((r.minLen : Int) < high)) { rule := 302, kind := 3, item := k, detail := sat32 high } ++
    failIf (decide (t.al < u.al)) { rule := 303, kind := 1, item := u.reg, detail := 2 ^ u.al } ++
    failIf ((u.reads && r.rights % 2 == 0) || (u.writes && (decide (r.rights < 2) || r.cls == 1)) || (u.stable && r.cls != 1))
      { rule := 304, kind := 3, item := k } ++
    failIf (u.atomic && decide (3 ≤ r.cls)) { rule := 305, kind := 3, item := k } ++
    failIf (u.guarded && (match r.guard with
      | some g => !guardHeld s g
      | none => false)) { rule := 311, kind := 3, item := k }
  | _ => [{ rule := 306, kind := 1, item := u.reg }]

/-- The range and alignment of an sptr or acc, a constant counting as both (R80). -/
def localRange (acc : Bool) (t : Ty) : Option (Nat × Nat × Nat) :=
  match t.holds with
  | .sptr lo hi => if acc then none else some (lo, hi, t.al)
  | .acc lo hi => if acc then some (lo, hi, t.al) else none
  | .num v => some (v, v, zerosBelow v)
  | _ => none

/-- The obligations of an access through an sptr or acc, over an allocation of `size` bytes. -/
def localRules (s : WalkState) (acc : Bool) (reg : Nat) (off : Int) (n size al : Nat) : List Rej :=
  match localRange acc (s.ty reg) with
  | none => [{ rule := 306, kind := 1, item := reg }]
  | some (lo, hi, al') =>
    failIf (decide ((lo : Int) + off < 0)) { rule := 301, kind := 1, item := reg, detail := sat32 (lo + off) } ++
    failIf (decide ((size : Int) < hi + off + n)) { rule := 302, kind := 1, item := reg, detail := sat32 (hi + off + n) } ++
    failIf (decide (al' < al)) { rule := 303, kind := 1, item := reg, detail := 2 ^ al }

/-- The rule of an operand of the wrong kind: 206 between handles, barriers and rings, else `other`. -/
def kindRules (c : Checked) (s : WalkState) (reg : Nat) (want : Holds) (other : Nat) : List Rej :=
  let t := s.ty reg
  let near := match t.holds with
    | .hnd => true
    | .bar _ => true
    | .ring => true
    | _ => false
  failIf (!t.le c.decl { holds := want })
    (if near then { rule := 206, kind := 1, item := reg, detail := headOf reg t }
      else if other == 201 then { rule := 201, kind := 1, item := reg, detail := headOf reg t }
      else { rule := other, kind := 1, item := reg })

/-- The largest value of a length or count: a constant, or below idx(n). -/
def largestOf (t : Ty) : Option Nat :=
  match t.holds with
  | .num v => some v
  | .idx n => some (n - 1)
  | _ => none

/-- A range of a copy in bounds over its largest length: rules 301 and 302 are reported as 308. -/
def as308 (rs : List Rej) : List Rej := rs.map fun r => if r.rule == 301 || r.rule == 302 then { r with rule := 308 } else r

/-- The bytes from the first to the last of a copy's range, over its largest length. -/
def copySpan (x : Ins) (s : WalkState) (shift n : Nat) : Option Nat :=
  if x.op != 0xC2 then some n
  else
    match largestOf (s.ty (x.b + 2)), (s.ty (x.b + 3)).holds with
    | some rows, .num p => some (if rows == 0 then 0 else (rows - 1) * (bitsOf p shift 16 * 16) + n)
    | none, _ => none
    | _, _ => some n

/-- The obligations of a copy's memory operand over `n` bytes: a ptr, or a window by its kind or number (Table ADM.6). (Log 162: DEDUCED, unsafe.) -/
def copyRange (c : Checked) (s : WalkState) (reg n : Nat) (write : Bool) : List Rej :=
  let windows := fun (ok : Nat → Bool) => (List.range 16).flatMap fun k =>
    let r := c.decl.region k
    if r.rights != 0 && ok k then
      failIf (decide (r.minLen < n)) { rule := 308, kind := 3, item := k, detail := sat32 n } ++
        failIf (if write then decide (r.rights < 2) else r.rights % 2 == 0) { rule := 304, kind := 3, item := k }
    else []
  match (s.ty reg).holds with
  | .win kind => windows fun k => (c.decl.region k).cls == 3 + kind
  | .num v => if (c.decl.region v).rights != 0 && decide (3 ≤ (c.decl.region v).cls) then windows (· == v)
    else [{ rule := 306, kind := 1, item := reg }]
  | _ => as308 (ptrRules c s { reg := reg, size := n, reads := !write, writes := write })

/-- The rules of a copy (R236): both ranges, of which one in memory names a pair (rule 106, R224), and, but for a system image, which tests it at issue, rules 102 and 104 on its
constant control word. (Log 162: DEDUCED, unsafe.) -/
def copyRules (c : Checked) (s : WalkState) (x : Ins) : List Rej :=
  match (s.ty (x.b + 1)).holds with
  | .num v =>
    let spare := offending [16] v (0x80CC + if x.op == 0xC1 then 0 else 0xFFFF0000)
    let sk := bitsOf v 4 2
    let dk := bitsOf v 0 2
    let side := fun (kind reg shift : Nat) (write : Bool) =>
      match (largestOf (s.ty x.b)).bind (copySpan x s shift) with
      | none => [{ rule := 308, kind := 1, item := x.b }]
      | some n =>
        if kind == 0 then failIf (reg % 2 == 1) { rule := 106, detail := reg } ++ copyRange c s reg n write
        else as308 (localRules s false reg 0 n c.decl.scratch 0)
    failIf (!c.sys && spare != 0) { rule := 102, detail := spare } ++
      failIf (!c.sys && decide (2 ≤ sk)) { rule := 104, detail := sk } ++
      (if sk < 2 then side sk x.a 0 false else []) ++
      (if dk < 2 then side dk x.d 16 true else kindRules c s x.d (if dk == 3 then .ring else .hnd) 306)
  | _ => []

/-- The bytes of the tile at an accumulator operand: 4,096, or the 2,048 of a half tile where the operand's alignment is that of
half tiles only, since no field of a module says that it will be launched half (Table ADM.6, R247, R253). (Log 116: DEDUCED, unsafe.) -/
def tileSpan (s : WalkState) (reg : Nat) : Nat :=
  match localRange true (s.ty reg) with
  | some (_, _, al) => if 12 ≤ al then 4096 else 2048
  | none => 2048

/-- The obligation of `n` tiles from an accumulator operand. -/
def tileRules (c : Checked) (s : WalkState) (reg n : Nat) : List Rej :=
  localRules s true reg 0 (n * tileSpan s reg) c.decl.accb 11

/-- Rules 206 and 301 to 311 of one instruction. (Log 111: DEDUCED, unsafe; 112: DEDUCED, unsafe; 116: DEDUCED, unsafe.) -/
def accessRules (c : Checked) (s : WalkState) (x : Ins) : List Rej :=
  let op := x.op
  let d := c.decl
  let ptr : PtrUse := { reg := x.a, off := x.off, size := x.size, guarded := true }
  let isLoad := (0x80 ≤ op && op ≤ 0x86) || op == 0x8C || op == 0x8D || op == 0x8F || op == 0x90
  let isStore := (0x87 ≤ op && op ≤ 0x8B) || op == 0x8E || op == 0x91
  if isLoad then ptrRules c s { ptr with reads := true, stable := op == 0x8C || op == 0x8D }
  else if isStore then ptrRules c s { ptr with writes := true }
  else if 0xA0 ≤ op && op ≤ 0xAC then ptrRules c s { ptr with writes := true, atomic := true }
  else if op == 0x99 || op == 0x9A then ptrRules c s { ptr with writes := true, atomic := true, guarded := false }
  else if op == 0x97 then ptrRules c s { ptr with reads := true, size := 128 * (x.bits 3 5 + 1), al := 7 }
  else if op == 0x98 then ptrRules c s { ptr with writes := true, size := 128 * (x.bits 3 5 + 1), al := 7 }
  else if (0x93 ≤ op && op ≤ 0x96) || (0xAD ≤ op && op ≤ 0xAF) then
    localRules s false x.a x.off x.size d.scratch (if x.size == 16 then 4 else 2)
  else if op == 0x4D then
    failIf ((d.region (x.bits 12 4)).rights == 0) { rule := 309, kind := 3, item := x.bits 12 4 }
  else if op == 0x4F then
    let n := x.bits 0 10 * 2 ^ x.bits 10 5
    failIf (decide ((if x.bits 15 1 == 1 then d.accb else d.scratch) < n)) { rule := 309, detail := sat32 n }
  else if op == 0x3E || op == 0x3F then
    match largestOf (s.ty x.a) with
    | some m => failIf (decide (d.regs < m + 1)) { rule := 307, kind := 1, item := x.a, detail := sat32 (m + 1) }
    | none => [{ rule := 201, kind := 1, item := x.a, detail := headOf x.a (s.ty x.a) }]
  else if op == 0x7F then
    failIf ((d.region (x.bits 4 4)).rights == 0 || (d.region (x.bits 4 4)).cls != 5) { rule := 310, kind := 3, item := x.bits 4 4 }
  else if 0xB0 ≤ op && op ≤ 0xB3 then kindRules c s x.a (.bar (x.bits 5 3)) 201
  else if op == 0xB6 then kindRules c s x.a (if x.bits 7 1 == 1 then .ring else .hnd) 201
  else if op == 0xB7 then
    kindRules c s x.d .hnd 201 ++
      (if x.bits 6 2 < 2 then localRules s false x.a 0 ((x.bits 0 6 + 1) * 128) d.scratch 7 else [])
  else if op == 0xB8 then
    if x.bits 7 1 == 1 then
      kindRules c s x.a .hnd 201 ++ (match (s.ty x.a).holds with
        | .num v => failIf (decide (d.handles < v + x.bits 0 7 + 1)) { rule := 302, kind := 1, item := x.a, detail := sat32 (v + x.bits 0 7 + 1) }
        | _ => [])
    else kindRules c s x.a .ring 201
  else if 0xC0 ≤ op && op ≤ 0xC2 then copyRules c s x
  else if op == 0xC3 || op == 0xC4 then
    ptrRules c s { reg := x.a, size := if op == 0xC3 then 512 else 64, reads := true, al := 6 }
  else if op == 0xD0 then
    if x.bits 3 2 == 2 then localRules s false x.d 0 0 d.scratch 7
    else kindRules c s x.d (if x.bits 3 2 == 1 then .ring else .hnd) 306
  else if 0xD1 ≤ op && op ≤ 0xD3 then tileRules c s x.d 1
  else if op == 0xD4 then tileRules c s x.d (x.bits 4 4 + 1)
  else if op == 0xD5 then tileRules c s x.a 1
  else if op == 0xD6 then
    tileRules c s x.a 1 ++
      (if x.bits 6 2 == 0 then localRules s false x.d 0 (tileSpan s x.a) d.scratch 7
        else kindRules c s x.d (if x.bits 6 2 == 2 then .ring else .hnd) 306)
  else []

/-- Rules 201 to 203, and 307 on the registers that the word names. -/
def operandRules (c : Checked) (s : WalkState) (x : Ins) : List Rej :=
  ((takes s x).flatMap fun k =>
    let t := s.ty k.reg
    failIf (t.holds == .dead || !k.fits t) { rule := 201, kind := 1, item := k.reg, detail := headOf k.reg t }) ++
  ((uniRegs s x).flatMap fun r =>
    failIf (!(s.ty r).uni) { rule := 202, kind := 1, item := r, detail := headOf r (s.ty r) }) ++
  ((constRegs x).flatMap fun r =>
    failIf (match (s.ty r).holds with
      | .num _ => false
      | _ => true) { rule := 203, kind := 1, item := r, detail := headOf r (s.ty r) }) ++
  ((storageRegs s x).flatMap fun r =>
    failIf (decide (c.decl.regs ≤ r) && (decide (r < 254) || (runRegs x).contains r))
      { rule := 307, kind := 1, item := r, detail := r })

/-! ## Control (R83, R87, R88, R97, R98) -/

/-- Whether a word is restricted to CONV = 1 and DEPTH = 0 (R35, R88, R199, R224). -/
def Ins.restricted (x : Ins) : Bool :=
  let op := x.op
  op == 0x0E || (0x05 ≤ op && op ≤ 0x07) || op == 0x7F || (op == 0x3D && x.b == 2) ||
    (0xB0 ≤ op && op ≤ 0xD7 && !(0xB4 ≤ op && op ≤ 0xB6))

/-- Whether R83 requires a block after the word. (Log 113: DEDUCED, unsafe.) -/
def Ins.ends (x : Ins) : Bool :=
  let op := x.op
  (0x02 ≤ op && op ≤ 0x07) || op == 0x09 || op == 0x0C || op == 0x0D

/-- The role that a word requires (Table EXEC.4, R224); 0 where any may issue it. -/
def Ins.needsRole (x : Ins) : Nat :=
  let op := x.op
  if 0xC0 ≤ op && op ≤ 0xC5 then 1 else if 0xD0 ≤ op && op ≤ 0xD7 then 2 else if op == 0xE2 || op == 0xE3 then 3 else 0

/-- A branch target that is no word of the code section, or starts no block, or follows a prefix (R116). -/
def targetRules (m : Image) (t : Int) : List Rej :=
  let w := t.toNat
  failIf (decide (0 < t) && decide (w < m.code.length) && isPfxWord (m.code.getD (w - 1) 0)) { rule := 103 } ++
    failIf (decide (t < 0) || !startsBlock m w) { rule := 406 }

/-- The signature of a callee: of the FN block that a CALL names, or of the type of a CALLI's register. -/
def calleeSig (c : Checked) (s : WalkState) (x : Ins) : Option Sig :=
  if x.op == 0x05 then
    match annotOf c.img x.target.toNat with
    | some a => if a.isFn then a.fnSig.bind fun g => c.img.sigs[g]? else none
    | none => none
  else
    match (s.ty x.a).holds with
    | .fn g => c.img.sigs[g]?
    | _ => none

/-- Rule 806 (R97), as R384 has it for a system image. -/
def callRules (c : Checked) (s : WalkState) (x : Ins) : List Rej :=
  match calleeSig c s x with
  | none => if x.op == 0x05 then [{ rule := 806 }] else failIf (!c.sys) { rule := 201, kind := 1, item := x.a, detail := headOf x.a (s.ty x.a) }
  | some g =>
    let sp := match (s.ty 254).holds with
      | .ptr 15 lo _ => (Bound.num g.frame).le (c.decl.minLen 15) lo
      | _ => false
    if c.sys then failIf (x.op == 0x05 && g.role != s.role) { rule := 806 }
    else
      failIf (g.role != s.role) { rule := 806 } ++
        (g.args.flatMap fun a => failIf (!(s.ty a.1).le c.decl a.2) { rule := 806, kind := 1, item := a.1 }) ++
        failIf (!sp) { rule := 806, kind := 1, item := 254 }

/-- Rule 807 (R97). -/
def retRules (c : Checked) (s : WalkState) : List Rej :=
  match s.fnSig.bind fun g => c.img.sigs[g]? with
  | none => [{ rule := 807 }]
  | some g => g.results.flatMap fun a => failIf (!(s.ty a.1).le c.decl a.2) { rule := 807, kind := 1, item := a.1 }

/-- The jump table that a BRX names, if its own word names the BRX (R98, R134). -/
def tableNamed (m : Image) (x : Ins) : Option (List Int) :=
  match m.tables[x.bits 0 14]? with
  | some t => if t.1 == x.pos then some t.2 else none
  | none => none

/-- Rule 408, with 201 for an index of another type. -/
def tableRules (c : Checked) (s : WalkState) (x : Ins) : List Rej :=
  let bad : Rej := { rule := 408, kind := 7, item := x.bits 0 14 }
  match tableNamed c.img x with
  | none => [bad]
  | some t =>
    if c.sys then []
    else match (s.ty x.d).holds with
      | .idx n => failIf (n != t.length) bad
      | .num v => failIf (decide (t.length ≤ v)) bad
      | _ => [{ rule := 201, kind := 1, item := x.d, detail := headOf x.d (s.ty x.d) }]

/-- Rules 403 to 410 of one instruction. -/
def flowRules (c : Checked) (s : WalkState) (x : Ins) : List Rej :=
  let op := x.op
  let here := flowDetail s none
  let isJoin := fun w => (c.img.code.getD w 0) >>> 24 == 0x08#32
  let last := decide (c.stop ≤ x.next)
  failIf (if x.splits then (match c.ann.split with
      | some l => !isJoin l
      | none => true)
    else last && c.ann.split.isSome) { rule := 403, detail := here } ++
  failIf (op == 0x08 && (match s.joins.getLast? with
    | some j => j.label != x.pos
    | none => false)) { rule := 404, detail := here } ++
  failIf ((x.restricted && (!s.conv || !s.joins.isEmpty)) || (op == 0x3D && x.b == 0 && s.joins.isEmpty)) { rule := 405, detail := here } ++
  (if op == 0x05 then targetRules c.img x.target else []) ++
  failIf (op == 0x0F && (decide (x.target < 0) || decide (c.img.code.length ≤ x.target.toNat))) { rule := 406 } ++
  failIf (x.ends && !last) { rule := 407 } ++
  (if op == 0x0D then tableRules c s x else []) ++
  failIf (x.splits && decide (15 ≤ s.joins.length)) { rule := 410, detail := here }

/-! ## Locks and roles -/

/-- The registers that a MOVRW may write: all below the bound of its index, and the other register of a pair that the bound
breaks (R86). (Log 110: DEDUCED, unsafe.) -/
def movrwRegs (c : Checked) (s : WalkState) (x : Ins) : List Nat :=
  if x.op == 0x3F then
    let n := ((largestOf (s.ty x.a)).map (· + 1)).getD c.decl.regs
    List.range n ++ if (s.ty n).holds == .upper then [n] else []
  else []

/-- The registers that an instruction writes. -/
def writes (c : Checked) (s : WalkState) (x : Ins) : List Nat := writtenRegs x.i ++ movrwRegs c s x

/-- The token of LOCK and UNLOCK. -/
def Ins.token (x : Ins) : Nat := x.bits 21 3

/-- Rules 501 to 504 (R89). -/
def lockRules (c : Checked) (s : WalkState) (x : Ins) : List Rej :=
  let op := x.op
  let held := tokenBits s.locks
  let ws := writes c s x
  failIf (op == 0x99 && s.locks.any fun l => l.1 == x.token) { rule := 501, kind := 2, item := x.token, detail := held } ++
  failIf (op == 0x9A && !s.locks.contains (x.token, x.a)) { rule := 502, kind := 2, item := x.token, detail := held } ++
  failIf (((0x05 ≤ op && op ≤ 0x07) || op == 0x09 || op == 0x0C) && !s.locks.isEmpty)
    { rule := 503, kind := 2, item := (argMin id (s.locks.map (·.1))).getD 0, detail := held } ++
  s.locks.flatMap fun l => failIf (ws.contains l.2 || ws.contains (l.2 + 1)) { rule := 504, kind := 2, item := l.1, detail := held }

/-- Rules 601 and 704 of one instruction. -/
def roleRules (c : Checked) (s : WalkState) (x : Ins) : List Rej :=
  failIf (x.needsRole != 0 && x.needsRole != s.role && s.role != 3) { rule := 601, detail := s.role + x.needsRole * 256 } ++
    failIf (x.op == 0x7F && c.img.travel) { rule := 704 }

/-- Every check of one instruction's own. (Log 112: DEDUCED, unsafe.) -/
def insRules (c : Checked) (s : WalkState) (x : Ins) : List Rej :=
  operandRules c s x ++ accessRules c s x ++ flowRules c s x ++ lockRules c s x ++ roleRules c s x ++
    (if x.op == 0x05 || x.op == 0x06 then callRules c s x else []) ++ (if x.op == 0x07 then retRules c s else [])

/-! ## The transfer (Tables ADM.5 and ADM.7) -/

/-- A bound moved by a constant; none where the len form does not survive (R81). -/
def Bound.move (v : Int) : Bound → Option Bound
  | .num x => some (.num (x + v))
  | .len c => if (c : Int) < v then none else some (.len ((c : Int) - v).toNat)

/-- The plain 32-bit word, uni or not. -/
def bitsTy (uni : Bool) : Ty := { holds := .bits, uni := uni }
def i32Ty (uni : Bool) : Ty := { holds := .value 2, uni := uni }

/-- An sptr or acc moved: its new range, bits where it leaves 0 to 2^32 - 1 (R81). -/
def localTy (t : Ty) (lo hi : Int) (al : Nat) (uni : Bool) : Ty :=
  if lo < 0 || 2 ^ 32 ≤ hi then bitsTy uni
  else match t.holds with
    | .acc _ _ => { holds := .acc lo.toNat hi.toNat, uni := uni, al := al }
    | _ => { holds := .sptr lo.toNat hi.toNat, uni := uni, al := al }

/-- The alignment that is left after a constant is added. -/
def alAfter (al : Nat) (v : Int) : Nat := if v == 0 then al else min al (zerosBelow v.natAbs)

/-- The range of an sptr or acc. -/
def Ty.range (t : Ty) : Option (Nat × Nat) :=
  match t.holds with
  | .sptr lo hi => some (lo, hi)
  | .acc lo hi => some (lo, hi)
  | _ => none

/-- ADD of an sptr or acc and another register (Table ADM.5). -/
def addLocal (p q : Ty) (uni : Bool) : Ty :=
  match p.range, q.holds with
  | some (lo, hi), .idx n => localTy p lo (hi + n - 1) 0 uni
  | some (lo, hi), .num v => localTy p (lo + v) (hi + v) (alAfter p.al v) uni
  | _, _ => i32Ty uni

/-- ADD, ADDI and SHLI where an operand is an sptr or acc; otherwise none. -/
def moveLocal (s : WalkState) (x : Ins) (uni : Bool) : Option Ty :=
  let a := s.ty x.a
  let b := s.ty x.b
  if x.op == 0x10 then
    if a.range.isSome then some (addLocal a b uni) else if b.range.isSome then some (addLocal b a uni) else none
  else
    match a.range with
    | none => none
    | some (lo, hi) =>
      if x.op == 0x30 then some (localTy a (lo + x.imm 8) (hi + x.imm 8) (alAfter a.al (x.imm 8)) uni)
      else if x.op == 0x34 then
        let k := x.b
        some (localTy a (lo * 2 ^ k : Nat) (hi * 2 ^ k : Nat) (min (a.al + k) 12) uni)
      else none

/-- The constant that an instruction of R80 gives, if its sources are constants: 32-bit values that wrap, whatever ET and SAT
MODE holds.  A guard is a source (R157), so a guarded word gives none. (Log 110: DEDUCED, unsafe; 163: DESIGN CHOICE, unsafe.) -/
def foldConst (s : WalkState) (x : Ins) : Option Nat :=
  let con := fun r => match (s.ty r).holds with
    | .num v => some v
    | _ => none
  if x.guarded then none
  else match x.op with
  | 0x3A => some (wrap32 (x.imm 16))
  | 0x3B => (con x.d).map fun v => x.bits 0 16 * 65536 + v % 65536
  | 0x30 => (con x.a).map fun v => wrap32 (v + x.imm 8)
  | 0x31 => (con x.a).map fun v => (BitVec.ofNat 32 v &&& BitVec.ofNat 32 (x.immZ 8)).toNat
  | 0x32 => (con x.a).map fun v => (BitVec.ofNat 32 v ||| BitVec.ofNat 32 (x.immZ 8)).toNat
  | 0x33 => (con x.a).map fun v => (BitVec.ofNat 32 v ^^^ BitVec.ofNat 32 (x.immZ 8)).toNat
  | 0x34 => (con x.a).map fun v => v * 2 ^ x.b % 2 ^ 32
  | 0x37 => (con x.a).map fun v => wrap32 (v * x.imm 8)
  | _ => none

/-- The type of a special register (R86). -/
def specialTy (c : Checked) (i : Nat) : Ty :=
  if 0x20 ≤ i && i ≤ 0x2F then { holds := .ptr (i - 0x20) (.num 0) (.num 0), uni := true, al := 12 }
  else if 0x30 ≤ i && i ≤ 0x3F then { holds := .len (i - 0x30), uni := true }
  else if 0x40 ≤ i && i ≤ 0x4F then
    let p := c.decl.params.getD (i - 0x40) 0
    { holds := if p ≤ 1 then .bits else if p == 9 then .bool else .value p, uni := true }
  else if i == 4 then { holds := .idx 32 }
  else if i == 5 then { holds := .idx 16, uni := true }
  else if i ≤ 1 || (0x18 ≤ i && i ≤ 0x1F) then bitsTy true
  else { holds := .value 3, uni := true }

/-- ADDI64 and LEA on a ptr (Table ADM.5); otherwise bits. -/
def movePtr (s : WalkState) (x : Ins) (uni : Bool) : Ty :=
  match (s.ty x.a).holds with
  | .ptr k lo hi =>
    let al := (s.ty x.a).al
    if x.op == 0x43 then
      match lo.move (x.imm 8), hi.move (x.imm 8) with
      | some lo, some hi => { holds := .ptr k lo hi, uni := uni, al := alAfter al (x.imm 8) }
      | _, _ => bitsTy uni
    else
      match largestOf (s.ty x.b) with
      | some m =>
        match hi.move (m * 2 ^ (x.op - 0x42) : Nat) with
        | some hi => { holds := .ptr k lo hi, uni := uni, al := min al (x.op - 0x42) }
        | none => bitsTy uni
      | none => bitsTy uni
  | _ => bitsTy uni

/-- The value type that a conversion's variant fixes (Table ADM.7). -/
def convertTy (x : Ins) (uni : Bool) : Ty :=
  let v := x.bits 0 2
  if x.op == 0x6A then { holds := .value (if v == 0 || v == 3 then 5 else 6), uni := uni }
  else if x.op == 0x6B then { holds := .value (if v == 0 then 2 else if v == 1 then 3 else 7), uni := uni }
  else if x.op == 0x6C then { holds := .value (if v < 2 then 4 else if v == 2 then 5 else 6), uni := uni }
  else bitsTy uni

/-- A source's type with proof types demoted to bits. -/
def plainTy (t : Ty) (uni : Bool) : Ty :=
  match t.holds with
  | .value c => { holds := .value c, uni := uni }
  | .bool => { holds := .bool, uni := uni }
  | _ => bitsTy uni

/-- Cross-lane results (Table ADM.7). (Log 117: DEDUCED, unsafe.) -/
def laneTy (s : WalkState) (x : Ins) : Ty :=
  let op := x.op
  if op == 0x70 && (s.ty x.b).uni then plainTy (s.ty x.a) true
  else if op == 0x74 || op == 0x75 then { holds := .bool, uni := true }
  else if op == 0x76 then bitsTy true
  else if (0x77 ≤ op && op ≤ 0x7B) || op == 0x7D then i32Ty true
  else bitsTy false

/-- Whether a word is a compare or FCLASS. -/
def Ins.compares (x : Ins) : Bool :=
  let op := x.op
  (0x20 ≤ op && op ≤ 0x23) || op == 0x38 || op == 0x39 || op == 0x4C || (0x58 ≤ op && op ≤ 0x5B) || op == 0x5E

/-- A register copied (MOV, MOV64): the source's type, uni where every source is; a guarded copy of a constant is bits. -/
def copiedTy (x : Ins) (t : Ty) (uni : Bool) : Ty :=
  match t.holds with
  | .num _ => if x.guarded then bitsTy uni else t
  | _ => { t with uni := uni }

/-- Whether every source of an instruction is uni, its guard among them (R81, R157). (Log 110: DEDUCED, unsafe.) -/
def allUni (s : WalkState) (x : Ins) : Bool := (takes s x).all fun k => (s.ty k.reg).uni

/-- The type of an instruction's first destination.  WMUL, WMAD, SHL64, SHR64, ADDI64 and LEA off a ptr give bits; BAR, BARWT,
LAUNCH, JOB, CLOCK, PERF and TRAPRD uni bits; TACCLD bits: Table ADM.7 has no row for them. (Log 114: DEDUCED, unsafe; 117: DEDUCED, unsafe; 164: DESIGN CHOICE, unsafe.) -/
def resultTy (c : Checked) (s : WalkState) (x : Ins) : Ty :=
  let op := x.op
  let uni := allUni s x
  match foldConst s x, moveLocal s x uni with
  | some v, _ =>
    match if op == 0x3A then c.patched.find? (fun p => p.1 == x.next - 1) else none with
    | some p => { holds := .fn p.2, uni := true }
    | none => { holds := .num v, uni := true }
  | none, some t => t
  | none, none =>
    if x.compares then { holds := .bool, uni := uni }
    else if op == 0x3C then specialTy c x.b
    else if op == 0x2E then (if (s.ty x.a).pair || (s.ty x.a).holds == .upper then bitsTy uni else copiedTy x (s.ty x.a) uni)
    else if op == 0x3E then
      let n := ((largestOf (s.ty x.a)).map (· + 1)).getD c.decl.regs
      i32Ty (uni && (List.range n).all fun r => (s.ty r).uni)
    else if op < 0x40 then i32Ty uni
    else if op == 0x43 || (0x44 ≤ op && op ≤ 0x46) then movePtr s x uni
    else if op < 0x50 then bitsTy uni
    else if 0x6A ≤ op && op ≤ 0x6E then convertTy x uni
    else if op < 0x70 then { holds := .value 4, uni := uni }
    else if op < 0x80 then laneTy s x
    else if op ≤ 0x8F || op == 0x90 || op == 0x93 || op == 0x95 then bitsTy (s.ty x.a).uni
    else if op < 0xB0 then bitsTy false
    else if op == 0xB8 then { holds := .ring, uni := true }
    else if op == 0xE4 then { holds := .value 3, uni := true }
    else if op == 0xD5 then bitsTy false
    else bitsTy true

/-- The types of the registers that an instruction writes. -/
def resultsOf (c : Checked) (s : WalkState) (x : Ins) : List (Nat × Ty) :=
  let ds := writtenRegs x.i
  if x.op == 0x47 then [0, 1].map fun i => (x.d + i, copiedTy x (s.ty (x.a + i)) (allUni s x))
  else
    let t := resultTy c s x
    match ds with
    | [] => []
    | d :: rest => (d, t) :: rest.map fun r => (r, if t.pair then { holds := .upper, uni := t.uni } else { t with al := 0 })

/-- A register written: the other register of a pair so broken becomes bits (R81). (Log 114: DEDUCED, unsafe.) -/
def writeTy (rs : List Ty) (x : Nat × Ty) : List Ty :=
  let old := rs.getD x.1 {}
  let rs := if old.pair then rs.set (x.1 + 1) (bitsTy false) else rs
  let rs := if old.holds == .upper then rs.set (x.1 - 1) (bitsTy false) else rs
  rs.set x.1 x.2

/-- The residual checks' results (R93). -/
def checkTys (c : Checked) (s : WalkState) (x : Ins) : List (Nat × Ty) :=
  let u := (s.ty x.d).uni
  if x.op == 0x4D then
    let u := u && (s.ty (x.d + 1)).uni
    [(x.d, { holds := .ptr (x.bits 12 4) (.num (x.bits 6 6 * 64)) (.len (x.bits 0 6)), uni := u }),
      (x.d + 1, { holds := .upper, uni := u })]
  else if x.op == 0x4E then [(x.d, { holds := .idx (x.bits 0 16), uni := u })]
  else if x.op == 0x4F then
    let n := x.bits 0 10 * 2 ^ x.bits 10 5
    if x.bits 15 1 == 1 then [(x.d, { holds := .acc 0 (c.decl.accb - n), uni := u, al := zerosBelow n })]
    else [(x.d, { holds := .sptr 0 (c.decl.scratch - n), uni := u, al := zerosBelow n })]
  else []

/-- A register that loses uni; a constant becomes bits. (Log 110: DEDUCED, unsafe.) -/
def notUni (t : Ty) : Ty :=
  match t.holds with
  | .num _ => bitsTy false
  | _ => { t with uni := false }

/-- The innermost W with some registers added. -/
def markWritten (js : List OpenJoin) (m : BitVec 256) : List OpenJoin :=
  match js.getLast? with
  | none => js
  | some j => js.dropLast ++ [{ j with written := j.written ||| m }]

/-- A JOIN at the innermost open label (R87). -/
def popJoin (s : WalkState) : WalkState :=
  match s.joins.getLast? with
  | none => s
  | some j =>
    { s with
      joins := markWritten s.joins.dropLast j.written
      conv := j.conv
      regs := (List.range 256).map fun r => if j.written.getLsbD r then notUni (s.ty r) else s.ty r }

/-- The state after an instruction. -/
def after (c : Checked) (s : WalkState) (x : Ins) : WalkState :=
  let s0 := if x.op == 0x08 then popJoin s else s
  let ws := resultsOf c s0 x ++ (movrwRegs c s0 x).map fun r => (r, bitsTy false)
  let regs := (ws ++ checkTys c s0 x).foldl writeTy s0.regs
  let mask := (writes c s0 x).foldl (fun m r => m ||| dirtyBit r) 0
  { s0 with
    regs := regs
    joins := markWritten s0.joins mask
    locks := if x.op == 0x99 then s0.locks ++ [(x.token, x.a)] else if x.op == 0x9A then s0.locks.filter fun l => l.1 != x.token
      else s0.locks }

/-! ## Edges (R85, R87, R92) -/

/-- The state at the return point of a call (Table ADM.9). -/
def afterCall (s : WalkState) (g : Option Sig) : WalkState :=
  let kept := (List.range 256).map fun r =>
    if 254 ≤ r then s.ty r
    else if 24 ≤ r && r ≤ 63 then
      (match (s.ty r).holds with
        | .dead => {}
        | .value k => if (s.ty r).uni then bitsTy false else { holds := .value k }
        | .bool => if (s.ty r).uni then bitsTy false else { holds := .bool }
        | _ => bitsTy false)
    else {}
  let results := typesOf ((g.map (·.results)).getD [])
  { s with regs := (List.range 256).map fun r => if 8 ≤ r && r ≤ 12 && (results.getD r {}).holds != .dead then results.getD r {} else kept.getD r {} }

/-- The state at both successors of a splitting branch. -/
def splitState (c : Checked) (s : WalkState) : WalkState :=
  { s with joins := s.joins ++ [{ label := c.ann.split.getD 0, conv := s.conv, written := 0 }], conv := false }

/-- Rule 401: the first register whose type does not serve the successor. -/
def typeRules (c : Checked) (s t : WalkState) : List Rej :=
  match (List.range 256).find? fun r => !(s.ty r).le c.decl (t.ty r) with
  | some r => [{ rule := 401, kind := 1, item := r, detail := headOf r (s.ty r) }]
  | none => []

/-- Whether a state's open joins agree with a successor's: in depth, labels and masks (R85), and in C, which R87 fixes at the
split. (Log 106: DEDUCED, unsafe.) -/
def joinsAgree (s t : WalkState) : Bool :=
  s.joins.length == t.joins.length &&
    (s.joins.zip t.joins).all fun p => p.1.label == p.2.label && p.1.conv == p.2.conv && p.1.written &&& ~~~p.2.written == 0

/-- Lock sets compared as sets of bindings. -/
def locksAgree (a b : List (Nat × Nat)) : Bool := a.all b.contains && b.all a.contains

/-- The agreement of a state with a successor's annotation: rules 401, 402 and 505. (Log 106: DEDUCED, unsafe.) -/
def agreeRules (c : Checked) (s t : WalkState) : List Rej :=
  let differ := ((s.locks.filter fun l => !t.locks.contains l) ++ t.locks.filter fun l => !s.locks.contains l).map (·.1)
  typeRules c s t ++
  failIf (s.role != t.role || s.fnSig != t.fnSig || !joinsAgree s t || (t.conv && !s.conv)) { rule := 402, detail := flowDetail s (some t) } ++
  failIf (!locksAgree s.locks t.locks)
    { rule := 505, kind := 2, item := (argMin id differ).getD 0, detail := tokenBits s.locks + tokenBits t.locks * 256 }

/-- Rules 701 and 702 of an edge (R305). -/
def travelRules (c : Checked) (s : WalkState) (splits : Bool) (w : Nat) : List Rej :=
  let here := c.img.segment c.start
  let there := c.img.segment w
  let label := c.img.segment (c.ann.split.getD c.start)
  failIf (there != here && (!s.conv || !s.joins.isEmpty || !s.locks.isEmpty)) { rule := 701, kind := 8, item := there, detail := there } ++
    failIf (splits && (there != here || label != here)) { rule := 702, kind := 8, item := there, detail := there }

/-- One edge: its target (a fall-through past the code is rule 409), the state that it carries, and the checks. -/
def edgeRules (c : Checked) (s0 s : WalkState) (splits falls : Bool) (t : Int) : List Rej :=
  if falls && decide (c.img.code.length ≤ t.toNat) then [{ rule := 409 }]
  else
    (if falls then [] else targetRules c.img t) ++
      (match annotOf c.img t.toNat with
        | some a => if t < 0 then [] else agreeRules c s a.state
        | none => []) ++
      (if c.img.travel then travelRules c s0 splits t.toNat else [])

/-- The edges of a block's last instruction in the order of R382: target or table, fall-through, return point. -/
def edgesOf (c : Checked) (s : WalkState) (x : Ins) : List (Int × Bool × WalkState) :=
  let fall : Int := c.stop
  if x.op == 0x02 then [(x.target, false, s)]
  else if x.isCond then
    let t := if x.splits then splitState c s else s
    [(x.target, false, t), (fall, true, t)]
  else if x.op == 0x0D then ((tableNamed c.img x).getD []).map fun d => ((x.pos : Int) + d, false, s)
  else if x.op == 0x05 || x.op == 0x06 then [(fall, true, afterCall s (calleeSig c s x))]
  else if x.op == 0x07 || x.op == 0x09 || x.op == 0xE2 then []
  else [(fall, true, s)]

/-- A rejection placed at an instruction. -/
def Rej.at' (r : Rej) (c : Checked) (x : Ins) : Rej := { r with block := c.start, word := x.pos, instr := x.word }

/-- The edges checked one by one. -/
def checkEdges (c : Checked) (s0 : WalkState) (x : Ins) : List (Int × Bool × WalkState) → Except Rej Unit
  | [] => .ok ()
  | (t, falls, s) :: rest =>
    match leastRej c.sys (edgeRules c s0 s x.splits falls t) with
    | .ok () => checkEdges c s0 x rest
    | .error r => .error { r.at' c x with target := wrap32 t }

/-! ## The walk of a block -/

/-- The instructions of a block from a word on, and then its edges. -/
def walkInstrs (c : Checked) : Nat → WalkState → Nat → Except Rej Unit
  | 0, _, _ => .ok ()
  | n + 1, s, pos =>
    match insAt c pos with
    | .error r => .error r
    | .ok x =>
      match leastRej c.sys (insRules c s x) with
      | .error r => .error (r.at' c x)
      | .ok () =>
        let s1 := after c s x
        if c.stop ≤ x.next then checkEdges c s1 x (edgesOf c s1 x) else walkInstrs c n s1 x.next

/-- Whether a type entry has bad parameters (rule 204). -/
def entryBadParams (c : Checked) (t : Ty) : Bool :=
  let declared := fun k => (c.decl.region k).rights != 0
  match t.holds with
  | .ptr k lo hi => !declared k || (match lo, hi with
    | .num x, .num y => decide (y < x)
    | .len a, .len b => decide (a < b)
    | _, _ => false)
  | .len k => !declared k
  | .idx n => n == 0
  | .sptr lo hi => decide (12 < t.al) || decide (hi < lo)
  | .acc lo hi => decide (12 < t.al) || decide (hi < lo)
  | .fn g => decide (c.img.sigs.length ≤ g)
  | .win k => !(List.range 16).any fun j => declared j && (c.decl.region j).cls == 3 + k
  | _ => false

/-- The state on entry to a launch (R99) or to a function (R96). (Log 104: DEDUCED, unsafe.) -/
def entryState (d : KernelDecl) (role : Nat) (g : Option (Nat × Sig)) : WalkState :=
  let stack := fun (lo : Bound) => [(254, ({ holds := .ptr 15 lo (.len 0), uni := true } : Ty))]
  match g with
  | some (i, f) => { regs := typesOf (f.args ++ stack (.num f.frame)), conv := true, role := role, fnSig := some i }
  | none => { regs := typesOf (if d.stack == 0 then [] else stack (.len 0)), conv := true, role := role }

/-- Whether a function entry block breaks R96. (Log 105: DEDUCED, unsafe.) -/
def fnStateBad (c : Checked) : Bool :=
  match c.ann.fnSig with
  | none => true
  | some i =>
    match c.img.sigs[i]? with
    | none => true
    | some g =>
      !c.ann.isFn || !c.ann.conv || !c.ann.joins.isEmpty || !c.ann.locks.isEmpty || g.role != c.ann.role ||
        !(typeRules c (entryState c.decl c.ann.role (some (i, g))) c.ann.state).isEmpty

/-- The exports whose entry a block is, with the role. -/
def entriesAt (m : Image) (start : Nat) : List (Export × Nat) :=
  m.exports.flatMap fun e => ((List.range 4).filter fun r => e.blocks.getD r noWord == start).map fun r => (e, r)

/-- The checks at the start of a block (R382 item 4), with the edge from a launch (R99). (Log 104: DEDUCED, unsafe.) -/
def blockRules (c : Checked) (prev : Option Nat) : List Rej :=
  let a := c.ann
  let m := c.img
  (a.types.flatMap fun x =>
    failIf (entryBadParams c x.2) { rule := 204, kind := 1, item := x.1, detail := headOf x.1 x.2 } ++
    failIf ((decide (c.decl.regs ≤ x.1) && decide (x.1 < 254)) || (x.2.pair && x.1 % 2 == 1))
      { rule := 205, kind := 1, item := x.1, detail := headOf x.1 x.2 }) ++
  failIf (match a.fnSig with
    | some g => decide (m.sigs.length ≤ g)
    | none => false) { rule := 204 } ++
  ((entriesAt m c.start).flatMap fun e =>
    if e.1.isFn then []
    else (agreeRules c (entryState c.decl a.role none) a.state).map fun r => { r with target := c.start }) ++
  failIf ((match prev with
    | some p => decide (c.start ≤ p)
    | none => false) || decide (m.code.length ≤ c.start) || decide (c.stop ≤ c.start)) { rule := 407 } ++
  ((entriesAt m c.start).flatMap fun e => failIf (e.2 != a.role) { rule := 602, detail := a.role + e.2 * 256 }) ++
  failIf (a.role == 3 && !m.sys) { rule := 603, detail := 3 } ++
  failIf (m.travel && a.role != 0) { rule := 704 } ++
  failIf (!m.sys && a.isFn && fnStateBad c) { rule := 808 }

/-- The kernel header in force at a block: of the kernel with the last entry block at or before it, else of the first
kernel; a module of functions alone declares its stack region only. (Log 108: DEDUCED, unsafe; 109: DEDUCED, unsafe.) -/
def declFor (m : Image) (start : Nat) : KernelDecl :=
  let ks := m.exports.filter fun e => !e.isFn
  let place := fun (e : Export) => ((e.blocks.filter fun w => w != noWord && decide (w ≤ start)).foldl max 0)
  let before := ks.filter fun e => e.blocks.any fun w => w != noWord && decide (w ≤ start)
  match argMin (fun e => start - place e) before with
  | some e => e.decl
  | none =>
    match ks with
    | e :: _ => e.decl
    | [] => { regions := List.replicate 15 {} ++ [{ cls := 2, rights := 3, minLen := 0 }] }

/-- One block of the table checked. (Log 105: DEDUCED, unsafe.) -/
def checkBlock (m : Image) (patched : List (Nat × Nat)) (i : Nat) : Except Rej Unit :=
  let b := m.blocks.getD i (0, 0)
  let stop := ((m.blocks[i + 1]?).map (·.1)).getD m.code.length
  match annotAt m.ann b.2 with
  | .error r => .error { r with block := b.1 }
  | .ok a =>
    let c : Checked :=
      { img := m, sys := m.sys, decl := declFor m b.1, patched := patched, start := b.1, stop := min stop m.code.length, ann := a }
    let prev := if i == 0 then none else (m.blocks[i - 1]?).map (·.1)
    match leastRej m.sys (blockRules c prev) with
    | .error r => .error { r with block := b.1 }
    | .ok () => walkInstrs c m.code.length a.state b.1

/-- The blocks checked in table order. -/
def checkBlocks (m : Image) (patched : List (Nat × Nat)) : List Nat → Except Rej Unit
  | [] => .ok ()
  | i :: rest =>
    match checkBlock m patched i with
    | .error r => .error r
    | .ok () => checkBlocks m patched rest

/-! ## Imports, headers, exports (R382 items 2, 3 and 5) -/

/-- The entry that a name of a world resolves to: the newest (R104). -/
def entryNamed (es : List Entry) (name : Nat) : Option Entry :=
  argMin (fun (e : Entry) => 65536 - e.index) (es.filter fun e => e.name.toNat == name)

/-- The low word of a name hash (Table ADMF.2). (Log 112: DEDUCED, unsafe.) -/
def hashDetail (name : Nat) : Nat := name % 2 ^ 32

/-- Rules 801 and 802 of import `i`, or the index that it resolves to. -/
def checkImport (m : Image) (es : List Entry) (i : Nat) (x : Import) : Except Rej Nat :=
  match entryNamed es x.name with
  | none => .error { rule := 801, kind := 4, item := i, detail := hashDetail x.name }
  | some e =>
    if e.sigBytes == (m.sigs.getD x.sig default).bytes then .ok e.index
    else .error { rule := 802, kind := 4, item := i, detail := hashDetail x.name }

/-- The imports resolved in ascending index. (Log 112: DEDUCED, unsafe.) -/
def checkImports (m : Image) (es : List Entry) : List (Nat × Import) → Except Rej (List Nat)
  | [] => .ok []
  | (i, x) :: rest =>
    match checkImport m es i x, checkImports m es rest with
    | .error r, _ => .error r
    | .ok _, .error r => .error r
    | .ok n, .ok ns => .ok (n :: ns)

/-- A header out of range (rule 808, Table ADM.3, Table EXEC.6). -/
def headerBadRange (d : KernelDecl) : Bool :=
  d.roles == 0 || !(d.params.all fun p => p ≤ 4 || p == 9) || decide (512 * 1024 < d.scratch) || decide (4 * 1024 * 1024 < d.accb) ||
    decide (64 < d.handles) || decide (16 < d.bCore) || decide (8 < d.bQuad) || decide (32 < d.bDie) || decide (64 < d.bPkg) ||
    decide (64 < d.bPod) || decide (d.minLen 15 < d.stack)

/-- Whether a function export's entry block breaks R96, for a role. -/
def fnEntryBad (m : Image) (e : Export) (w : Nat) : Bool :=
  match annotOf m w with
  | none => false
  | some a =>
    a.fnSig != some e.sig ||
      fnStateBad { img := m, sys := m.sys, decl := declFor m w, patched := [], start := w, stop := w, ann := a }

/-- The ROLE of the block at an export's entry of a role; 0 where there is none. -/
def entryRole (m : Image) (e : Export) (r : Nat) : Nat :=
  ((annotOf m (e.blocks.getD r noWord)).map (·.role)).getD 0

/-- Rules 406, 604, 704 and 808 of one export.  Rule 604 shows the lowest role whose mask bit and entry block disagree. (Log 112: DEDUCED, unsafe.) -/
def exportRules (m : Image) (i : Nat) (e : Export) : List Rej :=
  let at' : Rej := { rule := 406, kind := 5, item := i }
  let used := (List.range 4).filter fun r => e.blocks.getD r noWord != noWord
  failIf (used.any fun r => !startsBlock m (e.blocks.getD r noWord)) at' ++
  (match (List.range 8).find? fun r => (bitsOf e.decl.roles r 1 == 1) != used.contains r with
    | some r => failIf (!e.isFn) { at' with rule := 604, detail := entryRole m e r + r * 256 }
    | none => []) ++
  failIf (m.travel && e.decl.regions.any fun d => d.rights != 0 && decide (3 ≤ d.cls)) { at' with rule := 704 } ++
  failIf (if e.isFn then !m.sys && used.any fun r => fnEntryBad m e (e.blocks.getD r noWord) else headerBadRange e.decl)
    { at' with rule := 808, detail := hashDetail e.name }

/-- The exports checked in ascending index. (Log 118: DEDUCED, unsafe.) -/
def checkExports (m : Image) (rules : Nat → Export → List Rej) : List (Nat × Export) → Except Rej Unit
  | [] => .ok ()
  | (i, e) :: rest =>
    match leastRej m.sys (rules i e) with
    | .error r => .error r
    | .ok () => checkExports m rules rest

/-- Rules 803 and 804 of one export. -/
def nameRules (m : Image) (es : List Entry) (i : Nat) (e : Export) : List Rej :=
  let old := entryNamed es e.name
  let at' : Rej := { rule := 803, kind := 5, item := i, detail := hashDetail e.name }
  failIf (!e.replaces && old.isSome) at' ++
  failIf (e.replaces && (match old with
    | none => true
    | some o => o.sigBytes != (m.sigs.getD e.sig default).bytes)) { at' with rule := 804 }

/-- Numbered elements of a list. -/
def numbered {α : Type} [Inhabited α] (xs : List α) : List (Nat × α) := (List.range xs.length).map fun i => (i, xs.getD i default)

/-- The whole check of an image (R382) against the entries of its world: the indices of its imports, or the cause. (Log 98: DESIGN CHOICE, safe; 118: DEDUCED, unsafe.) -/
def checkImage (m : Image) (es : List Entry) : Except Rej (List Nat) := do
  let found ← checkImports m es (numbered m.imports)
  checkExports m (exportRules m) (numbered m.exports)
  checkBlocks m (m.imports.map fun x => (x.word, x.sig)) (List.range m.blocks.length)
  checkExports m (nameRules m es) (numbered m.exports)
  need (decide (es.length + m.exports.length ≤ 65535)) { rule := 805 }
  return found

end Sys2Proof.Machine
end

