-- ==== Sys2Proof/Machine/Adu.lean ====
section
/-! DEFINITION. The admission unit: request rings, the start and the end of a request, sealing (R71 to R76, R100 to R104,
R379 to R381, R385). -/

namespace Sys2Proof.Machine

open Sys2Proof

/-! ## The request ring (R72) -/

/-- Whether the admission unit works: die 0 serves (R365), no firmware moves (R349), and its own firmware runs (R457). (Log 103: DEDUCED, unsafe.) -/
def aduServes (s : State) : Bool := s.pod.dies.getLsbD 0 && s.activation.isNone && !(fwOf s .admissionUnit).failed

/-- What the admission unit finds at the slot of request HEAD of a world. -/
inductive SlotRead where
  /-- It takes no request of the world now. -/
  | idle
  /-- The ring cannot be read. -/
  | unread
  /-- The slot is not yet valid; `reserved`: RESV exceeds HEAD. -/
  | waiting (reserved : Bool)
  /-- A request: HEAD, and the descriptor's bytes. -/
  | valid (head : Nat) (bytes : List Byte)
  deriving DecidableEq, Repr

/-- The 64 bytes at a place of a ring; none where translation refuses it, or where no route leads to its home and the read times out (R416). -/
def ringRead' (s : State) (world va : Nat) : Option (List Byte) :=
  match frontPage s world va .read with
  | none => none
  | some a => if homeReached s world 0 a then frontRead s world va 64 else none

/-- The admission unit's reading of a ring. (Log 102: DEDUCED, unsafe.) -/
def aduSlot (s : State) (world : Nat) : SlotRead :=
  let d := s.worlds.getD world {}
  let ring := d.aring.toNat
  if decide (64 ≤ world) || !d.en || ring == 0 || d.ringStopped || !aduServes s || s.adu.any (fun j => j.world == world) then .idle
  else
    match ringRead' s world ring with
    | none => .unread
    | some c =>
      let head := field c 4 0 32
      match ringRead' s world (ring + 64 + 64 * (head % 64)) with
      | none => .unread
      | some b => if (dwordIn b 0x38).toNat == head / 64 + 1 then .valid head b else .waiting (decide (head < field c 0 0 32))

/-- The ring stopped until the next WORLD_SET of the world. (Log 102: DEDUCED, unsafe.) -/
def stopRing (s : State) (world : Nat) : State :=
  { s with worlds := s.worlds.set world { s.worlds.getD world {} with ringStopped := true } }

/-- ADU_KICK (R72): the slot is read at once. -/
def execAduKick (world : Nat) (s : State) : Out :=
  match aduSlot s world with
  | .unread => .next (stopRing s world)
  | _ => .next s

/-- ADU_SLOT_REREAD (R72): the slot is read again; a slot now valid is consumed by the next ADU_REQUEST_CONSUME. -/
def execAduSlotReread (world : Nat) (s : State) : Out :=
  match aduSlot s world with
  | .unread => .next (stopRing s world)
  | _ => .next s

/-! ## Requests -/

/-- Words written to a world's memory at their homes, at an address within one page. -/
def putWords (s : State) (world va : Nat) (ws : List Nat) : State :=
  match frontPage s world va .write with
  | some a => homeWrite s a (ws.flatMap fun w => toBytes 4 w) false
  | none => s

/-- A status record of eight words (R74); lost where its place cannot be written any more (R380). -/
def putStatus (s : State) (world va : Nat) (ws : List Nat) : State :=
  putWords s world va (ws ++ List.replicate (8 - ws.length) 0)

/-- The virtual and machine pages of the code section of an image. -/
def codeFrames (s : State) (world addr kind : Nat) (img : List Byte) : List (Nat × Nat) :=
  match sectionsIn img kind with
  | .error _ => []
  | .ok (_, ss) =>
    match ss.find? fun x => x.type == 1 with
    | none => []
    | some x =>
      (List.range (ceilDiv x.size 65536)).filterMap fun i =>
        let page := (addr + x.off) / 65536 + i
        (frontPage s world (page * 65536) .read).map fun a => (page, a / 65536)

/-- Why a request is malformed, by the lowest code (R380); `img`: the image, where every page of it can be read. (Log 99: DEDUCED, unsafe.) -/
def malformedCode (s : State) (world slot : Nat) (b : List Byte) (img : Option (List Byte)) : Option Nat :=
  let kind := field b 0x0C 0 2
  let len := field b 8 0 32
  let named := field b 0x10 0 8
  [ (1, decide (2 ≤ kind)), (2, (dwordIn b 0).toNat % 65536 != 0), (3, len == 0 || decide (0x4000000 < len)),
    (4, !(s.worlds.getD named {}).en), (5, kind == 1 && s.tenantSlots.contains (world, slot)), (6, img.isNone)
  ].findSome? fun (c : Nat × Bool) => if c.2 then some c.1 else none

/-- The module of a world that was sealed from the same image under the same KIND (R76). (Log 96: DEDUCED, unsafe.) -/
def sameModule (s : State) (world kind len : Nat) (digest : BitVec 384) : Option Seal :=
  s.seals.find? fun m => m.world == world && m.kind == kind && m.bytes == len && m.digest == digest

/-- The record of an accepted request. (Log 96: DEDUCED, unsafe.) -/
def acceptedWords (m : Seal) : List Nat := [0, m.modId, m.firstExport, m.exportCount]

/-- The pages of a job's code section enter or leave the state *checking*; sealed pages stay sealed. -/
def startChecking (s : State) (frames : List (Nat × Nat)) : State :=
  { s with pages := frames.foldl (fun ps f => if look ps f.2 .opened == .sealed then ps else put ps f.2 .checking) s.pages }

def stopChecking (s : State) (frames : List (Nat × Nat)) : State :=
  { s with pages := s.pages.filter fun p => !(p.2 == .checking && frames.any fun f => f.2 == p.1) }

/-- A request taken (R73 to R76, R380). (Log 99: DEDUCED, unsafe; 101: DEDUCED, unsafe.) -/
def takeRequest (s : State) (world slot : Nat) (b : List Byte) : State :=
  let kind := field b 0x0C 0 2
  let addr := (dwordIn b 0).toNat
  let len := field b 8 0 32
  let status := (dwordIn b 0x18).toNat
  let img := if addr % 65536 == 0 && decide (len ≤ 0x4000000) then frontRead s world addr len else none
  if status % 32 != 0 || (frontPage s world status .write).isNone then s
  else
    match malformedCode s world slot b img with
    | some c => putStatus s world status [2, c]
    | none =>
      let bytes := img.getD []
      let digest := sha384 bytes
      match sameModule s world kind len digest with
      | some m => putStatus s world status (acceptedWords m)
      | none =>
        let frames := codeFrames s world addr kind bytes
        let s := startChecking s frames
        { s with adu := s.adu ++ [{ world := world, kind := kind, addr := addr, len := len, status := status
                                    digest := digest, image := bytes, frames := frames }] }

/-- ADU_REQUEST_CONSUME (R72): the request at HEAD is taken, and HEAD advances. (Log 100: DEDUCED, unsafe.) -/
def execAduRequestConsume (world : Nat) (s : State) : Out :=
  match aduSlot s world with
  | .idle => .next s
  | .waiting _ => .next s
  | .unread => .next (stopRing s world)
  | .valid head b =>
    let slot := head % 64
    let t := putWords (takeRequest s world slot b) world ((s.worlds.getD world {}).aring.toNat + 4) [(head + 1) % 2 ^ 32]
    .next { t with tenantSlots := t.tenantSlots.filter fun x => x != (world, slot) }

/-! ## Sealing (R76, R100 to R104) -/

/-- A word of the code section written by the admission unit. -/
def putCode (frames : List (Nat × Nat)) (s : State) (va : Nat) (w : Nat) : State :=
  match frames.find? fun f => f.1 == va / 65536 with
  | some f => homeWrite s (f.2 * 65536 + va % 65536) (toBytes 4 w) false
  | none => s

/-- The resolved index written into the immediate of an import's MOVI and of its prefix (R103, R115). -/
def patchImport (frames : List (Nat × Nat)) (code : Nat) (m : Image) (s : State) (x : Import × Nat) : State :=
  let w := (m.code.getD x.1.word 0).toNat
  let p := (m.code.getD (x.1.word - 1) 0).toNat
  let s := putCode frames s (code + 4 * x.1.word) (w / 65536 * 65536 + x.2 % 65536)
  putCode frames s (code + 4 * (x.1.word - 1)) (p / 8192 * 8192 + x.2 / 65536 % 32 * 256 + p % 256)

/-- The first word of the last instruction of a block that ends at `stop`. -/
def lastIns (m : Image) (start stop : Nat) : Nat :=
  if decide (start + 2 ≤ stop) && isPfxWord (m.code.getD (stop - 2) 0) then stop - 2 else stop - 1

/-- The blocks of an image with their ends and annotations. -/
def annotated (m : Image) : List (Nat × Nat × Annot) :=
  (List.range m.blocks.length).filterMap fun i =>
    let b := m.blocks.getD i (0, 0)
    match annotAt m.ann b.2 with
    | .ok a => some (b.1, ((m.blocks[i + 1]?).map (·.1)).getD m.code.length, a)
    | .error _ => none

/-- The live registers of a block (R305). -/
def liveMask (a : Annot) : BitVec 256 :=
  a.types.foldl (fun x t =>
    if t.2.holds == .dead then x
    else x ||| (1 <<< t.1 : BitVec 256) ||| (if t.2.pair then (1 <<< (t.1 + 1) : BitVec 256) else 0)) 0

/-- The number of registers in a mask. -/
def maskCount (x : BitVec 256) : Nat := ((List.range 256).filter fun i => x.getLsbD i).length

/-- What is kept of an accepted image. -/
def sealFor (s : State) (j : AduJob) (m : Image) (first : Nat) : Seal :=
  let code := j.addr + m.codeOff
  let blocks := annotated m
  let live := blocks.map fun b => (code + 4 * b.1, liveMask b.2.2)
  { world := j.world, modId := (s.worlds.getD j.world {}).nextMod, digest := j.digest, kind := j.kind, bytes := j.len, code := code
    words := m.code.length, pages := j.frames.length, firstExport := first, exportCount := m.exports.length
    joins := blocks.filterMap fun b => b.2.2.split.map fun l => (code + 4 * lastIns m b.1 b.2.1, code + 4 * l)
    jumps := numbered (m.tables.map (·.2)), travel := m.travel
    live := if m.travel then live else [], maxLive := if m.travel then largest (live.map fun x => maskCount x.2) else 0
    segments := m.segs }

/-- The entry that an export appends (R102). -/
def entryOf' (j : AduJob) (m : Image) (modId index : Nat) (e : Export) : Entry :=
  let g := m.sigs.getD e.sig default
  { world := j.world, index := index, modId := modId, name := BitVec.ofNat 64 e.name, isFn := e.isFn
    code := e.blocks.map fun w => if w == noWord then none else some (j.addr + m.codeOff + 4 * w)
    frame := g.frame, sigRole := g.role, sigBytes := g.bytes, decl := e.decl }

/-- The entries of a world's table. -/
def entriesOf (s : State) (world : Nat) : List Entry := s.entries.filter fun e => e.world == world

/-- An accepted image: patched, sealed, its exports appended, the world's measurement extended (Table SEC.5). (Log 95: DEDUCED, unsafe.) -/
def sealImage (s : State) (j : AduJob) (m : Image) (found : List Nat) : State × Seal :=
  let first := (entriesOf s j.world).length
  let x := sealFor s j m first
  let s := (m.imports.zip found).foldl (patchImport j.frames x.code m) s
  let s := j.frames.foldl (fun s f =>
    { s with
      pages := put s.pages f.2 .sealed
      owners := { ownerOf s f.2 with sealed := true } :: s.owners.filter fun o => o.page != f.2 }) s
  let d := s.worlds.getD j.world {}
  let meas := sha384 (digestBytes d.meas ++ digestBytes j.digest)
  ({ s with
     seals := s.seals ++ [x]
     sealTable := s.sealTable.filter (fun p => !j.frames.any fun f => f.2 == p.page) ++
       j.frames.map fun f => { page := f.2, world := j.world, modId := x.modId, digest := j.digest }
     entries := s.entries ++ (numbered m.exports).map fun e => entryOf' j m x.modId (first + e.1) e.2
     worlds := s.worlds.set j.world { d with meas := meas, nextMod := d.nextMod + 1 } }, x)

/-- The rejection record (Table ADMF.1). -/
def rejectWords (r : Rej) : List Nat :=
  [1, r.rule, r.block, r.word, r.instr.toNat, r.target, r.kind * 2 ^ 28 + r.item % 2 ^ 28, r.detail % 2 ^ 32]

/-- What the admission unit finds of an image: its parts with the indices of its imports, or the cause (R382). (Log 99: DEDUCED, unsafe.) -/
def checkRequest (s : State) (j : AduJob) : Except Rej (Image × List Nat) :=
  match imageOf j.image j.kind with
  | .error r => .error r
  | .ok m => (checkImage m (entriesOf s j.world)).map fun found => (m, found)

/-- ADMISSION_COMPLETE (R74, R381): the outcome of the request that a world has in checking. (Log 98: DESIGN CHOICE, safe.) -/
def execAdmissionComplete (world : Nat) (s : State) : Out :=
  match s.adu.find? fun j => j.world == world with
  | none => .next s
  | some j =>
    if !aduServes s then .next s
    else
      let rest := { s with adu := s.adu.filter fun j => j.world != world }
      match checkRequest s j with
      | .error r => .next (putStatus (stopChecking rest j.frames) world j.status (rejectWords r))
      | .ok (m, found) =>
        let done := sealImage rest j m found
        .next (putStatus done.1 world j.status (acceptedWords done.2))

end Sys2Proof.Machine
end

