-- ==== Sys2Proof/Machine/Arith.lean ====
section
/-! DEFINITION. Integer arithmetic of rows 1x, 2x and 3x (R167 to R172). -/

namespace Sys2Proof.Machine

open Sys2Proof

/-! ## Elementwise functions (Table ISAI.2) -/

/-- IntOut of a function of two elements. -/
def elem2 (t : IntEt) (sat : Bool) (f : Int → Int → Int) (a b : Word) : Word :=
  t.pack fun j => intOut t sat (f (t.elem a j) (t.elem b j))

/-- IntOut of a function of one element. -/
def elem1 (t : IntEt) (sat : Bool) (f : Int → Int) (a : Word) : Word := t.pack fun j => intOut t sat (f (t.elem a j))

/-- The high half of a product, floored (MULH). -/
def mulHigh (t : IntEt) (a b : Word) : Word :=
  t.pack fun j => wrap t.n ((t.elem a j * t.elem b j) / (2 ^ t.n : Nat))

/-- a × b + c with one reduction (MAD). -/
def mulAdd (t : IntEt) (sat : Bool) (a b c : Word) : Word :=
  t.pack fun j => intOut t sat (t.elem a j * t.elem b j + t.elem c j)

/-- Shifts by element, the count modulo the width; signedness is ignored. -/
def shiftLeft (t : IntEt) (a b : Word) : Word := t.pack fun j => t.raw a j * 2 ^ (t.raw b j % t.n)
def shiftRight (t : IntEt) (a b : Word) : Word := t.pack fun j => t.raw a j / 2 ^ (t.raw b j % t.n)
def shiftArith (t : IntEt) (a b : Word) : Word :=
  t.pack fun j => wrap t.n (signExt (t.raw a j) t.n / (2 ^ (t.raw b j % t.n) : Nat))

/-- A count in every element of a lane. -/
def countLane (t : IntEt) (n : Nat) : Word := t.pack fun _ => n

/-! ## Whole-lane functions (R168 to R171) -/

/-- The number of leading zero bits. -/
def leadingZeros (v : Word) : Word := BitVec.ofNat 32 (if v == 0#32 then 32 else 31 - v.toNat.log2)

/-- The number of 1 bits. -/
def popCount (v : Word) : Word := BitVec.ofNat 32 (laneCount v)

/-- Bit i moved to bit 31 − i. -/
def bitReverse (v : Word) : Word := maskOf fun i => v.getLsbD (31 - i)

/-- Position and effective width of a field descriptor (R170). -/
def fieldPos (d : Word) : Nat := bitsOf d.toNat 0 5
def fieldWidth (d : Word) : Nat := min (min (bitsOf d.toNat 8 6) 32) (32 - fieldPos d)

/-- BFX. -/
def bitExtract (signed : Bool) (a d : Word) : Word :=
  let w := fieldWidth d
  let f := bitsOf a.toNat (fieldPos d) w
  if w == 0 then 0#32 else if signed then wordOf (signExt f w) else BitVec.ofNat 32 f

/-- BFI. -/
def bitInsert (a b d : Word) : Word :=
  let m : Word := BitVec.ofNat 32 ((2 ^ fieldWidth d - 1) * 2 ^ fieldPos d)
  (b &&& ~~~m) ||| ((a <<< fieldPos d) &&& m)

/-- One byte that PRMT selects: a pool byte, or its sign spread. -/
def permuteByte (pool : Nat) (sel : Nat) : Nat :=
  let y := bitsOf pool (8 * (sel % 8)) 8
  if bitsOf sel 3 1 == 1 then (if 128 ≤ y then 255 else 0) else y

/-- PRMT: the pool is the four bytes of A below the four of old D. -/
def permute (a old sel : Word) : Word :=
  let pool := a.toNat + old.toNat * 2 ^ 32
  BitVec.ofNat 32 (total ((List.range 4).map fun j => permuteByte pool (bitsOf sel.toNat (4 * j) 4) * 2 ^ (8 * j)))

/-- The exact total of a packed dot product of `m` elements (R171). -/
def dotTotal (m : Nat) (signed : Bool) (a b c : Word) : Int :=
  let w := 32 / m
  let e := fun (v : Word) (j : Nat) => if signed then signExt (bitsOf v.toNat (w * j) w) w else (bitsOf v.toNat (w * j) w : Int)
  (List.range m).foldl (fun t j => t + e a j * e b j) (whole signed c)

/-- DP4, DP2: reduced modulo 2^32. -/
def dotWrap (m : Nat) (signed : Bool) (a b c : Word) : Word := wordOf (dotTotal m signed a b c)

/-- DP4S, DP2S: saturated. -/
def dotSat (m : Nat) (signed : Bool) (a b c : Word) : Word :=
  let t := dotTotal m signed a b c
  wordOf (if signed then clamp (-(2 ^ 31 : Nat)) ((2 ^ 31 : Nat) - 1) t else clamp 0 ((2 ^ 32 : Nat) - 1) t)

/-! ## Rows 1x -/

def execAdd (p : Option Pfx) (d a b : BitVec 8) (s : State) : Out :=
  binary p d.toNat a.toNat b.toNat (elem2 (myEt s) (mySat s) (· + ·)) s

def execSub (p : Option Pfx) (d a b : BitVec 8) (s : State) : Out :=
  binary p d.toNat a.toNat b.toNat (elem2 (myEt s) (mySat s) (· - ·)) s

def execMul (p : Option Pfx) (d a b : BitVec 8) (s : State) : Out :=
  binary p d.toNat a.toNat b.toNat (elem2 (myEt s) (mySat s) (· * ·)) s

def execMulh (p : Option Pfx) (d a b : BitVec 8) (s : State) : Out :=
  binary p d.toNat a.toNat b.toNat (mulHigh (myEt s)) s

def execMad (p : Option Pfx) (d a b : BitVec 8) (s : State) : Out :=
  ternary p d.toNat a.toNat b.toNat (mulAdd (myEt s) (mySat s)) s

def execIand (p : Option Pfx) (d a b : BitVec 8) (s : State) : Out :=
  binary p d.toNat a.toNat b.toNat (· &&& ·) s

def execIor (p : Option Pfx) (d a b : BitVec 8) (s : State) : Out :=
  binary p d.toNat a.toNat b.toNat (· ||| ·) s

def execIxor (p : Option Pfx) (d a b : BitVec 8) (s : State) : Out :=
  binary p d.toNat a.toNat b.toNat (· ^^^ ·) s

def execShl (p : Option Pfx) (d a b : BitVec 8) (s : State) : Out :=
  binary p d.toNat a.toNat b.toNat (shiftLeft (myEt s)) s

def execShr (p : Option Pfx) (d a b : BitVec 8) (s : State) : Out :=
  binary p d.toNat a.toNat b.toNat (shiftRight (myEt s)) s

def execSar (p : Option Pfx) (d a b : BitVec 8) (s : State) : Out :=
  binary p d.toNat a.toNat b.toNat (shiftArith (myEt s)) s

def execImin (p : Option Pfx) (d a b : BitVec 8) (s : State) : Out :=
  binary p d.toNat a.toNat b.toNat (elem2 (myEt s) false min) s

def execImax (p : Option Pfx) (d a b : BitVec 8) (s : State) : Out :=
  binary p d.toNat a.toNat b.toNat (elem2 (myEt s) false max) s

/-- SEL: the chosen source's lane with its side bit; poisoned where the selector is (Table INSF.3). -/
def selectRow (c a b : Row) : Row :=
  rowOf fun l => if poisonAt c l then poisoned else if (valAt c l).getLsbD 0 then laneAt a l else laneAt b l

def execSel (p : Option Pfx) (d a b : BitVec 8) (s : State) : Out :=
  let c := thirdReg p d.toNat
  compute p [d.toNat, a.toNat, b.toNat, c]
    [(d.toNat, selectRow (regOf (me s) c) (regOf (me s) a.toNat) (regOf (me s) b.toNat))] s

def execIabs (p : Option Pfx) (d a : BitVec 8) (s : State) : Out :=
  unary p d.toNat a.toNat (elem1 (myEt s) (mySat s) fun x => (x.natAbs : Int)) s

def execIneg (p : Option Pfx) (d a : BitVec 8) (s : State) : Out :=
  unary p d.toNat a.toNat (elem1 (myEt s) (mySat s) fun x => -x) s

/-! ## Row 2x -/

def execCmpeq (p : Option Pfx) (d a b : BitVec 8) (s : State) : Out :=
  binary p d.toNat a.toNat b.toNat (fun x y => truth (x == y)) s

def execCmpne (p : Option Pfx) (d a b : BitVec 8) (s : State) : Out :=
  binary p d.toNat a.toNat b.toNat (fun x y => truth (x != y)) s

def execCmplt (p : Option Pfx) (d a b : BitVec 8) (s : State) : Out :=
  let g := (myEt s).signed
  binary p d.toNat a.toNat b.toNat (fun x y => truth (decide (whole g x < whole g y))) s

def execCmple (p : Option Pfx) (d a b : BitVec 8) (s : State) : Out :=
  let g := (myEt s).signed
  binary p d.toNat a.toNat b.toNat (fun x y => truth (decide (whole g x ≤ whole g y))) s

def execClz (p : Option Pfx) (d a : BitVec 8) (s : State) : Out := unary p d.toNat a.toNat leadingZeros s

def execPopc (p : Option Pfx) (d a : BitVec 8) (s : State) : Out := unary p d.toNat a.toNat popCount s

def execBrev (p : Option Pfx) (d a : BitVec 8) (s : State) : Out := unary p d.toNat a.toNat bitReverse s

def execBfx (p : Option Pfx) (d a b : BitVec 8) (s : State) : Out :=
  binary p d.toNat a.toNat b.toNat (bitExtract (myEt s).signed) s

def execBfi (p : Option Pfx) (d a b : BitVec 8) (s : State) : Out := ternary p d.toNat a.toNat b.toNat bitInsert s

def execPrmt (p : Option Pfx) (d a b : BitVec 8) (s : State) : Out :=
  let ra := regOf (me s) a.toNat
  let rb := regOf (me s) b.toNat
  let rd := regOf (me s) d.toNat
  compute p [d.toNat, a.toNat, b.toNat]
    [(d.toNat, laneRow [ra, rb, rd] fun l => permute (valAt ra l) (valAt rd l) (valAt rb l))] s

def execDp4 (p : Option Pfx) (d a b : BitVec 8) (s : State) : Out :=
  ternary p d.toNat a.toNat b.toNat (dotWrap 4 (myEt s).signed) s

def execDp4s (p : Option Pfx) (d a b : BitVec 8) (s : State) : Out :=
  ternary p d.toNat a.toNat b.toNat (dotSat 4 (myEt s).signed) s

def execDp2 (p : Option Pfx) (d a b : BitVec 8) (s : State) : Out :=
  ternary p d.toNat a.toNat b.toNat (dotWrap 2 (myEt s).signed) s

def execDp2s (p : Option Pfx) (d a b : BitVec 8) (s : State) : Out :=
  ternary p d.toNat a.toNat b.toNat (dotSat 2 (myEt s).signed) s

/-- MOV: the source lane's value and side bit (Table INSF.3). -/
def execMov (p : Option Pfx) (d a : BitVec 8) (s : State) : Out :=
  compute p [d.toNat, a.toNat] [(d.toNat, regOf (me s) a.toNat)] s

def execInot (p : Option Pfx) (d a : BitVec 8) (s : State) : Out := unary p d.toNat a.toNat (fun x => ~~~x) s

/-! ## Row 3x (R172) -/

def execAddi (p : Option Pfx) (d a i : BitVec 8) (s : State) : Out :=
  let t := myEt s
  unary p d.toNat a.toNat (elem1 t (mySat s) fun x => x + immSigned p i) s

def execAndi (p : Option Pfx) (d a i : BitVec 8) (s : State) : Out :=
  unary p d.toNat a.toNat (· &&& BitVec.ofNat 32 (immZero p i)) s

def execOri (p : Option Pfx) (d a i : BitVec 8) (s : State) : Out :=
  unary p d.toNat a.toNat (· ||| BitVec.ofNat 32 (immZero p i)) s

def execXori (p : Option Pfx) (d a i : BitVec 8) (s : State) : Out :=
  unary p d.toNat a.toNat (· ^^^ BitVec.ofNat 32 (immZero p i)) s

def execShli (p : Option Pfx) (d a : BitVec 8) (i : BitVec 5) (s : State) : Out :=
  let t := myEt s
  unary p d.toNat a.toNat (fun x => shiftLeft t x (countLane t (i.toNat % t.n))) s

def execShri (p : Option Pfx) (d a : BitVec 8) (i : BitVec 5) (s : State) : Out :=
  let t := myEt s
  unary p d.toNat a.toNat (fun x => shiftRight t x (countLane t (i.toNat % t.n))) s

def execSari (p : Option Pfx) (d a : BitVec 8) (i : BitVec 5) (s : State) : Out :=
  let t := myEt s
  unary p d.toNat a.toNat (fun x => shiftArith t x (countLane t (i.toNat % t.n))) s

def execMuli (p : Option Pfx) (d a i : BitVec 8) (s : State) : Out :=
  let t := myEt s
  unary p d.toNat a.toNat (elem1 t (mySat s) fun x => x * immSigned p i) s

def execCmpeqi (p : Option Pfx) (d a i : BitVec 8) (s : State) : Out :=
  unary p d.toNat a.toNat (fun x => truth (x == wordOf (immSigned p i))) s

def execCmplti (p : Option Pfx) (d a i : BitVec 8) (s : State) : Out :=
  let g := (myEt s).signed
  unary p d.toNat a.toNat (fun x => truth (decide (whole g x < whole g (wordOf (immSigned p i))))) s

/-- MOVI: clean in every lane it writes (Table INSF.3). -/
def execMovi (p : Option Pfx) (d : BitVec 8) (i : BitVec 16) (s : State) : Out :=
  compute p [d.toNat] [(d.toNat, splat (wordOf (immSigned p i)))] s

def execMovhi (p : Option Pfx) (d : BitVec 8) (i : BitVec 16) (s : State) : Out :=
  unary p d.toNat d.toNat (fun x => i ++ x.extractLsb' 0 16) s

end Sys2Proof.Machine
end

