-- ==== Sys2Proof/Machine/Msix.lean ====
section
/-! DEFINITION. MSI-X messages (R286). -/

namespace Sys2Proof.Machine

open Sys2Proof

/-- Vectors of a function's table. -/
def msixSize (fn : Nat) : Nat := if fn == 0 then 257 else 8

/-- A vector of a function; a vector never touched is masked, as the capability has it. (Log 26: PRESUMED, unsafe.) -/
def msixVec (s : State) (fn vec : Nat) : MsixVec :=
  (s.msix.find? fun x => x.fn == fn && x.vec == vec).getD { fn := fn, vec := vec, masked := true, pending := false }

/-- The table with one vector replaced. -/
def putMsix (s : State) (x : MsixVec) : State :=
  { s with msix := x :: s.msix.filter fun y => !(y.fn == x.fn && y.vec == x.vec) }

/-- A message raised: sent, or left pending while its vector is masked; none beyond the table. -/
def raiseMsix (s : State) (fn vec : Nat) : State :=
  if msixSize fn ≤ vec then s
  else if (msixVec s fn vec).masked then putMsix s { msixVec s fn vec with pending := true }
  else { s with out := s.out ++ [.msix fn vec] }

/-- The vectors of the functions that satisfy `f` masked again, with nothing pending, as a reset of a function leaves its capability. (Log 156: PRESUMED, unsafe.) -/
def resetMsix (s : State) (f : Nat → Bool) : State := { s with msix := s.msix.filter fun x => !f x.fn }

/-- A vector masked by the host through its function's capability; its pending bit stays. -/
def maskVector (s : State) (fn vector : Nat) : State :=
  if msixSize fn ≤ vector then s else putMsix s { msixVec s fn vector with masked := true }

/-- MSIX_UNMASK (R286): a pending message is sent. -/
def execMsixUnmask (fn vector : Nat) (s : State) : Out :=
  let x := msixVec s fn vector
  let s1 := putMsix s { x with masked := false, pending := false }
  .next (if msixSize fn ≤ vector then s else if x.pending then { s1 with out := s1.out ++ [.msix fn vector] } else s1)

end Sys2Proof.Machine
end

