-- ==== Sys2Proof/Machine/Faults.lean ====
section
/-! DEFINITION. The events of R158, R368, R369, R376 and R416: scoreboard release, trap entry, imprecise faults,
remote timeouts, and the fault log. -/

namespace Sys2Proof.Machine

open Sys2Proof

/-- Whether a scoreboard hold ends with a latency: no reply and no array is to end it (R205, R244). -/
def byLatency (s : State) (hold : Nat) : Bool :=
  s.ops.all (fun o => o.hold != some hold) && s.warps.all (fun w => (w.xchg.map (·.hold)) != some hold) && s.arrays.all fun a => a.queue.all fun o => o.hold != some hold

/-- SCOREBOARD_RELEASE (R158): an instruction's latency has run out. -/
def execScoreboardRelease (core slot hold : Nat) (s : State) : Out :=
  if byLatency s hold then
    .next (onWarp s (warpAt s core slot) fun w => { w with holds := w.holds.filter fun h => h.id != hold })
  else .next s

/-- TRAP_ENTRY (R369, R404): the precise or pending fault's entry, once registers and flags are settled. -/
def execTrapEntry (core slot : Nat) (s : State) : Out :=
  let i := warpAt s core slot
  if settled (s.warps.getD i {}) then .next (enterTrap s i) else .next s

/-! ## Imprecise faults (R368) -/

/-- The word at an instruction address: what the core holds of it, or else what its page holds, if a fetch would read it. (Log 37: DESIGN CHOICE, unsafe.) -/
def codeWord (s : State) (core world va : Nat) : Option Word :=
  match iWord s core world va with
  | some x => some x.1
  | none =>
    match fetchPage s core world va with
    | .ok e => some ((readLine s core world va e).words.getD (va % 64 / 4) 0)
    | .error _ => none

/-- The non-prefix word and prefix at a PC; a word that no fetch can read stands as 0. (Log 37: DESIGN CHOICE, unsafe.) -/
def wordsAt (s : State) (w : Warp) (pc : Pc) : Word × Word :=
  let at' := codeWord s w.core (launchOf s w).world
  match at' pc.toNat with
  | none => (0, 0)
  | some x => if isPfxWord x then ((at' (pc.toNat + 4)).getD 0, x) else (x, 0)

/-- The record of a pending fault, for the fragment it serves, or for none (R368). (Log 37: DESIGN CHOICE, unsafe.) -/
def pendingRecord (s : State) (w : Warp) (p : Pending) (f : Option Frag) : FaultRec :=
  let pc := (f.map (·.pc)).getD p.pc
  let words := match f with
    | some g => wordsAt s w g.pc
    | none => (p.instr, p.pfxWord)
  let c : Cause :=
    { cls := p.cls, code := p.code, res := p.res, pois := p.pois, lanes := p.lanes, addr := p.addr
      info := p.info.getD (BitVec.ofNat 32 (p.pc.toNat / 4)) }
  { recordOf s w ((f.map (·.frag)).getD 0) pc c with prec := false, instr := words.1, pfxWord := words.2, time := p.time }

/-- A warp's oldest pending fault is taken: its counter falls, and it enters the handler or halts the warp.  An entry waits until the warp's
register writes and flags are settled (R404); no fragment issues meanwhile. -/
def takePending (s : State) (i : Nat) : State :=
  let w := s.warps.getD i {}
  match w.pending with
  | [] => s
  | p :: rest =>
    let f := servedBy w p.frag
    let r := pendingRecord s w p f
    let t := onWarp s i fun w => { w with pending := rest }.fell p
    match f with
    | none => haltWarp t i r
    | some g =>
      if fatal s w r then haltWarp t i r
      else if settled w then enterTrap (onWarp t i fun w => { w with trap := some { frag := g.id, record := r, rpc := g.pc } }) i
      else s

/-- IMPRECISE_FAULT_TAKE (R368): at the warp's next issue opportunity; a running handler puts it off to its ERET, and a save until the warp
has resumed (R430). -/
def execImpreciseFaultTake (core slot : Nat) (s : State) : Out :=
  let i := warpAt s core slot
  let w := s.warps.getD i {}
  if w.halted || w.trap.isSome || !pendingNow w then .next s else .next (takePending s i)

/-- The line of a copy that is not answered, by its first byte of the range (R421, R424): a source line that no route or no slice brings, else
the first destination line that is lost or has no route, else the first that is left. (Log 53: DEDUCED, unsafe.) -/
def unanswered (s : State) (c : Copy) : Nat :=
  let stuck := c.lines.find? fun l => lineLost s c.id l || !lineReached s c l
  let owed := s.merges.find? fun m => c.owed.contains m.id
  let source := if c.accepted then owed.map fun m => max c.src.start m.line else unreached s c
  match c.dst, source, stuck with
  | _, some a, _ => a
  | .mem _, none, some l => max c.dst.start l
  | .mem _, none, none => max c.dst.start (c.lines.headD 0)
  | .scratch _, none, _ => c.src.start

/-- Whether a copy waits for an answer from a home or window: its lines, or its source's where it is not accepted for want of a route. -/
def Copy.awaits (c : Copy) (s : State) : Bool := if c.accepted then c.asksOut else (unreached s c).isSome

/-- Code 0x030 of a LOCK left pending at its warp (R416). -/
def failLock (s : State) (id : Nat) : State :=
  match lockAsker s id with
  | none => s
  | some (i, fid, word, va) =>
    let w := s.warps.getD i {}
    let f := (fragById w fid).getD {}
    let x := wordsAt s w f.pc
    leavePending (loseLock s id i fid word) w.team w.wid
      { cls := 3, code := 0x030, res := false, pois := false, frag := f.frag, pc := f.pc, instr := x.1, pfxWord := x.2, ctr := none
        lanes := f.exec, addr := va }

/-- The warp and fragment whose refill has a number, if a fragment waits for one. -/
def refillAsker (s : State) (id : Nat) : Option (Nat × Frag) :=
  s.warps.zipIdx.findSome? fun wi => (refilling wi.1).bind fun x => if x.2 == id then some (wi.2, x.1) else none

/-- Code 0x030 of a refill left pending at its warp (R416, R417): nothing is popped. (Log 187: DEDUCED, unsafe.) -/
def failRefill (s : State) (id : Nat) : State :=
  match refillAsker s id with
  | none => s
  | some (i, f) =>
    let w := s.warps.getD i {}
    let x := wordsAt s w f.pc
    leavePending (onWarp s i fun w => onFrag w f.id fun f => { f with wait := .none }) w.team w.wid
      { cls := 3, code := 0x030, res := false, pois := false, frag := f.frag, pc := f.pc, instr := x.1, pfxWord := x.2, ctr := none
        lanes := f.exec, addr := refillBlock w }

/-- REMOTE_TIMEOUT (R416, R424): the request of an operation that asks a home or window is lost; it writes no register, its destinations are released as
failed, and code 0x030 is left pending.  A copy's line so lost ends the copy with code 0x104.
A LOCK's request or reply, and a refill, are named by their numbers. (Log 4: DESIGN CHOICE, safe; 53: DEDUCED, unsafe.) -/
def execRemoteTimeout (op : Nat) (s : State) : Out :=
  match s.ops.find? fun o => o.id == op with
  | none =>
    match s.copies.find? fun c => c.id == op && c.awaits s with
    | none => .next (failRefill (failLock s op) op)
    | some c => .next (failCopy s c 0x104 (unanswered s c))
  | some o =>
    if o.homes.isEmpty then .next s
    else
      let s := wcbDrain { s with ops := s.ops.filter fun x => x.id != op } fun x => x.ops.contains op
      let s := onWarp s (warpOfTeam s o.team o.wid) fun w => { w with holds := w.holds.filter fun h => some h.id != o.hold }
      .next (leavePending s o.team o.wid
        { cls := 3, code := 0x030, res := false, pois := false, frag := o.frag, pc := o.pc, instr := o.instr, pfxWord := o.pfxWord
          ctr := some o.ctr, lanes := o.active, addr := o.addr })

/-! ## The fault log (R376) -/

/-- FAULT_LOG_ENABLE (R376): a write of the word at 0x18; LOG2 is taken while EN = 0, and EN = 1 starts the log anew. -/
def execFaultLogEnable (value : BitVec 32) (s : State) : Out :=
  let n := bitsOf value.toNat 0 5
  let log2 := if s.log.en then s.log.log2 else if 4 ≤ n && n ≤ 16 then n else 4
  let l := { s.log with en := value.getLsbD 31, log2 := log2 }
  .next { s with log := if value.getLsbD 31 then { l with head := 0, tail := 0, waiting := [] } else l }

/-- Whether a fault that is to be logged was detected before a time, and has not been taken yet. (Log 173: DEDUCED, unsafe.) -/
def detectedBefore (s : State) (t : Nat) : Bool :=
  s.warps.any fun w => (w.pending.any fun p => decide (p.time < t)) || w.trap.any fun q => decide (2 ≤ q.record.cls) && decide (q.record.time < t)

/-- FAULT_LOG_ACK (R376): the oldest record is written to the ring under the physical function's requester ID, HEAD advances, and vector 0 of the physical function is
raised when HEAD leaves TAIL; none is written before one detected earlier, and with EN = 0 or no route to the bridge it is lost. (Log 135: DEDUCED, unsafe; 173: DEDUCED, unsafe.) -/
def execFaultLogAck (s : State) : Out :=
  match s.log.waiting with
  | [] => .next s
  | r :: rest =>
    if !s.log.en || !bridgeReachable s then .next (lostMore { s with log := { s.log with waiting := rest } })
    else if detectedBefore s r.time then .next s
    else
      let k := s.log.head.toNat % 2 ^ s.log.log2
      let left := s.log.head == s.log.tail
      let at' := s.log.base.toNat + 64 * k
      let s := { s with
        hostMem := s.hostMem.write at' (bytesOf r.words) false
        out := s.out ++ [.write 0 at' (bytesOf r.words)]
        log := { s.log with head := s.log.head + 1, waiting := rest } }
      .next (if left then raiseMsix s 0 0 else s)

end Sys2Proof.Machine
end

