-- ==== Sys2Proof/Machine/System.lean ====
section
/-! DEFINITION. Time, counters, traps and segments: row 0xE0 (R256 to R260, R371, R405), and the debug block (R360). -/

namespace Sys2Proof.Machine

open Sys2Proof

/-! ## CLOCK, PERF, TRAPRD (R256 to R258) -/

/-- A result in every lane of EXEC; an empty EXEC only takes the issue slot (R224). -/
def laneless (ds : List (Nat × Row)) (s : State) : Out :=
  if (fr s).exec == 0#32 then .next (advance s) else guarded (outside s (ds.map (·.1))) (execAndGo ds s) s

def execClock (d : BitVec 8) (s : State) : Out :=
  laneless [(d.toNat, splat (BitVec.ofNat 32 s.clk)), (d.toNat + 1, splat (BitVec.ofNat 32 (s.clk / 2 ^ 32)))] s

/-- A team counter as PERF reads it (Table ISAE.6). (Log 139: DESIGN CHOICE, safe; 140: DEDUCED, unsafe.) -/
def perfWord (s : State) (n : Nat) : Word := (teamOf s (me s)).perf.getD n 0

def execPerf (d n : BitVec 8) (s : State) : Out := laneless [(d.toNat, splat (perfWord s n.toNat))] s

def execTraprd (d : BitVec 8) (n : BitVec 4) (s : State) : Out :=
  laneless [(d.toNat, splat (if (fr s).handler then (me s).kept.words.getD n.toNat 0 else 0))] s

/-! ## ERET (R371, R405) -/

/-- What follows a handler's return: a warp whose saving handler returns is saved (R300), and keeps its pending faults until it has resumed (R430); of
another handler, a fault that arose meanwhile is taken in place of the resumption (R371, R406). (Log 39: DEDUCED, unsafe.) -/
def afterReturn (s : State) : State :=
  let w := me s
  if w.halted then s
  else if w.saving && w.kept.cls == 0 then setMe s { w with saved := true }
  else if !w.frags.isEmpty && !w.pending.isEmpty then takePending s s.cur.warp
  else s

def execEret (s : State) : Out :=
  if (fr s).handler && !holds s (me s) .quiet then .next (waitFor .quiet s)
  else .next (afterExit (afterReturn (returnFromTrap (issued s))))

/-! ## SEGQ (R259) -/

/-- The refusal of a map's address, as a load's. (Log 40: DEDUCED, unsafe.) -/
def mapCauses (s : State) (va : Nat) : List Cause :=
  spotCauses s (me s) (BitVec.ofNat 32 (2 ^ lowestLane (fr s).exec)) (fun _ => va) .read false

/-- Log 40: DEDUCED, unsafe. -/
def execSegq (d a : BitVec 8) (s : State) : Out :=
  let w := me s
  let f := fr s
  let named := regRun d.toNat 2 ++ regRun a.toNat 2
  let causes := scalarCauses s (regRun a.toNat 2) named
  let answer := fun (lo hi : Word) (s : State) => execAndGo [(d.toNat, splat lo), (d.toNat + 1, splat hi)] s
  if f.exec == 0#32 then .next (advance s)
  else if !(launchOf s w).travelling then guarded causes (answer 0xFFFFFFFF#32 0#32 s) s
  else
    match readMap s w with
    | .error va => guarded (causes ++ mapCauses s va) s s
    | .ok (t, m) =>
      match m.segmentOf (scalarPair w f a.toNat).toNat with
      | none => guarded causes (answer 0xFFFFFFFF#32 0#32 t) s
      | some k =>
        let n := (m.entries.getD k { base := 0, len := 0, nrep := 0, cores := [] }).nrep
        guarded causes (answer (BitVec.ofNat 32 k) (BitVec.ofNat 32 (m.epoch.toNat % 65536 * 65536 + n % 16)) t) s

/-! ## BKPT and the debug block (R260, R360) -/

/-- The stopped fragments of the warps that satisfy `p` made ready, their entries cleared, and waiting ones entered. -/
def resumeStops (s : State) (p : Warp → Bool) : State :=
  let hit := s.warps.filter p
  fillStops { s with
    warps := s.warps.map fun w =>
      if p w then { w with frags := w.frags.map fun f => match f.wait with
        | .stopped _ => { f with wait := .none }
        | _ => f } else w
    stopLog := s.stopLog.map fun e => if hit.any (fun w => e.isOf w) then {} else e }

def execBkpt (_n : BitVec 16) (s : State) : Out :=
  if s.dbgen.getLsbD (taskOf s (me s)).vdev then
    let s := advance s
    .next (fillStops (setFr s { fr s with wait := .stopped false }))
  else .next (advance s)

/-- RESUME (R360): the core in bits 25:16 and the warp slot in bits 5:0. -/
def execResume (value : BitVec 32) (s : State) : Out :=
  let v := value.toNat
  .next (resumeStops s fun w => w.core == bitsOf v 16 10 && w.slot == bitsOf v 0 6)

/-- DBGEN_WRITE (R360): a device whose bit is cleared has its stopped fragments resumed. -/
def execDbgenWrite (value : BitVec 64) (s : State) : Out :=
  .next (resumeStops { s with dbgen := value } fun w =>
    let v := (taskOf s w).vdev
    s.dbgen.getLsbD v && !value.getLsbD v)

end Sys2Proof.Machine
end

