-- ==== Sys2Proof/Machine/Sched.lean ====
section
/-! DEFINITION. Ends of warps, teams and tasks (R63, R164, R272, R279), jobs (R242, R426, R441), and the placing of teams
over the dies (R290 to R297, R440). -/

namespace Sys2Proof.Machine

open Sys2Proof

/-! ## Service (R297) -/

/-- The core of a team whose warp is on its way. -/
def nowhere : Nat := 4096

/-- Nanoseconds of residency of a team since its count, or its device's, began. -/
def residency (s : State) (t : Team) : Nat :=
  (s.now - max t.since (s.vdevs.getD (taskAt s t.task).vdev {}).counted)

/-- A team's residency added to its device's service on its die, under the device's present WEIGHT. -/
def addService (s : State) (t : Team) : State :=
  let v := (taskAt s t.task).vdev
  let d := s.vdevs.getD v {}
  let key := 256 * dieOf t.core + d.weight % 256
  { s with vdevs := s.vdevs.set v { d with service := put d.service key (look d.service key 0 + residency s t) } }

/-- The resident teams of a device. -/
def teamsOf (s : State) (vdev : Nat) : List Team := s.teams.filter fun t => (taskAt s t.task).vdev == vdev && t.core != nowhere

/-- A device's service counted in full up to now, before its WEIGHT changes (R435). (Log 72: DESIGN CHOICE, unsafe.) -/
def settleService (s : State) (vdev : Nat) : State :=
  let s := (teamsOf s vdev).foldl addService s
  { s with vdevs := s.vdevs.set vdev { s.vdevs.getD vdev {} with counted := s.now } }

/-- A number that every weight divides. -/
def anyWeight : Nat := (List.range 255).foldl (fun a i => Nat.lcm a (i + 1)) 1

/-- A time divided by a weight, in units of 1 / `anyWeight`; weight 0 divides nothing. (Log 72: DESIGN CHOICE, unsafe.) -/
def weighed (n weight : Nat) : Nat := n * (anyWeight / max 1 weight)

/-- A device's service on a die: the residency of its teams there, each divided by the WEIGHT under which it passed (R297, R435). -/
def serviceOn (s : State) (vdev die : Nat) : Nat :=
  let d := s.vdevs.getD vdev {}
  total (((d.service.filter fun x => x.1 / 256 == die).map fun x => weighed x.2 (x.1 % 256)) ++
    ((teamsOf s vdev).filter fun t => dieOf t.core == die).map fun t => weighed (residency s t) d.weight)

/-- Whether device `a` has less service than `b` on a die; a device of weight 0 has never less (R297). (Log 72: DESIGN CHOICE, unsafe.) -/
def lessService (s : State) (die a b : Nat) : Bool :=
  if (s.vdevs.getD a {}).weight == 0 then false
  else if (s.vdevs.getD b {}).weight == 0 then true
  else decide (serviceOn s a die < serviceOn s b die)

/-- Whether a task has teams that no die has taken yet. -/
def undistributed (k : Task) : Bool :=
  (k.state == .ready || k.state == .placing) && match k.body with
    | .launch l => !l.travelling && decide (k.nextTeam < l.grid)
    | .job _ => false

/-- Whether a die has a core that could serve teams of a task at all. -/
def dieSuits (s : State) (k : Task) (die : Nat) : Bool := (List.range 32).any fun i => coreSuits s k.vdev k.launch (32 * die + i)

/-- Whether a task has a team waiting on a die: unplaced, in the die's range, saved there, or a replica to be pinned. -/
def waitsOnDie (s : State) (task die : Nat) : Bool :=
  let k := taskAt s task
  k.state != .free && (k.ranges.any (fun r => r.die == die) || s.suspended.any (fun x => x.task == task && x.die == die) ||
    ((undistributed k || ((k.state == .ready || k.state == .placing) && k.launch.travelling)) && dieSuits s k die))

/-- Whether a die serves a device now: one of weight 0 only where none of weight 1 or more waits there (R297). (Log 72: DESIGN CHOICE, unsafe.) -/
def servedOn (s : State) (vdev die : Nat) : Bool :=
  let weight := fun v => (s.vdevs.getD v {}).weight
  weight vdev != 0 || !(List.range 512).any fun i => weight (taskAt s i).vdev != 0 && waitsOnDie s i die

/-- Whether the die of a core serves a task's device now. (Log 72: DESIGN CHOICE, unsafe.) -/
def servesTask (s : State) (slot core : Nat) : Bool := servedOn s (taskAt s slot).vdev (dieOf core)

/-! ## Ends (R36, R164) -/

/-- What a team holds beside its storage given up: warps, handles, array and team barriers, and its entries of the stop log. -/
def removeTeam (s : State) (id : Nat) : State :=
  dropStops { s with
    teams := s.teams.filter fun t => t.id != id
    warps := s.warps.filter fun w => w.team != id
    handles := s.handles.filter fun h => h.team != id
    arrays := s.arrays.filter fun a => a.team != id
    barriers := s.barriers.filter fun b => !(b.scope == 1 && b.teams == [id]) } (s.warps.filter fun w => w.team == id)

/-- What precedes the freeing of a team's resources (R63, R272): the core's dirty bytes written back, its buffer drained,
and, with the last team of the task on the core, its lines dropped; else its PRIV lines, which an acquire would keep, so that a warp that
comes back reads its own later stores (R265). (Log 58: DESIGN CHOICE, unsafe; 184: DEDUCED, unsafe.) -/
def leaveCore (s : State) (t : Team) : State :=
  let s := wcbDrain s fun x => x.core == t.core
  if s.teams.any fun u => u.task == t.task && u.core == t.core && u.id != t.id
  then evictPrivate (writeBack s fun x => x.core == t.core) t.core else flushCore s t.core

/-- The codebooks of a launch's CB4 slots loaded (R153). (Log 54: DESIGN CHOICE, unsafe.) -/
def loadBooks (s : State) (slot : Nat) : State :=
  let k := taskAt s slot
  let l := k.launch
  let slots := l.slots.map fun x =>
    if x.fmt == 6 then
      let bs := (frontRead s k.world x.book.toNat 32).getD []
      { x with table := (List.range 16).map fun c => BitVec.ofNat 16 (ofBytes ((bs.drop (2 * c)).take 2)) }
    else x
  { s with tasks := s.tasks.set slot { k with body := .launch { l with slots := slots } } }

/-- A task changed by its slot. -/
def onTask (s : State) (slot : Nat) (g : Task → Task) : State := { s with tasks := s.tasks.set slot (g (taskAt s slot)) }

/-- A team placed for a task, counted (R290): the task runs once its last team is placed. -/
def countPlaced (s : State) (slot n : Nat) : State :=
  onTask s slot fun k =>
    let left := k.nextTeam < k.launch.grid
    { k with placed := k.placed + n, state := if left then k.state else .running }

/-! ## The ranges of the dies (R295) -/

/-- The dies in ascending order. -/
def allDies : List Nat := List.range 32

/-- Teams of a task placed on a die; both copies of a redundant team count at copy 0's die. -/
def placedOn (s : State) (slot die : Nat) : Nat :=
  (s.teams.filter fun t => t.task == slot && t.copy == 0 && dieOf t.core == die).length

/-- Consecutive ranges of `[lo, lo + rem)` by share, lower ranges to lower dies. -/
def cutRanges (lo : Nat) : List (Nat × Nat) → List TeamRange
  | [] => []
  | (die, n) :: rest => if n == 0 then cutRanges lo rest else { die := die, lo := lo, hi := lo + n } :: cutRanges (lo + n) rest

/-- The unplaced teams of a task divided among the dies that hold teams of it. -/
def shareOut (s : State) (slot : Nat) : State :=
  let k := taskAt s slot
  let rem := k.launch.grid - k.nextTeam
  let counts := (allDies.map fun d => (d, placedOn s slot d)).filter fun x => x.2 != 0
  let all := total (counts.map (·.2))
  let floors := counts.map fun x => (x.1, rem * x.2 / all)
  let extra := rem - total (floors.map (·.2))
  let shares := (List.range floors.length).map fun i =>
    let x := floors.getD i (0, 0)
    (x.1, x.2 + (if i < extra then 1 else 0))
  onTask s slot fun k => { k with ranges := cutRanges k.nextTeam shares, nextTeam := k.launch.grid, state := .running }

/-- Whether a range of a task is on its way to another die: its owner keeps it until the new owner is confirmed, and places none of it (R440). (Log 83: DESIGN CHOICE, unsafe.) -/
def sentRange (s : State) (slot : Nat) (r : TeamRange) : Bool := s.messages.any fun m => m.task == slot && m.range == some (r.lo, r.hi)

/-- A die's range of a task that it may place or send. (Log 83: DESIGN CHOICE, unsafe.) -/
def rangeOn (s : State) (slot die : Nat) : Option TeamRange :=
  (taskAt s slot).ranges.find? fun r => r.die == die && !sentRange s slot r

/-- The first index of a range of a task taken away. -/
def popRange (s : State) (slot : Nat) (r : TeamRange) : State :=
  onTask s slot fun k => { k with
    ranges := (updateFirst (fun x => x == r) (fun x => { x with lo := x.lo + 1 }) k.ranges).filter fun x => decide (x.lo < x.hi) }

/-- The next team of a die's range of a task placed, on cores of that die that satisfy `f`. -/
def placeFromRange (s : State) (slot die : Nat) (f : Nat → Bool) : Option State :=
  match rangeOn s slot die with
  | none => none
  | some r =>
    (placeTeam s slot r.lo (servesTask s slot) (fun c => dieOf c == die && f c) false []).map fun s => countPlaced (popRange s slot r) slot 1

/-- Whether suspended teams that a die owns await resumption, and are not on their way to another die. -/
def awaiting (s : State) (die : Nat) : List Suspended :=
  s.suspended.filter fun x => x.die == die && !s.messages.any fun m =>
    m.task == x.task && x.teams.any fun t => m.team == some t.team.id

/-! ## Resumption (R300) -/

/-- The lanes of a saved store put back at a team's places. -/
def restoreStore (s : State) (l : Launch) (t : Team) (m : Memory) : State :=
  { s with mem := (List.range (coresOf l t.core).length).foldl (fun mem i =>
      (mem.paste m (0x800000 * i) (4096 * l.scrGranules) (scrAddr (t.core + i) t.scrBase)).paste m (0x800000 * i + 0x400000)
        (4096 * l.accGranules) (accAddr (t.core + i) t.accBase)) s.mem }

/-- A line's 128 bytes copied between two machine addresses, poison with them. -/
def copyLine (m : Memory) (src dst : Nat) : Memory := m.paste m src 128 dst

/-- Where a team's accumulators stand in its save block: behind the header, the warps and the scratchpad (R301). -/
def accsSaved (l : Launch) (t : Team) : Nat := saveBlock l t + 8192 + l.warps * (2048 + l.regs * 128) + 4096 * l.scrGranules

/-- A team's accumulators moved between its core and its save block, line by line, where the block can be reached (R300). (Log 55: DESIGN CHOICE, unsafe.) -/
def moveAccs (s : State) (t : Team) (save : Bool) : State :=
  let l := t.launch s
  let world := (taskAt s t.task).world
  (List.range (32 * l.accGranules)).foldl (fun s i =>
    match jobSpot s world (accsSaved l t + 128 * i) (if save then .write else .read) with
    | .error _ => s
    | .ok a =>
      let c := accAddr t.core (t.accBase + 128 * i)
      if save then { homeWrite s a [] false with mem := copyLine s.mem c a } else { s with mem := copyLine s.mem a c }) s

/-- The entries of the handle that a queued TBLD names, by number and side. -/
def TileOp.loads (o : TileOp) : List (Nat × Bool) :=
  match o.kind with
  | .load (some h) _ _ pair _ => (loadSides pair).map fun side => (h, side)
  | _ => []

/-- The scoreboard hold of a queued TACCLD. -/
def TileOp.holds (o : TileOp) : Option (Nat × Hold) :=
  match o.kind, o.hold with
  | .readAcc d _ _ _ _ _, some id => some (o.wid, { id := id, regs := regRun d 2 })
  | _, _ => none

/-- A saved warp as it stands on its new core, with the holds of the TACCLDs that are issued again. (Log 76: DESIGN CHOICE, unsafe.) -/
def resumedWarp (core slot : Nat) (again : List (Nat × Hold)) (w : Warp) : Warp :=
  { w with
    core := core, slot := slot, blocked := false, saving := false, saved := false, passed := 0
    holds := w.holds ++ (again.filter fun h => h.1 == w.wid).map (·.2) }

/-- The first page of a team's save block that a resume load cannot read (R440). (Log 188: DEDUCED, unsafe.) -/
def blockUnread (s : State) (l : Launch) (t : Team) : Option Nat :=
  let base := saveBlock l t
  let world := (taskAt s t.task).world
  (((List.range (ceilDiv (saveNeed l) 4096)).map fun i => base + 4096 * i)).find? fun va =>
    match jobSpot s world va .read with
    | .error _ => true
    | .ok a => !homeReached s world t.core a

/-- The failure of a resume load, left pending at a resuming warp (R416, R440). (Log 188: DEDUCED, unsafe.) -/
def failResume (now va : Nat) (w : Warp) : Warp :=
  match servedBy w 0#32 with
  | none => w
  | some f => w.leave now
      { cls := 3, code := 0x030, res := false, pois := false, frag := f.frag, pc := f.pc, ctr := none, addr := BitVec.ofNat 64 va, info := some 0 }

/-- One saved team put on a core: resources allocated anew, storage, warps, handles and banks restored, and the recorded tile instructions issued
again in their order (R255); the warps acquire at package scope (R282), and where the block cannot be read, each has its failure (R440). (Log 188: DEDUCED, unsafe.) -/
def resumeOn (s : State) (x : Saved) (core : Nat) : State :=
  let k := taskAt s x.team.task
  let l := k.launch
  let s := makeRoom s l core
  let t := allocate s l core x.team
  let slots := freeSlots s core
  let s := if (s.teams.any fun u => u.task == t.task && u.core == core) then s else flushCore s core
  let s := moveAccs (restoreStore { s with teams := s.teams ++ [t] } l t x.store) t false
  let again := x.arrays.flatMap fun a => a.stopped
  let queued := again.flatMap TileOp.loads
  let handles := x.handles.map fun h => if queued.contains (h.num, h.follower) && h.state == .full then { h with state := .draining } else h
  let fail := match blockUnread s l t with
    | none => id
    | some va => failResume s.now va
  let arrays := x.arrays.map fun a =>
    { a with
      core := if a.follower then core + 1 else core, half := if l.half then claimHalf s t else 2, queue := a.stopped, stopped := [] }
  acquireActs { s with
    warps := s.warps ++ (List.range x.warps.length).map fun i =>
      fail (resumedWarp core (slots.getD i 0) (again.filterMap TileOp.holds) (x.warps.getD i {}))
    handles := s.handles ++ handles
    arrays := s.arrays ++ arrays } core 4

/-- Whether a core lies in the units of the wide barriers of a team that teams already back on cores share with it (R47). -/
def sharesUnits (s : State) (id core : Nat) : Bool :=
  s.barriers.all fun b => b.scope == 1 || !b.teams.contains id || b.teams.all fun u =>
    u == id || !(s.teams.any fun t => t.id == u) || unitOf b.scope (teamById s u).core == unitOf b.scope core

/-- The barriers of resumed teams take one of their level in the unit where the teams now are, which is to have them free. -/
def rejoin (s : State) (ids : List Nat) : Option State :=
  let mine := fun (b : Barrier) => b.unit.isNone && b.teams.any ids.contains
  let place := fun (b : Barrier) => if b.scope == 1 then (teamById s (b.teams.headD 0)).core
    else unitOf b.scope (teamById s ((b.teams.find? ids.contains).getD 0)).core
  let fits := s.barriers.all fun b => !mine b || b.scope == 1 || b.scope == 5 ||
    decide ((s.barriers.filter fun c => mine c && c.scope == b.scope && place c == place b).length ≤ freeWide s b.scope (place b))
  if fits then some { s with barriers := s.barriers.map fun b => if mine b then { b with unit := some (place b) } else b } else none

/-- Saved teams put on the best cores that satisfy `g` and `f`, all or none; copy 1, of which `f` asks nothing, keeps off copy 0's die or quad
(R293). (Log 55: DESIGN CHOICE, unsafe.) -/
def resumeAll (s : State) (g f : Nat → Bool) : List Saved → Option State
  | [] => some s
  | x :: rest =>
    let k := taskAt s x.team.task
    let open' := fun c => g c && f c && !x.team.avoid.contains c && sharesUnits s x.team.id c
    let core := match s.teams.find? fun u => u.task == x.team.task && u.index == x.team.index && k.launch.redundant with
      | some u => bestTwin s k u.core g x.team.avoid
      | none => bestCore s k open'
    match core with
    | none => none
    | some c => resumeAll (resumeOn s x c) g f rest

/-- One suspended group of a die resumed on cores that satisfy `g`, if it fits: one team on the die's own cores, a gang over the range. -/
def resumeGroup (s : State) (die : Nat) (g : Nat → Bool) (x : Suspended) : Option State :=
  let gang := (taskAt s x.task).launch.gang
  ((resumeAll s g (fun c => gang || dieOf c == die) x.teams).bind fun s => rejoin s (x.teams.map fun y => y.team.id)).map fun s =>
    { s with suspended := s.suspended.filter fun y => y != x }

/-- The oldest suspended teams of a die that fit are resumed, on cores whose dies serve their device (R297). (Log 181: DESIGN CHOICE, unsafe.) -/
def resumeFrom (s : State) (die : Nat) : Option State :=
  (awaiting s die).findSome? fun x => resumeGroup s die (servesTask s x.task) x

/-! ## Ends of teams and warps (R36, R63, R164) -/

/-- A warp leaves the replica of its core: the steering depth falls, where a steering slice raised it for this warp (R312). -/
def leavePin (s : State) (t : Team) : State :=
  if !t.steered then s
  else
    onTeam { s with pins := s.pins.map fun p => if p.core == t.core && p.task == t.task then { p with depth := p.depth - 1 } else p } t.id
      fun t => { t with steered := false }

/-- The refill rule: once the suspended teams of the die that fit are served, the next team of the die's range goes to the core just left, or else
the best of the die (R295). -/
def refill (s : State) (slot core : Nat) : State :=
  let die := dieOf core
  match resumeFrom s die with
  | some s => s
  | none =>
    match placeFromRange s slot die fun c => c == core with
    | some s => s
    | none => (placeFromRange s slot die fun _ => true).getD s

/-- A team's end (R36, R63): its resources are freed, and the core is refilled. -/
def endTeam (s : State) (id : Nat) : State :=
  match s.teams.find? fun t => t.id == id with
  | none => s
  | some t =>
    let s := removeTeam (leavePin (leaveCore (addService s t) t) t) id
    let s := if t.copy == 0 then onTask s t.task fun k => { k with ended := k.ended + 1 } else s
    refill s t.task t.core

/-- Whether every warp of a team has ended. -/
def teamOver (s : State) (id : Nat) : Bool := (s.warps.filter fun w => w.team == id).all fun w => w.ended

/-- WARP_END (R164): a warp with no lane left, or a halted one, ends once its counters stand at 0; STNT bytes it left in
the buffer go home.  A redundant team waits for its comparison (R44). (Log 8: DESIGN CHOICE, safe; 73: DEDUCED, unsafe.) -/
def execWarpEnd (core slot : Nat) (s : State) : Out :=
  let i := warpAt s core slot
  let w := s.warps.getD i {}
  if decide (s.warps.length ≤ i) || w.ended || !(w.halted || (w.frags.isEmpty && w.pending.isEmpty && w.trap.isNone)) then .next s
  else if !countersZero w then
    let mine := (opsOf s w).map (·.id)
    .next (wcbDrain s fun x => x.core == core && x.ops.any mine.contains)
  else
    let s := onWarp s i fun w => { w with ended := true }
    let s := if w.halted then s else endInBarriers s w
    .next (if teamOver s w.team && !(taskAt s (teamById s w.team).task).launch.redundant then endTeam s w.team else s)

/-! ## Tasks complete (R279) -/

/-- A slot freed: the sequence number stays; wide barriers and pod barriers return, pins end, held tasks follow. -/
def freeTask (s : State) (slot : Nat) : State :=
  let k := taskAt s slot
  let s := returnPod s (s.barriers.filter fun b => b.task == slot && b.scope == 5).length
  promote { s with
    tasks := s.tasks.set slot { seq := k.seq }
    barriers := s.barriers.filter fun b => b.task != slot
    pins := s.pins.filter fun p => p.task != slot
    ilines := s.ilines.filter fun x => !(x.store && s.pins.any fun p => p.task == slot && p.core == x.core) }

/-- Whether copies of a task's teams, or jobs that its warps issued, are still under way (R279). -/
def engineWork (s : State) (task : Nat) : Bool :=
  (s.copies.any fun c => (teamById s c.team).task == task && s.teams.any fun t => t.id == c.team) ||
    s.tasks.any fun k => k.state != .free && k.origin.warp.isSome && k.ancestors.head? == some (task, (taskAt s task).seq) && match k.body with
      | .job _ => true
      | .launch _ => false

/-- TASK_COMPLETE (R279): every team of a launch has ended, with its copies, jobs and gates done. (Log 8: DESIGN CHOICE, safe.) -/
def execTaskComplete (task : Nat) (s : State) : Out :=
  let k := taskAt s task
  match k.body with
  | .job _ => .next s
  | .launch l =>
    if k.state == .running && k.ended == l.grid && !(s.teams.any fun t => t.task == task) && !engineWork s task then .next (freeTask s task)
    else .next s

/-! ## Jobs (R242, R426, R441) -/

/-- The word a job writes, from what the destination holds and the source word (R242). -/
def jobWord (c : JobCard) (old src : Lane) : Lane :=
  if c.kind == 2 then
    if old.poison || src.poison then poisoned
    else clean (BitVec.ofNat 32 (fpAdd fp32 0 false old.val.toNat src.val.toNat).1)
  else src

/-- Whether the engine at a destination line's home and the home of its source line reach each other; an engine of another
package is reached by a link toward it (R242, R416). (Log 56: DESIGN CHOICE, unsafe.) -/
def jobReached (s : State) (world dst src : Nat) : Bool :=
  if podRemote s dst then (linkToHome s world 0 dst).isSome else homeReached s world (32 * homeDie dst) src

/-- Whether a line of a job is lost. -/
def jobLost (s : State) (slot line : Nat) : Bool := isLost s fun p => match p with
  | .jobLine _ j l => j == jobNumber s slot && l == line
  | _ => false

/-- The source bytes of a piece of a job, read by the engine at the home of its destination, and whether they are poison. (Log 56: DESIGN CHOICE, unsafe.) -/
def jobSource (s : State) (slot : Nat) (c : JobCard) (x : Nat × Nat) (dst : Nat) : Except (Deny × Nat) (List Byte × Bool) :=
  let world := (taskAt s slot).world
  let silent := fun (va : Nat) => Except.error (({ code := 0x030 } : Deny), va)
  if c.kind == 1 then
    if jobReached s world dst dst && !jobLost s slot (lineBase (c.dst.toNat + x.1)) then .ok (toBytes 4 (loWord c.src).toNat, false)
    else silent (c.dst.toNat + x.1)
  else
    let va := c.src.toNat + x.1
    match jobSpot s world va .read with
    | .error d => .error (d, va)
    | .ok a =>
      if jobReached s world dst a && !jobLost s slot (lineBase (c.dst.toNat + x.1)) then
        .ok ((homeMem s a).read a x.2, (homeMem s a).readBad a x.2)
      else silent va

/-- Whether a job's stores may ask for a system image (R106): those of the physical function's device and of system-role kernels. (Log 100: DEDUCED, unsafe.) -/
def jobFree (s : State) (k : Task) : Bool :=
  match k.origin.warp with
  | some (t, w) => (s.warps.getD (warpOfTeam s t w) {}).role == .system
  | none => k.vdev == 0

/-- One piece of a job moved; `origin` is the state in which its source is read. (Log 56: DESIGN CHOICE, unsafe.) -/
def jobStep (slot : Nat) (c : JobCard) (origin : State) (s : State) (x : Nat × Nat) : Except (State × Deny × Nat) State :=
  let k := taskAt origin slot
  let va := c.dst.toNat + x.1
  match jobSpot s k.world va .write with
  | .error d => .error (s, d, va)
  | .ok a =>
    match jobSource origin slot c x a with
    | .error (d, y) => .error (s, d, y)
    | .ok (bs, bad) =>
      let t := noteRing s (jobFree origin k) k.world va x.2
      if x.2 < 4 then .ok (homeWrite t a bs bad)
      else
        let y := jobWord c (s.mem.lane a) { val := BitVec.ofNat 32 (ofBytes bs), poison := bad }
        .ok (homeWrite t a (toBytes 4 y.val.toNat) y.poison)

/-- The pieces of a job moved in order, up to the first that fails: those already performed stand. -/
def jobMoves (slot : Nat) (c : JobCard) (origin : State) : List (Nat × Nat) → State → Except (State × Deny × Nat) State
  | [], s => .ok s
  | x :: rest, s =>
    match jobStep slot c origin s x with
    | .error e => .error e
    | .ok s => jobMoves slot c origin rest s

/-- The record of a host task that fails or is refused (R433). -/
def hostRecord (s : State) (o : Origin) (cls code world vdev tenant entry : Nat) : FaultRec :=
  let q := o.queue.getD 0
  { cls := cls, code := code, prec := false, world := world, vdev := vdev, tenant := tenant, entry := entry, addr := o.addr
    instr := o.word, info := BitVec.ofNat 32 (q % 256 + o.packet % 2 ^ 24 * 256), time := s.now }

/-- HOT set in a loaded entry, if the doubleword still holds the value resolved (R359); the home of a page that is checked or sealed takes no write
(R75, R100). (Log 146: DEDUCED, unsafe.) -/
def setHot (s : State) (world : Nat) (cold : Nat × DWord) : State :=
  match stage2 s world cold.1 with
  | .error _ => s
  | .ok a =>
    if homeTakes s a && BitVec.ofNat 64 (ofBytes (s.mem.read a 8)) == cold.2 then homeWrite s a (toBytes 8 (cold.2 ||| 0x20000000#64).toNat) false
    else s

/-- The launches that hold an edge from a failed cold load ended before placing a team, one record each (R441). -/
def endWaiting (s : State) (job : Nat × BitVec 22) : State :=
  (List.range 512).foldl (fun s i =>
    let k := taskAt s i
    if k.state == .held && k.edges.any (fun e => (e.slot, e.seq) == job) && (match k.body with
      | .launch _ => true
      | .job _ => false)
    then freeTask (logRecord s (hostRecord s k.origin 7 0x030 k.world k.vdev k.tenant k.entry)) i else s) s

/-- The warps that count a device-side job: the one that issued it, and its twin where copy 0 submitted it for both (R41, R277). -/
def jobWarps (s : State) (o : Origin) : List (Nat × Nat) :=
  match o.warp with
  | none => []
  | some (t, w) => (t, w) :: if !((teamById s t).launch s).redundant then [] else match twinTeam s (teamById s t) with
    | none => []
    | some u => [(u.id, w)]

/-- A job whose every word is performed. -/
def finishJob (s : State) (slot : Nat) : State :=
  let k := taskAt s slot
  let s := (jobWarps s k.origin).foldl (fun s x => onWarp s (warpOfTeam s x.1 x.2) fun w => w.onCtr .cp (· - 1)) (freeTask s slot)
  match k.coldEntry with
  | some c => if (loadingJobs s k.world c).isEmpty then setHot s k.world c else s
  | none => s

/-- A job ended by a line that fails: a fault left pending at the warp that issued it, or a record for the host, or the
end of the launches that wait for a cold load. -/
def failJob (s : State) (slot : Nat) (d : Deny) (va : Nat) : State :=
  let k := taskAt s slot
  let code := engineCode d + 0x10
  let s := match k.origin.warp, k.origin.queue, k.coldEntry with
    | some _, _, _ => (jobWarps s k.origin).foldl (fun s x => leavePending s x.1 x.2
        { cls := 4, code := code, res := true, pois := false, frag := k.origin.frag, pc := k.origin.pc, instr := k.origin.word
          ctr := some .cp, addr := BitVec.ofNat 64 va, info := some (BitVec.ofNat 32 (k.origin.pc.toNat / 4)) }) s
    | none, some _, _ => logRecord s (hostRecord s k.origin 4 code k.world k.vdev k.tenant k.entry)
    | none, none, cold =>
      -- a cold load's job: the entry is left as it stood, so no sibling may set HOT
      let s := { s with tasks := s.tasks.map fun x => if cold.isSome && x.coldEntry == cold then { x with coldEntry := none } else x }
      endWaiting s (slot, k.seq)
  freeTask s slot

/-- JOB_COMPLETE (R242): a running job is moved and completes. (Log 56: DESIGN CHOICE, unsafe.) -/
def execJobComplete (task : Nat) (s : State) : Out :=
  let k := taskAt s task
  match k.body with
  | .launch _ => .next s
  | .job c =>
    if k.state != .running then .next s
    else
      match jobMoves task c s (jobPieces c) s with
      | .ok t => .next (finishJob t task)
      | .error (t, d, va) => .next (failJob t task d va)

/-! ## TEAM_PLACE (R290 to R295) -/

/-- Whether task `i` is taken before task `j` on a die (R291): by its device's service, and within a device by priority and then by
acceptance. (Log 72: DESIGN CHOICE, unsafe.) -/
def takenBefore (s : State) (die i j : Nat) : Bool :=
  let a := taskAt s i
  let b := taskAt s j
  if a.vdev == b.vdev then decide (b.prio < a.prio) || (a.prio == b.prio && decide (a.order < b.order))
  else lessService s die a.vdev b.vdev || (!lessService s die b.vdev a.vdev && decide (a.vdev < b.vdev))

/-- Tasks sorted in the order in which a die takes them. -/
def insertTask (s : State) (die i : Nat) : List Nat → List Nat
  | [] => [i]
  | j :: rest => if takenBefore s die i j then i :: j :: rest else j :: insertTask s die i rest

/-- The tasks that satisfy `f`, in the order in which a die takes them. -/
def dieOrder (s : State) (die : Nat) (f : Task → Bool) : List Nat :=
  ((List.range 512).filter fun i => f (taskAt s i)).foldr (insertTask s die) []

/-- The tasks with teams to place whose devices a die serves now, in order. (Log 72: DESIGN CHOICE, unsafe.) -/
def placingOrder (s : State) (die : Nat) : List Nat := dieOrder s die fun k => undistributed k && servedOn s k.vdev die

/-- The ready task whose turn has come on a die (R291), of launches and jobs alike, among those of the devices that it serves now (R297). (Log 153: DESIGN CHOICE, unsafe.) -/
def turnTask (s : State) (die : Nat) : Option Nat := (dieOrder s die fun k => k.state == .ready && servedOn s k.vdev die).head?

/-- Whether a ready task's turn has come on some die. -/
def hasTurn (s : State) (slot : Nat) : Bool := allDies.any fun d => turnTask s d == some slot

/-- The next team, or the whole gang, of a task placed; teams that do not fit are shared out among the dies. (Log 181: DESIGN CHOICE, unsafe.) -/
def placeNext (s : State) (slot : Nat) : Option State :=
  let k := taskAt s slot
  let s := if k.state == .ready then onTask (loadBooks s slot) slot fun k => { k with state := .placing } else s
  if k.launch.gang then
    (placeGang s slot (servesTask s slot)).map fun s =>
      countPlaced (onTask s slot fun k => { k with nextTeam := k.launch.grid }) slot k.launch.grid
  else
    match placeTeam s slot k.nextTeam (servesTask s slot) (fun _ => true) false [] with
    | some s => some (countPlaced (onTask s slot fun k => { k with nextTeam := k.nextTeam + 1 }) slot 1)
    | none =>
      let fits := (placeTeam s slot k.nextTeam (fun _ => true) (fun _ => true) false []).isSome
      if k.nextTeam == 0 || fits || !(s.teams.any fun t => t.task == slot) then none else some (shareOut s slot)

/-- The first task of a list that lets a team be placed: one whose next team fits nowhere is passed over. (Log 181: DESIGN CHOICE, unsafe.) -/
def placeFirst (s : State) : List Nat → Option State
  | [] => none
  | i :: rest =>
    match placeNext s i with
    | some s => some s
    | none => placeFirst s rest

/-- The first task whose range of a die lets a team be placed on the die. (Log 181: DESIGN CHOICE, unsafe.) -/
def placeRanges (s : State) (die : Nat) : List Nat → Option State
  | [] => none
  | i :: rest =>
    match placeFromRange s i die fun _ => true with
    | some s => some s
    | none => placeRanges s die rest

/-- The tasks with a range on a die that is not on its way to another, in the order in which the die takes them. -/
def rangedTasks (s : State) (die : Nat) : List Nat := (dieOrder s die fun k => k.ranges.any fun r => r.die == die).filter fun i => (rangeOn s i die).isSome

/-- The ready task whose turn has come leaves the ready state (Table SCHED.5): a job runs, a launch is being placed, whether or not a team fits
yet. -/
def beginTask (s : State) (die : Nat) : State :=
  match turnTask s die with
  | none => s
  | some i =>
    match (taskAt s i).body with
    | .job _ => onTask s i fun k => { k with state := .running }
    | .launch _ => onTask (loadBooks s i) i fun k => { k with state := .placing }

/-- A redundant team placed a second time, off the cores it avoids where others are eligible (R449). -/
def placeAgain (s : State) (slot index : Nat) (avoid : List Nat) : Option State :=
  let place := placeTeam s slot index (servesTask s slot) (fun _ => true) true
  ((place avoid).orElse fun _ => place []).map fun s =>
    onTask s slot fun k => { k with again := k.again.filter fun x => x.1 != index }

/-- The first team that waits for its second placement and fits. -/
def placeRetries (s : State) : Option State :=
  (List.range 512).foldl (fun acc i => acc.orElse fun _ =>
    match (taskAt s i).again with
    | [] => none
    | x :: _ => placeAgain s i x.1 x.2) none

/-- What a die's distributor does at its turn, if anything: a resumption, a second placement, a team of its ranges, or a
team of a new task. (Log 181: DESIGN CHOICE, unsafe.) -/
def distribute (s : State) (die : Nat) : Option State :=
  ((resumeFrom s die).orElse fun _ => placeRetries s).orElse fun _ => (placeRanges s die (rangedTasks s die)).orElse fun _ => placeFirst s (placingOrder s die)

/-- TEAM_PLACE (R291, R293): the ready task whose turn it is begins, and the distributor does what it can. (Log 153: DESIGN CHOICE, unsafe.) -/
def execTeamPlace (die : Nat) (s : State) : Out :=
  let s := beginTask s die
  .next ((distribute s die).getD s)

/-! ## Migration (R296, R440) -/

/-- Whether the cores of a die can take a team of a task, with copy 1 of a redundant one on any die (R293). -/
def dieTakes (s : State) (slot die : Nat) : Bool :=
  (placeTeam s slot 0 (fun _ => true) (fun c => dieOf c == die) false []).isSome

/-- Whether a die can take back a suspended group: a team on its own cores, a gang over the range. -/
def dieTakesBack (s : State) (die : Nat) (x : Suspended) : Bool := (resumeGroup s die (fun _ => true) x).isSome

/-- Whether a die's advertisement names room for a team of a task (R296): free team slots and warp slots of the die, and the largest free
warp-register count on a core of the pass class. (Log 155: DEDUCED, unsafe.) -/
def advertises (s : State) (k : Task) (die : Nat) : Bool :=
  let cores := (List.range 32).map fun i => 32 * die + i
  let live := cores.filter fun c => (coreCfg s c).present && s.pod.dies.getLsbD die
  dieSuits s k die && decide (0 < total (live.map fun c => 16 - (ownTeams s c).length)) &&
    decide (k.launch.warps ≤ total (live.map (freeWarps s))) &&
    live.any fun c => classFits s k.launch c && decide (k.launch.regNeed ≤ freeRegs s c)

/-- A message on its way. -/
def sendMessage (m : Message) (s : State) : State := { s with messages := s.messages ++ [{ m with id := s.nextId }], nextId := s.nextId + 1 }

/-- The oldest suspended group that a die cannot take back itself, where another advertises room. -/
def movableGroup (s : State) (source target : Nat) : Option Suspended :=
  (awaiting s source).find? fun x => !dieTakesBack s source x && advertises s (taskAt s x.task) target

/-- The first range that a die cannot take a team of itself, where another advertises room. -/
def movableRange (s : State) (source target : Nat) : Option (Nat × TeamRange) :=
  (rangedTasks s source).findSome? fun i =>
    if !dieTakes s i source && advertises s (taskAt s i) target then (rangeOn s i source).map fun r => (i, r) else none

/-- What a die that has no room of its own sends to one that advertises some (R296): its oldest suspended teams, or the upper half of a range, which
stays among its ranges until the new owner is confirmed (R440). (Log 181: DESIGN CHOICE, unsafe.) -/
def sendWork (s : State) (source target : Nat) : State :=
  match movableGroup s source target, movableRange s source target with
  | some x, _ =>
    sendMessage { id := 0, task := x.task, source := source, target := target, range := none, team := (x.teams.head?).map fun t => t.team.id } s
  | none, some (i, r) =>
    let mid := r.hi - ceilDiv (r.hi - r.lo) 2
    let s := onTask s i fun k => { k with
      ranges := ((updateFirst (fun y => y == r) (fun y => { y with hi := mid }) k.ranges).filter fun y => decide (y.lo < y.hi)) ++
        [{ r with lo := mid }] }
    sendMessage { id := 0, task := i, source := source, target := target, range := some (mid, r.hi), team := none } s
  | none, none => s

/-- DIE_ADVERTISE (R296): the die makes its room known, and every die with work it cannot place sends some. (Log 155: DEDUCED, unsafe.) -/
def execDieAdvertise (die : Nat) (s : State) : Out :=
  .next ((allDies.filter fun d => d != die).foldl (fun s d => sendWork s d die) s)

/-- A message's contents recorded as a die's. (Log 83: DESIGN CHOICE, unsafe.) -/
def deliver (s : State) (m : Message) (die : Nat) : State :=
  let s := { s with messages := s.messages.filter fun x => x.id != m.id }
  match m.range with
  | some (lo, hi) => onTask s m.task fun k => { k with
      ranges := updateFirst (fun r => r.lo == lo && r.hi == hi) (fun r => { r with die := die }) k.ranges }
  | none => { s with suspended := s.suspended.map fun x =>
      if x.task == m.task && x.teams.any (fun t => m.team == some t.team.id) then { x with die := die } else x }

/-- MIGRATION_MESSAGE (R440): the receiver records the contents, and the task table makes it the owner. (Log 83: DESIGN CHOICE, unsafe.) -/
def execMigrationMessage (id : Nat) (s : State) : Out :=
  match s.messages.find? fun m => m.id == id with
  | none => .next s
  | some m => .next (deliver s m m.target)

/-- MIGRATION_CONFIRM_TIMEOUT (R440): the sender is confirmed as owner again. -/
def execMigrationConfirmTimeout (id : Nat) (s : State) : Out :=
  match s.messages.find? fun m => m.id == id with
  | none => .next s
  | some m => .next (deliver s m m.source)

end Sys2Proof.Machine
end

