-- ==== Sys2Proof/Machine/Queues.lean ====
section
/-! DEFINITION. Host queues and packets (R283 to R286, R431 to R433). -/

namespace Sys2Proof.Machine

open Sys2Proof

/-! ## Queue registers (Table SCHED.1) -/

/-- A queue changed. -/
def onQueue (s : State) (q : Nat) (g : Queue → Queue) : State := { s with queues := s.queues.set q (g (s.queues.getD q {})) }

/-- The packets of a queue's ring. -/
def Queue.size (q : Queue) : Nat := 2 ^ q.log2n

/-- The lap word expected at HEAD (R283). -/
def Queue.lap (q : Queue) : Nat := q.head / q.size + 1

/-- KICK (R284): a new tail; one that moves backward, and any tail of a halted queue, is ignored. -/
def execKick (queue : Nat) (tail : BitVec 32) (s : State) : Out :=
  let q := s.queues.getD queue {}
  if decide (256 ≤ queue) || !q.en || q.status != 0 || (tail - q.kick).getLsbD 31 then .next s
  else .next (onQueue s queue fun q => { q with kick := tail })

/-- QUEUE_EN_WRITE (R283, R431): the word at 0x08.  VDEV and LOG2N are taken while EN = 0; EN = 1 starts the queue anew. -/
def execQueueEnWrite (queue : Nat) (value : BitVec 32) (s : State) : Out :=
  if 256 ≤ queue then .next s
  else
    let v := value.toNat
    let n := bitsOf v 0 5
    .next (onQueue s queue fun q =>
      let q := if q.en then q else { q with vdev := bitsOf v 8 6, log2n := if 4 ≤ n && n ≤ 16 then n else 4 }
      if bitsOf v 31 1 == 1 then { q with en := true, kick := 0, head := 0, status := 0, waiting := .none } else { q with en := false })

/-! ## Packets -/

/-- A packet as the front end reads it (Table SCHED.2). -/
structure Packet where
  kind : Nat
  irq : Bool
  addr : DWord
  value : BitVec 64
  word : Word
  lapw : Nat
  zeroBad : Bool
  deriving DecidableEq, Repr

/-- The fields of 64 bytes. -/
def packetAt (bs : List Byte) : Packet :=
  { kind := field bs 0 0 8, irq := field bs 0 8 1 == 1, addr := dwordIn bs 8, value := dwordIn bs 16, word := wordIn bs 0
    lapw := (dwordIn bs 0x38).toNat
    zeroBad := !zeroAll bs ((0, 9, 23) :: (4, 0, 32) :: (List.range 8).map fun i => (0x18 + 4 * i, 0, 32)) }

/-- The packet at HEAD. -/
def headPacket (s : State) (q : Queue) : Option Packet :=
  (frontRead s (s.vdevs.getD q.vdev {}).world (q.qbase.toNat + 64 * (q.head % q.size)) 64).map packetAt

/-- The world of a queue. -/
def Queue.world (q : Queue) (s : State) : Nat := (s.vdevs.getD q.vdev {}).world

/-- The queue halts with a status (R431). -/
def haltQueue (s : State) (queue st : Nat) : State := onQueue s queue fun q => { q with status := st, waiting := .none }

/-- Whether a queue has a packet to serve. -/
def Queue.active (q : Queue) : Bool := q.en && q.status == 0 && BitVec.ofNat 32 q.head != q.kick

/-- The packet consumed: HEAD advances; a queue whose device has been disabled halts after the packet it held (R436). -/
def consume (s : State) (queue : Nat) : State :=
  let s := onQueue s queue fun q => { q with head := q.head + 1, waiting := .none }
  if (s.vdevs.getD (s.queues.getD queue {}).vdev {}).en then s else haltQueue s queue 0x05

/-- Bytes and alignment of what a packet's ADDR names. (Log 62: DEDUCED, unsafe.) -/
def operandShape (kind : Nat) : Nat × Nat := if kind == 1 then (512, 64) else if kind == 2 then (64, 64) else (8, 8)

/-- The bytes that a packet's ADDR names, where it is aligned and readable; a SIGNAL's word is to be writable too. (Log 61: DEDUCED, unsafe.) -/
def operand (s : State) (world : Nat) (p : Packet) : Option (List Byte) :=
  let shape := operandShape p.kind
  if p.addr.toNat % shape.2 != 0 then none
  else if p.kind == 4 && (frontPage s world p.addr.toNat .write).isNone then none
  else frontRead s world p.addr.toNat shape.1

/-- How the reading of a queue's packet ends. -/
inductive Reading where
  /-- Nothing to read, or the front end consumes none now. -/
  | idle
  | halt (status : Nat)
  /-- The lap word does not match. -/
  | unmatched
  /-- A packet with the bytes that ADDR names. -/
  | packet (p : Packet) (body : List Byte)
  deriving DecidableEq, Repr

/-- The front end's reading of a queue's packet, and its checks (R284, R431); the front end serves once die 0 serves (R365), unless it is stopped or
its image was refused (R347, R349, R457). -/
def readPacket (s : State) (queue : Nat) : Reading :=
  let q := s.queues.getD queue {}
  let dead := !(s.vdevs.getD q.vdev {}).en && q.waiting != .held && q.waiting != .event
  if decide (256 ≤ queue) || !q.active || s.fwStop || (fwOf s .frontEnd).failed || !s.pod.dies.getLsbD 0 then .idle
  else if dead then .halt 0x05
  else
    match headPacket s q with
    | none => .halt 0x04
    | some p =>
      if p.lapw != q.lap then .unmatched
      else if decide (6 ≤ p.kind) || p.zeroBad then .halt 0x02
      else if p.kind == 0 || p.kind == 5 then .packet p []
      else
        match operand s (q.world s) p with
        | none => .halt 0x03
        | some body => .packet p body

/-- Whether a queue has something for the front end to do at its turn: a packet, or the end of a queue that halts; a packet not yet written and
an event word not yet reached are read again in their own time. (Log 157: DEDUCED, unsafe.) -/
def queueReady (s : State) (queue : Nat) : Bool :=
  match (s.queues.getD queue {}).waiting, readPacket s queue with
  | _, .idle => false
  | .lap _, _ => false
  | .event, _ => false
  | _, _ => true

/-- The queue whose turn it is (R284): round-robin after the one served last. (Log 157: DEDUCED, unsafe.) -/
def cfeTurn (s : State) : Option Nat := ((List.range 256).map fun i => (s.lastQueue + 1 + i) % 256).find? (queueReady s)

/-- What the front end makes of a queue's packet of a kind: `act` is taken on it.  A packet not yet written is read
again (R284), and one that breaks R431 halts the queue. -/
def servePacket (queue kind : Nat) (act : Packet → List Byte → State → State) (s : State) : Out :=
  match readPacket s queue with
  | .idle => .next s
  | .halt st => .next (haltQueue s queue st)
  | .unmatched => .next (onQueue s queue fun q => { q with waiting := match q.waiting with
      | .lap n => .lap n
      | _ => .lap 0 })
  | .packet p body => .next (if p.kind == kind then act p body s else s)

/-- A turn of the front end at a queue, one packet (R284); out of its turn a queue is not served. (Log 103: DEDUCED, unsafe; 157: DEDUCED, unsafe.) -/
def serve (queue kind : Nat) (act : Packet → List Byte → State → State) (s : State) : Out :=
  if cfeTurn s == some queue then servePacket queue kind act { s with lastQueue := queue } else .next s

/-- The packet is held: it waits unconsumed. -/
def holdPacket (s : State) (queue : Nat) : State := onQueue s queue fun q => { q with waiting := .held }

/-- LAP_REREAD (R284): one more read of a packet whose lap word did not match, 64 of them at most (R431). -/
def execLapReread (queue : Nat) (s : State) : Out :=
  match (s.queues.getD queue {}).waiting with
  | .lap n =>
    if 64 ≤ n then .next s
    else match readPacket s queue with
      | .halt st => .next (haltQueue s queue st)
      | .unmatched => .next (onQueue s queue fun q => { q with waiting := .lap (n + 1) })
      | .packet _ _ => .next (onQueue s queue fun q => { q with waiting := .none })
      | .idle => .next s
  | _ => .next s

/-- QUEUE_LAP_TIMEOUT (R431): 64 re-reads have found no match. -/
def execQueueLapTimeout (queue : Nat) (s : State) : Out :=
  match (s.queues.getD queue {}).waiting with
  | .lap n => .next (if 64 ≤ n then haltQueue s queue 0x01 else s)
  | _ => .next s

/-! ## Kinds (R285) -/

/-- PACKET_NOP. -/
def execPacketNop (queue : Nat) (s : State) : Out := serve queue 0 (fun _ _ s => consume s queue) s

/-- The queue as one who asks for a task. -/
def queueAsker (s : State) (queue : Nat) (p : Packet) : Asker :=
  let q := s.queues.getD queue {}
  { world := q.world s, vdev := q.vdev, origin := { queue := some queue, packet := q.head, addr := p.addr, word := p.word } }

/-- A refused task: its record is logged (R433), and the packet is consumed. -/
def refuseTask (s : State) (queue : Nat) (p : Packet) (st tenant entry : Nat) : State :=
  let a := queueAsker s queue p
  consume (logRecord s (hostRecord s a.origin 4 (0x200 + st) a.world a.vdev tenant entry)) queue

/-- PACKET_LAUNCH (R288, R290, R432). -/
def execPacketLaunch (queue : Nat) (s : State) : Out :=
  serve queue 1 (fun p body s =>
    let a := queueAsker s queue p
    let l := launchAt body
    match acceptLaunch s a body with
    | .taken s _ => consume s queue
    | .refused st => refuseTask s queue p st (if l.world == a.world then l.tenant else 0) l.entry
    | .full => holdPacket s queue) s

/-- PACKET_JOB. -/
def execPacketJob (queue : Nat) (s : State) : Out :=
  serve queue 2 (fun p body s =>
    match acceptHostJob s (queueAsker s queue p) body with
    | .taken s _ => consume s queue
    | .refused st => refuseTask s queue p st 0 0
    | .full => holdPacket s queue) s

/-- Whether every task of a queue has completed. -/
def queueClear (s : State) (queue : Nat) : Bool := s.tasks.all fun k => k.state == .free || k.origin.queue != some queue

/-- PACKET_FENCE. -/
def execPacketFence (queue : Nat) (s : State) : Out :=
  serve queue 5 (fun _ _ s => if queueClear s queue then consume s queue else holdPacket s queue) s

/-- The write of a SIGNAL at its word's home, and its message (R286). -/
def signal (s : State) (queue : Nat) (p : Packet) : State :=
  let q := s.queues.getD queue {}
  let s := match frontPage s (q.world s) p.addr.toNat .write with
    | some a => noteRing (homeWrite s a (toBytes 8 p.value.toNat) false) (q.vdev == 0) (q.world s) p.addr.toNat 8
    | none => s
  if p.irq then raiseMsix s q.vdev q.ivec else s

/-- PACKET_SIGNAL. (Log 61: DEDUCED, unsafe.) -/
def execPacketSignal (queue : Nat) (s : State) : Out :=
  serve queue 4 (fun p _ s => if queueClear s queue then consume (signal s queue p) queue else holdPacket s queue) s

/-- A WAITEV's word read against its threshold. -/
def testEvent (queue : Nat) (p : Packet) (body : List Byte) (s : State) : State :=
  if p.value.toNat ≤ ofBytes (body.take 8) then consume s queue else onQueue s queue fun q => { q with waiting := .event }

/-- PACKET_WAITEV. -/
def execPacketWaitev (queue : Nat) (s : State) : Out := serve queue 3 (testEvent queue) s

/-- WAITEV_REREAD (R285): after a SIGNAL of the package, and every 1 µs. -/
def execWaitevReread (queue : Nat) (s : State) : Out :=
  if (s.queues.getD queue {}).waiting == .event then servePacket queue 3 (testEvent queue) s else .next s

end Sys2Proof.Machine
end

