-- ==== Sys2Proof/Machine/Redundant.lean ====
section
/-! DEFINITION. Comparison points of redundant launches and their failures (R43 to R45, R448, R449). -/

namespace Sys2Proof.Machine

open Sys2Proof

/-- The two copies of a team: copy 0 first. -/
def copiesOf (s : State) (id : Nat) : Option (Team × Team) :=
  match s.teams.find? fun t => t.id == id with
  | none => none
  | some t =>
    match twinTeam s t with
    | none => none
    | some u => some (if t.copy == 0 then (t, u) else (u, t))

/-- A warp of a team by its index. -/
def warpIn (s : State) (team wid : Nat) : Warp := s.warps.getD (warpOfTeam s team wid) {}

/-- The indices of a team's warps. -/
def widsOf (s : State) (t : Team) : List Nat := List.range (t.launch s).warps

/-! ## The gate -/

/-- How many records of a warp both copies have made. -/
def commonRecords (s : State) (a b : Team) (wid : Nat) : Nat := min (warpIn s a.id wid).records (warpIn s b.id wid).records

/-- A warp whose records up to a number have been compared. -/
def Warp.compared (w : Warp) (n : Nat) : Warp := { w with sigLog := w.sigLog.drop (n - w.sigBase), sigBase := max n w.sigBase }

/-- Whether a gated write belongs to a record that both copies have made. -/
def isDue (s : State) (a b : Team) (g : GateWrite) : Bool := decide (g.ord ≤ commonRecords s a b g.wid)

/-- One gated write of copy 0 leaves for its home, in step with what the L1s of both copies hold of it (R204). -/
def releaseWrite (a b : Team) (s : State) (g : GateWrite) : State :=
  if !homeTakes s g.addr then s
  else l1Update (l1Update (homeWrite s g.addr g.data g.poison) a.core g.addr g.data g.poison) b.core g.addr g.data g.poison

/-- The gated writes of copy 0 whose records both copies have made leave the gate, in gate order; copy 1's are dropped (R44). (Log 42: DEDUCED, unsafe.) -/
def releaseGate (s : State) (a b : Team) : State :=
  let upTo := (widsOf s a).map (commonRecords s a b)
  let due := isDue s a b
  let s := (a.gate.filter due).foldl (releaseWrite a b) s
  let keep := fun (t : Team) => { t with gate := t.gate.filter fun g => !due g }
  let s := onTeam (onTeam s a.id keep) b.id keep
  (widsOf s a).foldl (fun s w =>
    let mark := fun (s : State) (t : Team) => onWarp s (warpOfTeam s t.id w) fun v => v.compared (upTo.getD w 0)
    mark (mark s a) b) s

/-! ## Failures (R448, R449) -/

/-- The kind of a point as a record names it (R448): the release of a LAUNCH or JOB, which copy 0 submits for both, is a release. -/
def pointKind (kind : Nat) : Nat := if kind == 6 then 0 else kind % 16

/-- The record of a class 8 failure: copy 0's warp, its instruction at the point, the kind, RETRY, copy 1's core. (Log 74: DEDUCED, unsafe.) -/
def redundantRecord (s : State) (a b : Team) (wid kind code : Nat) (f : Frag) : FaultRec :=
  let info := pointKind kind + bit a.retry * 16 + b.core * 65536
  let words := wordsAt s (warpIn s a.id wid) f.pc
  { recordOf s (warpIn s a.id wid) f.frag f.pc { cls := 8, code := code, info := BitVec.ofNat 32 info } with
    prec := false, instr := words.1, pfxWord := words.2 }

/-- Every warp of a team ended without save: its operations, copies and registrations go with it. (Log 170: DEDUCED, unsafe.) -/
def dropTeam (s : State) (id : Nat) : State :=
  let ws := s.warps.filter fun w => w.team == id
  let s := ws.foldl (fun s w => failPartners s (warpOfTeam s id w.wid)) (dropWaiters s fun x => ws.any fun w => w.registered x)
  removeTeam { s with
    ops := s.ops.filter fun o => o.team != id
    wcb := s.wcb.map fun x => { x with ops := x.ops.filter fun i => s.ops.any fun o => o.id == i && o.team != id }
    copies := s.copies.filter fun c => c.team != id } id

/-- Both copies abandoned, the dirty bytes of both cores written back (R63); copy 0's locks handed over; the team placed again once, unless it is a gang's (R449). (Log 75: DEDUCED, unsafe.) -/
def abandonPair (s : State) (a b : Team) : State :=
  let k := taskAt s a.task
  let l := k.launch
  let pair := s.warps.filter fun w => w.team == a.id || w.team == b.id
  let s := dropWaiters s fun x => pair.any fun w => w.registered x
  let s := (widsOf s a).foldl (fun s w => dropTokens s (warpOfTeam s a.id w)) s
  let bars := if l.gang then barriersOf s a ++ barriersOf s b else []
  let s := zeroStorage (zeroStorage s a) b
  let s := dropTeam (leaveCore (addService s a) a) a.id
  let s := dropTeam (leaveCore (addService s b) b) b.id
  let s := bars.foldl abandon s
  if l.gang || a.retry then
    let s := onTask s a.task fun k => { k with faulted := true, ended := k.ended + 1 }
    refill s a.task a.core
  else
    let avoid := (coresOf l a.core ++ coresOf l b.core)
    let s := onTask s a.task fun k => { k with again := k.again ++ [(a.index, avoid)] }
    (placeAgain s a.task a.index avoid).getD s

/-- A class 8 failure, recorded and acted upon; a differing signature counts against each core of the two copies (R445). (Log 123: DEDUCED, unsafe.) -/
def failPair (s : State) (a b : Team) (wid kind code : Nat) (f : Frag) : State :=
  let s := abandonPair (logRecord s (redundantRecord s a b wid kind code f)) a b
  if code != 0x001 then s
  else
    (coresOf (taskAt s a.task).launch a.core ++ coresOf (taskAt s a.task).launch b.core).foldl
      (fun s c => countError s { structClass := 15, unit := c, sub := 0, row := 0 } true 0) s

/-! ## What stands at a comparison point -/

/-- The kind of comparison point a fragment stands at. -/
def Frag.point (f : Frag) : Option Nat :=
  match f.wait with
  | .compare k => some k
  | _ => none

/-- The fragment of the twin that stands at the same point: kind, PC and lanes. -/
def twinFrag (v : Warp) (f : Frag) : Option Frag := v.frags.find? fun g => g.wait == f.wait && g.pc == f.pc && g.frag == f.frag

/-- A pair of fragments, one in each copy's warp, that stand at one point, a store that waits for its gate apart. -/
def standing (s : State) (a b : Team) : Option (Nat × Frag × Frag) :=
  (widsOf s a).findSome? fun w => (warpIn s a.id w).frags.findSome? fun f =>
    if f.point.any (· != 2) then (twinFrag (warpIn s b.id w) f).map fun g => (w, f, g) else none

/-- A warp of one copy that halted while its twin did not. -/
def lonely (s : State) (a b : Team) : Option Nat :=
  (widsOf s a).find? fun w => (warpIn s a.id w).halted != (warpIn s b.id w).halted

/-- Whether the signatures of a warp of both copies match: as far as both have come, and where it stands at the point, wholly. -/
def matching (s : State) (a b : Team) (whole : Bool) (wid : Nat) : Bool :=
  let u := warpIn s a.id wid
  let v := warpIn s b.id wid
  let n := commonRecords s a b wid
  u.sigLog.take (n - u.sigBase) == v.sigLog.take (n - v.sigBase) && (!whole || (u.sig == v.sig && u.records == v.records))

/-- A warp whose signatures differ (R44): those that stand at the point are compared wholly. (Log 42: DEDUCED, unsafe.) -/
def differing (s : State) (a b : Team) (stand : List Nat) : Option Nat :=
  (widsOf s a).find? fun w => !matching s a b (stand.contains w) w

/-- Whether a barrier only waits for its comparison. -/
def phaseFull (b : Barrier) : Bool := !b.abandoned && b.arrived == b.expect && decide (0 < b.arrived) && b.pend == 0

/-- The barrier of the other copy that corresponds to a barrier. -/
def twinBarrier (s : State) (x : Barrier) : Option Barrier :=
  s.barriers.find? fun y => y.id != x.id && y.task == x.task && y.scope == x.scope && y.index == x.index &&
    y.teams.any fun t => x.teams.any fun u => (teamById s t).index == (teamById s u).index

/-- A barrier wider than a core of a team whose phase is full. -/
def fullBarrier (s : State) (t : Team) : Option Barrier :=
  s.barriers.find? fun x => x.task == t.task && decide (2 ≤ x.scope) && x.teams.contains t.id && phaseFull x && !flitLost s x.id && (x.scope != 5 || podReached s)

/-- A barrier of copy 0 with its twin of copy 1, both full. -/
def fullPair (s : State) (a b : Team) : Option (Barrier × Barrier) :=
  match fullBarrier s a, fullBarrier s b with
  | some x, some _ => ((twinBarrier s x).filter fun y => phaseFull y).map fun y => (x, y)
  | _, _ => none

/-- Whether a store of a team waits for room in its gate, or a line of one of its copies does. -/
def gateWaits (s : State) (t : Team) : Bool :=
  (s.warps.any fun w => w.team == t.id && w.frags.any fun f => f.point == some 2) ||
    s.copies.any fun c => c.team == t.id && c.accepted && c.lines.any fun l => !lineFits s c l

/-- Whether a gate that has no room for a store holds writes that both copies have made, so that a comparison makes room (R44). (Log 148: DESIGN CHOICE, unsafe.) -/
def pressed (s : State) (a b : Team) : Bool :=
  (gateWaits s a || gateWaits s b) && (a.gate.any (isDue s a b) || b.gate.any (isDue s a b))

/-- Whether something of a team's pair is ready to be compared. (Log 42: DEDUCED, unsafe.) -/
def comparable (s : State) (a b : Team) : Bool :=
  (lonely s a b).isSome || (teamOver s a.id && teamOver s b.id) || (fullPair s a b).isSome || (standing s a b).isSome || pressed s a b

/-! ## Comparison (R44) -/

/-- The fragment of a warp that a record of a barrier or an end names. (Log 74: DEDUCED, unsafe.) -/
def anyFrag (w : Warp) : Frag := w.frags.headD { exec := 0, frag := 0 }

/-- Team end: the gates released, or the failure of the first differing warp. -/
def compareEnd (s : State) (a b : Team) : State :=
  match differing s a b (widsOf s a) with
  | some w => failPair s a b w 3 0x001 (anyFrag (warpIn s a.id w))
  | none => endTeam (endTeam (releaseGate s a b) b.id) a.id

/-- The pairs of teams that take part in a barrier of copy 0. -/
def barrierPairs (s : State) (x : Barrier) : List (Team × Team) := x.teams.filterMap (copiesOf s)

/-- The fragment of a warp that waits for a phase of a barrier. -/
def waitsFor (w : Warp) (bar : Nat) : Option Frag := w.frags.find? fun f => match f.wait with
  | .barrier b _ _ => b == bar
  | _ => false

/-- The warps of a pair that wait for a phase in both copies: each of them has made all its records. (Log 42: DEDUCED, unsafe.) -/
def phaseWaiters (s : State) (x y : Barrier) (a b : Team) : List Nat :=
  (widsOf s a).filter fun w => (waitsFor (warpIn s a.id w) x.id).isSome && (waitsFor (warpIn s b.id w) y.id).isSome

/-- A barrier phase: every pair compared and released, and both copies' phases completed.  A warp whose BARARV let it run on is compared as far as both
copies have come; a failure names a warp that waits for the phase. (Log 42: DEDUCED, unsafe; 74: DEDUCED, unsafe.) -/
def comparePhase (s : State) (x y : Barrier) : State :=
  let stand := fun (p : Team × Team) => phaseWaiters s x y p.1 p.2
  match (barrierPairs s x).findSome? fun p => (differing s p.1 p.2 (stand p)).map fun w => (p, w) with
  | some (p, w) =>
    let named := (stand p).headD w
    let v := warpIn s p.1.id named
    failPair s p.1 p.2 named 1 0x001 ((waitsFor v x.id).getD (anyFrag v))
  | none =>
    let s := (barrierPairs s x).foldl (fun s p => releaseGate s p.1 p.2) s
    completePhase (completePhase s x.id) y.id

/-- The warps of a team that wait for room in their gate try their stores again. -/
def tryStores (s : State) (t : Team) : State :=
  { s with warps := s.warps.map fun w =>
      if w.team == t.id then { w with frags := w.frags.map fun f => if f.point == some 2 then { f with wait := .none } else f } else w }

/-- The fragment that a store's failure at a full gate names: one that waits for room. (Log 74: DEDUCED, unsafe.) -/
def pressedFrag (s : State) (a : Team) : Option (Nat × Frag) :=
  (widsOf s a).findSome? fun w => ((warpIn s a.id w).frags.find? fun f => f.point == some 2).map fun f => (w, f)

/-- A gate that a store would overfill (R44): what both copies have made is compared and leaves, and the waiting stores are tried again; one that finds
no room waits on. (Log 148: DESIGN CHOICE, unsafe.) -/
def compareGates (s : State) (a b : Team) : State :=
  match differing s a b [] with
  | some w =>
    let x := (pressedFrag s a).getD (w, anyFrag (warpIn s a.id w))
    failPair s a b x.1 2 0x001 x.2
  | none =>
    let s := releaseGate s a b
    tryStores (tryStores s a) b

/-- A pair of fragments at a point: every warp compared, copy 0's writes released, and the fragments let on; an access that copy 0 makes
for both lets only copy 0's on. (Log 42: DEDUCED, unsafe.) -/
def compareFrags (s : State) (a b : Team) (wid : Nat) (f g : Frag) : State :=
  let kind := f.point.getD 0
  match differing s a b [wid] with
  | some _ => failPair s a b wid kind 0x001 f
  | none =>
    let s := releaseGate s a b
    let pass := fun (f : Frag) => { f with wait := .none, compared := true }
    let s := onWarp s (warpOfTeam s a.id wid) fun w => onFrag w f.id pass
    if 4 ≤ kind then s else onWarp s (warpOfTeam s b.id wid) fun w => onFrag w g.id pass

/-- COMPARISON_POINT (R44, R448). -/
def execComparisonPoint (team : Nat) (s : State) : Out :=
  match copiesOf s team with
  | none => .next s
  | some (a, b) =>
    match lonely s a b with
    | some w => .next (failPair s a b w ((anyFrag (warpIn s a.id w)).point.getD 0) 0x002 (anyFrag (warpIn s a.id w)))
    | none =>
      if teamOver s a.id && teamOver s b.id then .next (compareEnd s a b)
      else
        match fullPair s a b, standing s a b with
        | some (x, y), _ => .next (comparePhase s x y)
        | none, some (w, f, g) => .next (compareFrags s a b w f g)
        | none, none => .next (if pressed s a b then compareGates s a b else s)

/-- Whether the twin of a fragment stands at its point, or has passed it: it acts for both (R45, R222), or its gate had room. -/
def accompanied (u v : Warp) (f : Frag) : Bool :=
  (twinFrag v f).isSome || (f.point == some 2 && decide (u.records < v.records)) ||
    v.frags.any fun g => g.compared && g.pc == f.pc && g.frag == f.frag

/-- The warp and kind of a point at which one copy waits alone. -/
def alone (s : State) (a b : Team) : Option (Nat × Nat) :=
  if (fullBarrier s a).isSome || (fullBarrier s b).isSome then some (0, 1)
  else
    let find := fun (x y : Team) => (widsOf s x).findSome? fun w => (warpIn s x.id w).frags.findSome? fun f =>
      match f.point with
      | some k => if accompanied (warpIn s x.id w) (warpIn s y.id w) f then none else some (w, k)
      | none => none
    match (find a b).orElse fun _ => find b a with
    | some x => some x
    | none => if teamOver s a.id || teamOver s b.id then some (0, 3) else none

/-- REDUNDANT_WAIT_TIMEOUT (R448): one copy's warp has waited 10 ms for its twin. -/
def execRedundantWaitTimeout (team : Nat) (s : State) : Out :=
  match copiesOf s team with
  | none => .next s
  | some (a, b) =>
    if comparable s a b then .next s
    else
      match alone s a b with
      | none => .next s
      | some (w, k) =>
        let v := warpIn s a.id w
        .next (failPair s a b w k 0x003 ((v.frags.find? fun f => f.point == some k).getD (anyFrag v)))

end Sys2Proof.Machine
end

