-- ==== Sys2Proof/Machine/Travel.lean ====
section
/-! DEFINITION. Travelling launches (R303 to R319, R438, R439): pinning, departure, sleds, steering, rings, admission,
replication and the save of a launch; and the termination of a warp (R422). -/

namespace Sys2Proof.Machine

open Sys2Proof

/-! ## Termination (R422) -/

/-- The record of a warp that is terminated. (Log 80: DEDUCED, unsafe.) -/
def terminationRecord (s : State) (w : Warp) (code : Nat) : FaultRec :=
  let f := (servedBy w 0#32).getD { exec := 0, frag := 0 }
  let words := wordsAt s w f.pc
  { recordOf s w f.frag f.pc { cls := 7, code := code } with prec := false, instr := words.1, pfxWord := words.2 }

/-- A warp terminated: no handler, no save; its record goes to the log only, and what it had in flight is discarded.  One that has halted or
ended before only loses what it had in flight. (Log 80: DEDUCED, unsafe.) -/
def terminateWarp (s : State) (i : Nat) (code : Nat) : State :=
  let w := s.warps.getD i {}
  let s := if w.halted || w.ended then s else stopWarp s i (terminationRecord s w code) false
  let jobs := (List.range 512).filter fun n =>
    (taskAt s n).state != .free && (taskAt s n).origin.warp == some (w.team, w.wid) && (match (taskAt s n).body with
      | .job _ => true
      | .launch _ => false)
  let s := jobs.foldl freeTask s
  onWarp { s with
    ops := s.ops.filter fun o => !(o.team == w.team && o.wid == w.wid)
    wcb := s.wcb.map (fun x => { x with ops := x.ops.filter (fun n =>
      !s.ops.any (fun o => o.id == n && o.team == w.team && o.wid == w.wid)) })
    copies := s.copies.filter fun c => !(c.team == w.team && c.wid == w.wid)
    arrays := s.arrays.map fun a =>
      if a.team == w.team then { a with queue := a.queue.filter fun o => o.wid != w.wid } else a } i
    fun w => { w with cntLd := 0, cntSt := 0, cntCp := 0, cntTl := 0 }

/-! ## The map and the pins -/

/-- The launch's map as it stands. -/
def mapOf (s : State) (task : Nat) : Option SegMap := frontMap s (taskAt s task).world (taskAt s task).launch

/-- A word of the map written at its home (R306). -/
def mapWrite (s : State) (task off : Nat) (bs : List Byte) : State :=
  let k := taskAt s task
  match jobSpot s k.world (k.launch.travMap.toNat + off) .write with
  | .ok a => homeWrite s a bs false
  | .error _ => s

/-- CORE j of segment k written with V = 1 (Table TRAV.3). -/
def writeCore (s : State) (task k j core : Nat) : State :=
  mapWrite s task (0x40 + 32 * k + 0x10 + 2 * j) (toBytes 2 (2 ^ 15 + core))

/-- The replicas that a map asks for, in the order of R307. -/
def SegMap.order (m : SegMap) : List (Nat × Nat) :=
  (m.entries.zipIdx.map fun x => (List.range x.1.nrep).map fun j => (x.2, j)).flatten

/-- The core that a replica takes (R307): the lowest that serves, is of the class, and holds no team and no pin. -/
def pinCore (s : State) (k : Task) : Option Nat :=
  allCores.find? fun c => 
    coreSuits s k.vdev k.launch c && s.pod.dies.getLsbD (dieOf c) && servedOn s k.vdev (dieOf c) && (pinOf s c).isNone && (teamsOn s c).isEmpty

/-- A segment's words brought into a core's instruction store (R101), where they stand until the core is unpinned; the words of a page that refuses
the fetch stay out, and meet R418 when they are to issue. (Log 81: DEDUCED, unsafe.) -/
def loadSegment (s : State) (core world base words : Nat) : State :=
  let first := iLineBase base
  let n := if words == 0 then 0 else (base + 4 * words - 1) / 64 - base / 64 + 1
  let s := (List.range n).foldl (fun s i =>
    match fetchPage s core world (first + 64 * i) with
    | .ok e => fetchLine s core world (first + 64 * i) e
    | .error _ => s) { s with ilines := s.ilines.filter fun x => x.core != core }
  { s with ilines := s.ilines.map fun x => if x.core == core then { x with store := true } else x }

/-- Where a replica's scratch is saved (R319). -/
def scratchSave (l : Launch) (k j : Nat) : Nat := l.save.toNat + (8 * k + j) * l.scrGranules * 4096

/-- A replica's scratch moved between the core and the save area, line by line. -/
def moveScratch (s : State) (k : Task) (core seg j : Nat) (save : Bool) : State :=
  (List.range (ceilDiv k.launch.scratch 128)).foldl (fun s i =>
    match jobSpot s k.world (scratchSave k.launch seg j + 128 * i) (if save then .write else .read) with
    | .error _ => s
    | .ok a =>
      let c := scrAddr core (128 * i)
      if save then
        if homeTakes s a then { homeNoted s a 128 with mem := copyLine s.mem c a } else s
      else { s with mem := copyLine s.mem a c }) s

/-- One replica pinned (R307): the segment loaded, the scratch zeroed or restored, CORE j written. (Log 81: DEDUCED, unsafe.) -/
def pinReplica (s : State) (task : Nat) (m : SegMap) (k j core since : Nat) : State :=
  let t := taskAt s task
  let e := m.entries.getD k { base := 0, len := 0, nrep := 0, cores := [] }
  let s := flushCore s core
  let s := loadSegment s core t.world e.base e.len
  let s := { s with mem := s.mem.clear (scrAddr core 0) (4096 * t.launch.scrGranules) }
  let s := if t.saved then moveScratch s t core k j false else s
  writeCore { s with pins := s.pins ++ [{ core := core, task := task, k := k, j := j, since := since }] } task k j core

/-- Every replica of the map is pinned: a saved launch resumes under a new epoch (R319). -/
def allPinned (s : State) (task : Nat) (m : SegMap) : State :=
  let k := taskAt s task
  let s := if k.saved then mapWrite s task 4 (toBytes 4 (m.epoch.toNat + 1)) else s
  onTask s task fun k => { k with
    pinnedAt := s.now, saved := false, state := if k.nextTeam < k.launch.grid then .placing else .running }

/-- Replicas of a task pinned so far. -/
def pinnedBy (s : State) (task : Nat) : List Pin := s.pins.filter fun p => p.task == task

/-- REPLICA_PIN (R307): the next replica in order takes its core, if one is free; a launch begins at its turn (R291). -/
def execReplicaPin (task : Nat) (s : State) : Out :=
  let k := taskAt s task
  if !k.launch.travelling || !((k.state == .ready && hasTurn s task) || k.state == .placing) then .next s
  else
    let s := if k.state == .ready then onTask (loadBooks s task) task fun k => { k with state := .placing } else s
    match mapOf s task with
    | none => .next s
    | some m =>
      match m.order.find? fun x => !(pinnedBy s task).any fun p => p.k == x.1 && p.j == x.2 with
      | none => .next s
      | some (i, j) =>
        match pinCore s (taskAt s task) with
        | none => .next s
        | some c =>
          let s := pinReplica s task m i j c 0
          .next (if m.order.all fun x => (pinnedBy s task).any fun p => p.k == x.1 && p.j == x.2 then allPinned s task m else s)

/-! ## Injection (R314) -/

/-- SLED_INJECT (R314): the next team enters as a sled of one flit, once every replica is pinned. (Log 79: DEDUCED, unsafe.) -/
def execSledInject (task : Nat) (s : State) : Out :=
  let k := taskAt s task
  let l := k.launch
  match mapOf s task with
  | none => .next s
  | some m =>
    let ready := l.travelling && k.state == .placing && !k.saved && decide (k.nextTeam < l.grid) &&
      m.order.all fun x => (pinnedBy s task).any fun p => p.k == x.1 && p.j == x.2
    if !ready then .next s
    else
      let xyz := l.coords k.nextTeam
      let t : Team := { id := s.nextId, task := task, index := k.nextTeam, x := xyz.1, y := xyz.2.1, z := xyz.2.2
                        core := nowhere, perf := List.replicate 11 0, since := s.now }
      let sled : Sled :=
        { id := s.nextId + 1, task := task, team := t.id
          pc := BitVec.ofNat 64 ((entryCode s k.world l.entry 0).getD 0), epoch := m.epoch, exec := 0xFFFFFFFF#32
          teamX := t.x, teamY := t.y, teamZ := t.z, start := true, spill := Config.spillBase task t.index 0 }
      .next (countPlaced (onTask { s with teams := s.teams ++ [t], sleds := s.sleds ++ [sled], nextId := s.nextId + 2 } task
        fun k => { k with nextTeam := k.nextTeam + 1 }) task 1)

/-! ## Departure (R309 to R311, R438) -/

/-- The registers that a LIVE mask names. -/
def liveRows (w : Warp) (live : BitVec 256) (regs : Nat) : List (Nat × Row) :=
  ((List.range 256).filter fun r => live.getLsbD r && regInside regs r).map fun r => (r, regOf w r)

/-- The sled of a warp that leaves for segment k (Table TRAV.4), with the entries that go to its spill region. -/
def packSled (s : State) (w : Warp) (f : Frag) (k : Nat) (epoch : Word) (live : BitVec 256) : Sled × List LinkEntry :=
  let t := teamOf s w
  let n := min w.onCore 8
  let rows := liveRows w live (t.launch s).regs
  ({ id := s.nextId, task := t.task, team := t.id, pc := f.pc.zeroExtend 64, seg := k, epoch := epoch, exec := f.exec
     mode := w.mode, flags := w.flags, teamX := t.x, teamY := t.y, teamZ := t.z, ldepth := w.link.length
     links := w.link.take n, spill := w.spill + BitVec.ofNat 64 (16 * (w.onCore - n))
     live := rows.foldl (fun m r => m ||| dirtyBit r.1) 0, rows := rows, fromCore := w.core, fromSlot := w.slot },
   w.link.drop n)

/-- A warp taken off its core, its team on its way with the entries of its spill region, to which those on the core that it does not carry are
added (R311). -/
def liftWarp (s : State) (w : Warp) (older : List LinkEntry) : State :=
  let s := leavePin (spillOut s w (oldestOnCore w (min w.onCore 8))) (teamOf s w)
  onTeam (dropStops (addService { s with warps := s.warps.filter fun v => v.team != w.team } (teamOf s w)) [w]) w.team fun t =>
    { t with core := nowhere, spilled := older, since := s.now }

/-- The live mask of the block at an address (R305). -/
def liveAt (s : State) (world pc : Nat) : BitVec 256 :=
  match sealAt s world pc with
  | none => 0
  | some m => look m.live pc 0

/-- A departure that fails: its fault is left pending on the source core, which goes on (R438). -/
def stayBehind (s : State) (i : Nat) (code va : Nat) : State :=
  onWarp s i fun w =>
    let f := w.frags.headD {}
    { w with departing := false, blocked := false }.leave s.now
      { cls := 4, code := code, res := false, pois := false, frag := f.frag, pc := f.pc, ctr := none
        addr := BitVec.ofNat 64 va, info := some (BitVec.ofNat 32 (w.leftAt.toNat / 4)) }

/-- Whether a departing warp may leave: its counters at 0, no fault pending, its bytes out of the buffer. -/
def mayDepart (w : Warp) : Bool :=
  w.departing && !w.halted && w.trap.isNone && w.pending.isEmpty && w.cntLd == 0 && w.cntSt == 0 && w.cntCp == 0

/-- Depart(pc) of R309, for a warp whose counters stand at 0; the core's lines go with the launch's last team there (R272). -/
def depart (s : State) (i : Nat) : State :=
  let w := s.warps.getD i {}
  let f := w.frags.headD {}
  let s := releaseActs (leaveCore s (teamOf s w)) w.core 4
  match readMap s w with
  | .error va => stayBehind s i 0x402 va
  | .ok (s, m) =>
    match m.segmentOf f.pc.toNat with
    | none => stayBehind s i 0x401 f.pc.toNat
    | some k =>
      let (sled, older) := packSled s w f k m.epoch (liveAt s (taskOf s w).world f.pc.toNat)
      { liftWarp s w older with sleds := s.sleds ++ [sled], nextId := s.nextId + 1 }

/-- The STNT bytes of departing warps drained, and every departure whose wait is over. -/
def departAll (s : State) : State :=
  if !s.warps.any fun w => w.departing then s
  else
    let mine := (s.warps.filter fun w => w.departing).flatMap fun w => (opsOf s w).map (·.id)
    let s := wcbDrain s fun x => x.ops.any mine.contains
    let keys := (s.warps.filter mayDepart).map fun w => w.team
    keys.foldl (fun s t => depart s (warpOfTeam s t 0)) s

/-! ## Steering (R312) -/

/-- The replica that a sled takes: of least depth among those of its epoch, ties to the lowest core. -/
def steerTo (s : State) (x : Sled) : Option Pin :=
  argMin (fun (p : Pin) => p.depth * 1024 + p.core)
    ((pinnedBy s x.task).filter fun p => p.k == x.seg && decide (p.since ≤ x.epoch.toNat))

/-- A sled changed by its number; a sled taken away. -/
def onSled (s : State) (id : Nat) (g : Sled → Sled) : State := { s with sleds := updateFirst (fun x => x.id == id) g s.sleds }
def dropSled (s : State) (id : Nat) : State := { s with sleds := s.sleds.filter fun x => x.id != id }

/-- A pin changed by its core. -/
def onPin (s : State) (core : Nat) (g : Pin → Pin) : State := { s with pins := updateFirst (fun p => p.core == core) g s.pins }

/-- A sled steered to a replica, whose depth counts it until its warp leaves. -/
def steerSled (s : State) (x : Sled) : State :=
  match steerTo s x with
  | none => s
  | some p =>
    onTeam (onSled (onPin s p.core fun p => { p with depth := p.depth + 1 }) x.id fun x => { x with dest := some p.core }) x.team
      fun t => { t with steered := true }

/-- SLED_STEER (R312): the slice steers sleds in their order of arrival, taken to be that of their numbers; one that is lost holds
up none. (Log 182: DESIGN CHOICE, unsafe.) -/
def execSledSteer (sled : Nat) (s : State) : Out :=
  match s.sleds.find? fun x => x.id == sled && x.dest.isNone && !sledLost s sled with
  | none => .next s
  | some x =>
    if s.sleds.any fun y => y.task == x.task && y.seg == x.seg && y.dest.isNone && decide (y.id < x.id) && !sledLost s y.id then .next s
    else .next (steerSled s x)

/-! ## Lost sleds (R439) -/

/-- The warp of a sled terminated: its record names a core and slot; its team is over. -/
def loseSled (s : State) (x : Sled) (code core slot : Nat) : State :=
  let k := taskAt s x.task
  let r : FaultRec :=
    { cls := 7, code := code, prec := false, world := k.world, core := core, slot := slot, frag := x.exec
      pc := x.pc.extractLsb' 0 57, tenant := k.tenant, entry := k.entry, time := s.now, teamX := x.teamX, teamY := x.teamY
      teamZ := x.teamZ, vdev := k.vdev }
  let s := logRecord s r
  let s := match x.dest with
    | some c => if (teamById s x.team).steered then onPin s c fun p => { p with depth := p.depth - 1 } else s
    | none => s
  onTask { dropSled s x.id with teams := s.teams.filter fun t => t.id != x.team } x.task fun k =>
    { k with ended := k.ended + 1, faulted := true }

/-- SLED_TIMEOUT (R439): a sled short of its flits, or whose tag fails. (Log 82: DEDUCED, safe.) -/
def execSledTimeout (sled : Nat) (s : State) : Out :=
  match s.sleds.find? fun x => x.id == sled with
  | none => .next s
  | some x => .next (loseSled s x 0x010 x.fromCore x.fromSlot)

/-! ## Sleds as flits (R310) -/

/-- The registers whose flits a ring slot has room for. -/
def slotRows (m : SegMap) (x : Sled) : Nat := m.sledMax / 128 - 1 - (if x.links.isEmpty then 0 else 1)

/-- The header flit (Table TRAV.4). -/
def headerFlit (x : Sled) : List Lane :=
  let nflit := 1 + (if x.links.isEmpty then 0 else 1) + x.rows.length
  lanes64 x.pc ++ [clean (BitVec.ofNat 32 x.seg), clean x.epoch, clean x.exec, clean (x.mode.zeroExtend 32),
    clean (x.flags.zeroExtend 32), clean (BitVec.ofNat 32 (x.teamX + x.teamY * 65536)),
    clean (BitVec.ofNat 32 (x.teamZ + nflit * 65536)),
    clean (BitVec.ofNat 32 (x.links.length + bit x.start * 16 + x.ldepth * 65536))] ++ lanes64 x.spill ++
    ((List.range 8).map fun i => clean (x.live.extractLsb' (32 * i) 32)) ++ List.replicate 12 ({} : Lane)

/-- The link flit (R311). -/
def linkFlit (x : Sled) : List Lane :=
  let words := x.links.flatMap LinkEntry.lanes
  words ++ List.replicate (32 - words.length) ({} : Lane)

/-- The flits of a sled that a slot has room for, one after another. -/
def flitsOf (m : SegMap) (x : Sled) : List Lane :=
  headerFlit x ++ (if x.links.isEmpty then [] else linkFlit x) ++ ((x.rows.take (slotRows m x)).flatMap fun r => r.2)

/-- The sled that a slot's flits hold; `carry` gives the registers past them. -/
def sledFrom (task : Nat) (xs : List Lane) (teamOf' : Nat → Nat → Nat → Team) (m : SegMap) : Sled :=
  let w := fun i => wordAt xs i
  let x := (w 7).toNat % 65536
  let y := (w 7).toNat / 65536
  let z := (w 8).toNat % 65536
  let t := teamOf' x y z
  let nlink := min ((w 9).toNat % 16) 8
  let live := (List.range 8).foldl (fun (a : BitVec 256) i => a ||| ((w (12 + i)).zeroExtend 256 <<< (32 * i))) 0
  let names := (List.range 256).filter fun r => live.getLsbD r
  let from' := 32 + (if nlink == 0 then 0 else 32)
  let base : Sled :=
    { task := task, team := t.id, pc := pairOf (w 0) (w 1), seg := (w 2).toNat, epoch := w 3, exec := w 4
      mode := (w 5).extractLsb' 0 24, flags := (w 6).extractLsb' 0 5, teamX := x, teamY := y, teamZ := z
      ldepth := bitsOf (w 9).toNat 16 13, start := (w 9).getLsbD 4
      links := (List.range nlink).map fun i =>
        let at' := 32 + 4 * i
        { ret := (pairOf (w at') (w (at' + 1))).extractLsb' 0 57, sp := pairOf (w (at' + 2)) (w (at' + 3))
          poisonLo := (xs.getD (at' + 2) {}).poison, poisonHi := (xs.getD (at' + 3) {}).poison }
      spill := pairOf (w 10) (w 11), live := live }
  let fit := slotRows m base
  { base with rows := (names.take fit).zipIdx.map (fun x => (x.1, rowOf fun l => xs.getD (from' + 32 * x.2 + l) {})) ++ t.carry }

/-! ## Rings (R313, R315) -/

/-- The address of the ring of a pin. -/
def ringAt (m : SegMap) (p : Pin) : Nat := m.ringBase + (8 * p.k + p.j) * m.ringLen

/-- The capacity of a ring. -/
def ringCap (m : SegMap) : Nat := if m.sledMax == 0 then 0 else (m.ringLen - 128) / m.sledMax

/-- Where a pinned core finds a word of a ring: it translates, and its home answers the core (R439). -/
def ringPlace (s : State) (core world va : Nat) (need : Need) : Option Nat :=
  (jobSpot s world va need).toOption.filter (homeReached s world core)

/-- A word of a ring read at its home. -/
def ringRead (s : State) (core world va : Nat) : Option Lane := (ringPlace s core world va .read).map s.mem.lane

/-- Words written from an address of a ring, or none if one cannot be. -/
def ringWrite (s : State) (core world va : Nat) : List Lane → Option State
  | [] => some s
  | x :: rest =>
    match ringPlace s core world va .write with
    | none => none
    | some a => ringWrite (homeWrite s a (toBytes 4 x.val.toNat) x.poison) core world (va + 4) rest

/-- Words read from an address of a ring. -/
def ringWords (s : State) (core world va n : Nat) : Option (List Lane) :=
  (List.range n).foldl (fun acc i => acc.bind fun xs => (ringRead s core world (va + 4 * i)).map fun x => xs ++ [x]) (some [])

/-- HEAD and COUNT of a ring, as memory holds them. (Log 183: DESIGN CHOICE, safe.) -/
def ringState (s : State) (core world va : Nat) : Option (Nat × Nat) :=
  (ringRead s core world va).bind fun h => (ringRead s core world (va + 4)).map fun c => (h.val.toNat, c.val.toNat)

/-- A sled written to slot `(head + count) mod CAP` of a ring, and COUNT advanced. -/
def ringPush (s : State) (core world : Nat) (m : SegMap) (va : Nat) (x : Sled) : Option State :=
  (ringState s core world va).bind fun hc =>
    let slot := (hc.1 + hc.2) % ringCap m
    (ringWrite s core world (va + 128 + slot * m.sledMax) (flitsOf m x)).bind fun s =>
      (ringWrite s core world (va + 4) [clean (BitVec.ofNat 32 (hc.2 + 1))]).map fun s =>
        { onTeam s x.team fun t => { t with carry := x.rows.drop (slotRows m x), inRing := some (va, slot, s.nextId) } with
          nextId := s.nextId + 1 }

/-- The team of a task with some coordinates. -/
def teamAt (s : State) (task x y z : Nat) : Team :=
  (s.teams.find? fun t => t.task == task && t.x == x && t.y == y && t.z == z).getD {}

/-- The sled in the slot at HEAD of a ring, with the state after HEAD and COUNT have moved. -/
def ringPop (s : State) (core task : Nat) (m : SegMap) (va head count : Nat) : Option (State × Sled) :=
  let world := (taskAt s task).world
  (ringWords s core world (va + 128 + head * m.sledMax) (m.sledMax / 4)).bind fun xs =>
    (ringWrite s core world va [clean (BitVec.ofNat 32 ((head + 1) % ringCap m)), clean (BitVec.ofNat 32 (count - 1))]).map fun s =>
      let x := sledFrom task xs (teamAt s task) m
      (onTeam s x.team fun t => { t with carry := [], inRing := .none }, x)

/-- SLED_ACCEPT (R313): a free queue entry with an empty ring, or else the ring. -/
def execSledAccept (sled : Nat) (s : State) : Out :=
  match s.sleds.find? fun x => x.id == sled && !sledLost s sled with
  | none => .next s
  | some x =>
    match x.dest.bind (pinOf s), mapOf s x.task with
    | some p, some m =>
      let world := (taskAt s x.task).world
      match ringState s p.core world (ringAt m p) with
      | none => .next (loseSled s x 0x011 p.core 0)
      | some (_, count) =>
        if decide (p.queue.length < 8) && count == 0 then
          .next (onPin (dropSled s sled) p.core fun p => { p with queue := p.queue ++ [x] })
        else
          match ringPush s p.core world m (ringAt m p) x with
          | none => .next (loseSled s x 0x011 p.core 0)
          | some s => .next (dropSled s sled)
    | some p, none => .next (loseSled s x 0x011 p.core 0)
    | none, _ => .next s

/-- Every warp of a launch terminated for a ring control block that is out of bounds (R439). -/
def terminateLaunch (s : State) (task code : Nat) : State :=
  let ids := (s.teams.filter fun t => t.task == task).map (·.id)
  let s := (s.warps.filter fun w => ids.contains w.team).foldl (fun s w => terminateWarp s (warpOfTeam s w.team w.wid) code) s
  let moving := s.sleds.filter (fun x => x.task == task) ++
    (pinnedBy s task).flatMap fun p => p.queue.map fun x => { x with dest := some p.core }
  let s := moving.foldl (fun s x => loseSled s x code (x.dest.getD x.fromCore) 0) s
  -- the sleds in the rings are terminated with the rest
  let left := s.teams.filter fun t => t.task == task && t.core == nowhere
  let s := left.foldl (fun s t => loseSled s { task := task, team := t.id, teamX := t.x, teamY := t.y, teamZ := t.z } code 0 0) s
  { s with pins := s.pins.map fun p => if p.task == task then { p with queue := [] } else p }

/-- The team whose sled has stood longest among those that `f` picks by ring and slot. (Log 78: DESIGN CHOICE, unsafe.) -/
def ringTeam (s : State) (task : Nat) (f : Nat → Nat → Bool) : Option Team :=
  argMin (fun (t : Team) => ((t.inRing.map fun r => r.2.2)).getD 0)
    (s.teams.filter fun t => t.task == task && t.inRing.any fun r => f r.1 r.2.1)

/-- A sled of a ring that cannot be read is lost with its warp; HEAD and COUNT stay as they were (R439). (Log 78: DESIGN CHOICE, unsafe.) -/
def loseInRing (s : State) (core : Nat) : Option Team → State
  | none => s
  | some t => loseSled s { task := t.task, team := t.id, teamX := t.x, teamY := t.y, teamZ := t.z, dest := some core } 0x011 core 0

/-- RING_REFILL (R313, R439): the slot at HEAD moves into a free queue entry. (Log 78: DESIGN CHOICE, unsafe.) -/
def execRingRefill (core : Nat) (s : State) : Out :=
  match pinOf s core with
  | none => .next s
  | some p =>
    match mapOf s p.task with
    | none => .next s
    | some m =>
      let ring := ringAt m p
      if decide (8 ≤ p.queue.length) then .next s
      else
        match ringState s core (taskAt s p.task).world ring with
        | none => .next (loseInRing s core (ringTeam s p.task fun va _ => va == ring))
        | some (head, count) =>
          if decide (ringCap m ≤ head) || decide (ringCap m < count) then .next (terminateLaunch s p.task 0x012)
          else if count == 0 then .next s
          else
            match ringPop s core p.task m ring head count with
            | none => .next (loseInRing s core (ringTeam s p.task fun va slot => va == ring && slot == head))
            | some (s, x) => .next (onPin { s with nextId := s.nextId + 1 } core fun p =>
                { p with queue := p.queue ++ [{ x with id := s.nextId, dest := some core }] })

/-! ## Admission of a sled (R316) -/

/-- The registers of an admitted warp. -/
def sledRegs (l : Launch) (t : Team) (x : Sled) : List Row :=
  let start := if x.start then startRegs (stackTop l t 0) else List.replicate 256 zeroRow
  x.rows.foldl (fun rs r => rs.set r.1 r.2) start

/-- Admit(sled) of R316 on a core's slot. -/
def admitted (s : State) (x : Sled) (core slot : Nat) : Warp :=
  let t := teamById s x.team
  let l := (taskAt s x.task).launch
  { core := core, slot := slot, team := t.id, wid := 0
    frags := [{ pc := x.pc.extractLsb' 0 57, exec := x.exec, frag := x.exec }]
    mode := x.mode, flags := x.flags, dirty := x.live
    link := x.links ++ t.spilled, onCore := x.links.length, spill := x.spill
    regs := sledRegs l t x, tokens := List.replicate 8 {}, exited := ~~~x.exec }

/-- SLED_ADMIT (R313, R316): the oldest entry's sled, where a warp slot and registers are free. -/
def execSledAdmit (core : Nat) (s : State) : Out :=
  match pinOf s core with
  | none => .next s
  | some p =>
    let l := (taskAt s p.task).launch
    match p.queue with
    | [] => .next s
    | x :: rest =>
      if (taskAt s p.task).saving || decide (freeRegs s core < l.regGranules) then .next s
      else
        match freeSlots s core with
        | [] => .next s
        | slot :: _ =>
          let w := admitted s x core slot
          let s := onTeam (onPin s core fun p => { p with queue := rest }) x.team fun t =>
            { t with core := core, spilled := [], carry := [], since := s.now }
          .next (acquireActs { s with warps := s.warps ++ [w] } core 4)

/-! ## Replication (R317) -/

/-- The overflow use of a segment: the sum of COUNT over its rings. -/
def overflowUse (s : State) (task : Nat) (m : SegMap) (k : Nat) : Nat :=
  total ((pinnedBy s task).filterMap fun p =>
    if p.k == k then (ringState s p.core (taskAt s task).world (ringAt m p)).map (·.2) else none)

/-- REPLICATION_WATCH (R317): the use has stayed above THRESH for 100 µs; a replica is added, and the epoch written last. (Log 82: DEDUCED, safe.) -/
def execReplicationWatch (task segment : Nat) (s : State) : Out :=
  let k := taskAt s task
  match mapOf s task with
  | none => .next s
  | some m =>
    let e := m.entries.getD segment { base := 0, len := 0, nrep := 0, cores := [] }
    let want := k.launch.travelling && k.state != .free && !k.saving && !k.saved && decide (segment < m.nseg) && decide (0 < m.thresh) &&
      decide (m.thresh < overflowUse s task m segment) && decide (e.nrep < 8)
    match pinCore s k with
    | none => .next s
    | some c =>
      if !want then .next s
      else
        let s := pinReplica s task m segment e.nrep c (m.epoch.toNat + 1)
        let s := mapWrite s task (0x40 + 32 * segment + 0x0C) (toBytes 4 (e.nrep + 1))
        .next (mapWrite s task 4 (toBytes 4 (m.epoch.toNat + 1)))

/-! ## The save of a travelling launch (R319) -/

/-- Whether a resident warp can be packed: it stands whole, and holds no lock. (Log 167: DEDUCED, unsafe.) -/
def packable (w : Warp) : Bool :=
  !w.departing && w.frags.length == 1 && (w.frags.headD {}).splits.isEmpty && w.tokens.all (fun t => !t.held) && !w.halted

/-- Whether a packable warp has nothing in flight. -/
def packedQuiet (s : State) (w : Warp) : Bool :=
  (opsOf s w).isEmpty && countersZero w && w.holds.isEmpty && w.pending.isEmpty && w.trap.isNone &&
    !s.waiters.any fun x => x.core == w.core && x.slot == w.slot && x.granted

/-- A resident warp packed as in R309, with LIVE = DIRTY and its current PC; its lock registrations end (R222). (Log 77: DEDUCED, unsafe.) -/
def packResident (s : State) (w : Warp) (k : Nat) (epoch : Word) : State × Sled :=
  let f := w.frags.headD {}
  let (x, older) := packSled s w f k epoch w.dirty
  ({ liftWarp s w older with
     waiters := s.waiters.filter fun y => !(y.core == w.core && y.slot == w.slot), nextId := s.nextId + 1 }, x)

/-- The sleds in a ring, from HEAD. -/
def ringAll (s : State) (core task : Nat) (m : SegMap) (va : Nat) : Nat → List Sled → State × List Sled
  | 0, acc => (s, acc)
  | n + 1, acc =>
    match ringState s core (taskAt s task).world va with
    | none => (s, acc)
    | some (h, c) =>
      if c == 0 then (s, acc)
      else
        match ringPop s core task m va h c with
        | none => (s, acc)
        | some (s, x) => ringAll s core task m va n (acc ++ [x])

/-- One pinned core saved: its warps packed in slot order, its ring rebuilt, its scratch written, its pin ended. -/
def savePin (s : State) (task : Nat) (m : SegMap) (p : Pin) : State :=
  let ws := (List.range 64).filterMap fun n => s.warps.find? fun w => w.core == p.core && w.slot == n
  let (s, packed) := ws.foldl (fun (acc : State × List Sled) w =>
    let (s, x) := packResident acc.1 w p.k m.epoch
    (s, acc.2 ++ [x])) (writeBack (wcbDrain s fun x => x.core == p.core) fun x => x.core == p.core, [])
  let va := ringAt m p
  let world := (taskAt s task).world
  let (s, old) := ringAll s p.core task m va (ringCap m) []
  let late := s.sleds.filter fun x => x.dest == some p.core
  let s := { s with sleds := s.sleds.filter fun x => x.dest != some p.core }
  let s := (packed ++ p.queue ++ old ++ late).foldl (fun s x => (ringPush s p.core world m va x).getD (loseSled s x 0x011 p.core 0)) s
  let s := flushCore (moveScratch s (taskAt s task) p.core p.k p.j true) p.core
  { s with pins := s.pins.filter fun q => q.core != p.core, ilines := s.ilines.filter fun x => x.core != p.core }

/-- Sleds still at their slices steered in their order, but for those lost. -/
def steerAll (s : State) (task : Nat) : State := (s.sleds.filter fun x => x.task == task && x.dest.isNone && !sledLost s x.id).foldl steerSled s

/-- The warps of a task. -/
def warpsOf (s : State) (task : Nat) : List Warp := s.warps.filter fun w => (teamOf s w).task == task

/-- The save of a travelling launch carried on: warps that can be packed stop issuing; when all of them are quiet, every
pinned core is saved. (Log 167: DEDUCED, unsafe.) -/
def saveTravel (s : State) (task : Nat) : State :=
  let mine := fun (w : Warp) => (teamOf s w).task == task
  let s := { s with warps := s.warps.map fun w => if mine w && packable w then { w with blocked := true } else w }
  if !(warpsOf s task).all fun w => packable w && packedQuiet s w then s
  else
    match mapOf s task with
    | none => s
    | some m =>
      let s := (pinnedBy (steerAll s task) task).foldl (fun s p => savePin s task m p) (steerAll s task)
      onTask { s with teams := s.teams.map fun t => if t.task == task then { t with steered := false } else t } task fun k =>
        { k with saving := false, saved := true, state := .placing }

end Sys2Proof.Machine
end

