-- ==== Sys2Proof/Machine/Security.lean ====
section
/-! DEFINITION. Worlds and the security core: the mailbox commands (R336 to R342, R455), the Plough (R70, R453), ownership
mode (R340), and virtual devices (R346, R435 to R437). -/

namespace Sys2Proof.Machine

open Sys2Proof

/-! ## Machine pages -/

/-- Page `n` of a die of this package. (Log 85: DESIGN CHOICE, unsafe.) -/
def diePage (s : State) (die n : Nat) : Nat := (s.pod.podIdx * 32 + die) * 2 ^ 20 + n

/-- The frames of 64 KiB that a die's HBM backs (R51). -/
def dieFrames : Nat := 976562

/-- The ownership byte of a page changed. -/
def onOwner (s : State) (page : Nat) (g : PageOwner → PageOwner) : State :=
  { s with owners := g (ownerOf s page) :: s.owners.filter fun o => o.page != page }

/-- The clean pages of a die that may be given out (R70, R446). (Log 85: DESIGN CHOICE, unsafe.) -/
def cleanPool (s : State) (die : Nat) : List Nat :=
  (s.owners.filter fun o => o.clean && pageDie o.page == die && !s.retiredPages.contains o.page).map (·.page)

/-- Whether a die serves (R365). -/
def serves (s : State) (die : Nat) : Bool := s.pod.dies.getLsbD die

/-- The page that MAP2 takes: of the named die, or of the lowest die that holds one (Table SEC.3); no page of a die whose Plough is stopped (R453). (Log 84: DESIGN CHOICE, unsafe.) -/
def takeClean (s : State) (die : Nat) : Option Nat :=
  let pick := fun d => if s.ploughDown.contains d then none else argMin id (cleanPool s d)
  if die == 0xFF then (allDies.filter (serves s)).findSome? pick else pick die

/-! ## Translations that end -/

/-- Every TLB entry that satisfies `f` dropped. -/
def dropTlb (s : State) (f : TlbEntry → Bool) : State := { s with tlb := s.tlb.filter fun e => !f e }

/-- The I-cache lines of a world's pages that satisfy `f` dropped (R420); a pinned segment stands in no I-cache (R307). -/
def dropLines (s : State) (world : Nat) (f : Nat → Bool) : State :=
  { s with ilines := s.ilines.filter fun x => x.store || !(x.world == world && f (x.base / 65536)) }

/-- Every translation of the package dropped, in TLBs and walkers, and every I-cache line (R340, R420). -/
def dropAllTlb (s : State) : State := { s with tlb := [], walks := [], ilines := s.ilines.filter (·.store) }

/-- Whether every access of a world that is older than a number has been performed or has returned (R338, R339). -/
def accessesDone (s : State) (world bound : Nat) : Bool :=
  (s.ops.all fun o => decide (bound ≤ o.id) || (taskAt s (teamById s o.team).task).world != world) &&
    s.copies.all fun c => decide (bound ≤ c.id) || !c.accepted || (taskAt s (teamById s c.team).task).world != world

/-! ## The end of a world (R342) -/

/-- The machine pages of a world. -/
def framesOf (s : State) (world : Nat) : List Nat :=
  (((s.stage2.filter fun e => e.1 == world).map fun e => e.2.2) ++
    (s.owners.filter fun o => o.owner == world && !o.clean).map fun o => o.page).eraseDups

/-- The keys of torn-down worlds whose last frame is clean, erased (step 5). -/
def eraseKeys (s : State) : State :=
  let gone := s.dying.filter fun w => !s.scrub.any fun p => (ownerOf s p).owner == w
  { s with
    dying := s.dying.filter fun w => !gone.contains w
    worlds := gone.foldl (fun ws w => ws.set w { ws.getD w {} with keys := none }) s.worlds }

/-- Frames given to the scrub queues of their dies: unsealed, open, and out of every cache. -/
def freeFrames (s : State) (frames : List Nat) : State :=
  let s := frames.foldl (fun s p => onOwner s p fun o => { o with sealed := false }) s
  { s with
    scrub := s.scrub ++ frames.filter fun p => !s.scrub.contains p
    pages := s.pages.filter fun x => !frames.contains x.1
    l1 := s.l1.filter fun x => !frames.contains (x.base / 65536)
    wcb := s.wcb.filter fun x => !frames.contains (x.base / 65536)
    sharers := s.sharers.filter fun x => !frames.contains (x.1 / 65536)
    gateways := s.gateways.filter fun x => !frames.contains (x.2.2 / 65536) }

/-- The steps of R342 up to the Plough's work. (Log 97: DEDUCED, unsafe.) -/
def tearWorld (s : State) (world : Nat) : State :=
  let frames := framesOf s world
  let old := s.worlds.getD world {}
  let s := dropTlb { s with worlds := s.worlds.set world { old with en := false, meas := 0 } } fun e => e.world == world
  let s :=
    { s with
      entries := s.entries.filter fun e => e.world != world
      entryCache := s.entryCache.filter fun e => e.1 != world
      seals := s.seals.filter fun m => m.world != world
      sealTable := s.sealTable.filter fun m => m.world != world
      ilines := s.ilines.filter fun x => x.world != world
      adu := s.adu.filter fun j => j.world != world
      stage2 := s.stage2.filter fun e => e.1 != world
      condemned := s.condemned.filter fun w => w != world
      dying := world :: s.dying.filter fun w => w != world }
  eraseKeys (freeFrames s frames)

/-- Whether a world holds a task or an enabled virtual device. -/
def holdsTask (s : State) (world : Nat) : Bool := s.tasks.any fun k => k.state != .free && k.world == world
def holdsDevice (s : State) (world : Nat) : Bool := s.vdevs.any fun v => v.en && v.world == world

/-! ## The mailbox (R336, R337, R455) -/

/-- The codes of Table REL.7 that a command meets, in ascending order. (Log 87: DEDUCED, unsafe; 90: DEDUCED, unsafe.) -/
def boxCodes (s : State) : List (Nat × Bool) :=
  let b := s.box
  let op := b.op.toNat
  let w := b.world.toNat
  let count := b.count.toNat
  let page := b.addr.toNat / 65536
  let die := b.arg0.toNat % 256
  let all := op == 4 && b.arg2.getLsbD 0
  let ranged := op == 2 || op == 3 || (op == 4 && !all)
  let mapped := s.stage2.filter fun e => e.1 == w && decide (page ≤ e.2.1) && decide (e.2.1 < page + count)
  [ (0x01, op == 0 || decide (5 < op) || b.zero0 != 0 || b.zero1 != 0 || b.arg2 >>> 14 != 0#32),
    (0x02, decide (63 < w)),
    (0x03, op != 1 && !(s.worlds.getD w {}).en),
    (0x04, (ranged && b.addr.toNat % 65536 != 0) ||
      (op == 1 && (b.arg0.toNat % 8192 != 0 || b.arg1.toNat % 32 != 0 || b.arg4.toNat % 64 != 0))),
    (0x05, (ranged && (count == 0 || decide (1048576 < count))) || (op == 1 && decide (4096 < b.arg2.toNat % 8192))),
    (0x06, (op == 2 && !mapped.isEmpty) || (op == 3 && mapped.length != count)),
    (0x07, op == 3 && mapped.any fun e => pageState s e.2.2 != .opened),
    (0x08, op == 2 && (if die == 0xFF then s.pod.dies == 0 else decide (31 < die) || !serves s die)),
    (0x09, op == 5 && (holdsTask s w || holdsDevice s w)),
    (0x0A, !s.secUp) ]

/-- The lowest code that applies; 0 where none does. -/
def boxCode (s : State) : Nat := ((boxCodes s).find? fun c => c.2).elim 0 (·.1)

/-- BUSY falls with a code. -/
def boxDone (s : State) (code : Nat) : State :=
  { s with box := { s.box with busy := false, code := BitVec.ofNat 8 code, started := false, left := 0, bound := 0, frames := [] } }

/-- A failure of the security core (R455, R458): a command that has taken no effect yet ends with 0x0A, and one that has begun keeps BUSY until every
effect is complete (R337). (Log 158: DEDUCED, unsafe.) -/
def boxCut (s : State) : State := if s.box.busy && !s.box.started && s.box.own.isNone then boxDone s 0x0A else s

/-- A write of 1 to GO: a command whose OP is reserved ends here, another runs. (Log 89: DESIGN CHOICE, unsafe.) -/
def boxGo (s : State) : State :=
  if s.box.busy then s
  else if s.box.op == 0 || decide (5 < s.box.op.toNat) then
    boxDone s (if s.deadlinePast && !serves s 0 then 0x0A else 0x01)
  else { s with box := { s.box with busy := true, started := false } }

/-- A running command carried on: its checks first (R455), then `start` once, then `carry` until BUSY falls.  The security
core serves from die 0 (R365, R454). (Log 87: DEDUCED, unsafe.) -/
def runCommand (op : Nat) (start carry : State → State) (s : State) : State :=
  if !s.box.busy || s.box.op.toNat != op || s.box.own.isSome then s
  else if s.box.started then (if s.secUp then carry s else s)
  else if !serves s 0 then (if s.deadlinePast then boxDone s 0x0A else s)
  else if boxCode s != 0 then boxDone s (boxCode s)
  else carry (start { s with box := { s.box with started := true, left := s.box.count.toNat, bound := 0, frames := [] } })

/-- The world that the mailbox names. -/
def boxWorld (s : State) : Nat := s.box.world.toNat

/-- The command ends once the accesses older than its invalidation are over. -/
def boxQuiet (s : State) : State := if accessesDone s (boxWorld s) s.box.bound then boxDone s 0 else s

/-- The older accesses are those with a number given so far. -/
def boxMark (s : State) : State := { s with box := { s.box with bound := s.nextId } }

/-- WORLD_SET's writes: a new world draws keys and starts at generation 0; a world that exists loses its translations. -/
def setWorld (s : State) : State :=
  let b := s.box
  let w := boxWorld s
  let old := s.worlds.getD w {}
  let new : World := { old with
    en := true, xhalf := b.arg2.getLsbD 13, ngrant := b.arg2.toNat % 8192, root := b.arg0, grants := b.arg1, adapt := b.arg3
    aring := b.arg4, ringStopped := false }
  if old.en then boxMark (dropLines (dropTlb { s with worlds := s.worlds.set w new } fun e => e.world == w) w fun _ => true)
  else { s with worlds := s.worlds.set w { new with gen := 0, meas := 0, keys := some s.draws, nextMod := 1 }, draws := s.draws + 1 }

/-- WORLD_SET (R337, Table SEC.3). (Log 89: DESIGN CHOICE, unsafe; 90: DEDUCED, unsafe.) -/
def execWorldSet (s : State) : Out := .next (runCommand 1 setWorld boxQuiet s)

/-- Pages mapped one by one while the pool has them (R70): OWNER := WORLD and CLEAN := 0. -/
def mapPages (w : Nat) : Nat → State → State
  | 0, s => boxDone s 0
  | n + 1, s =>
    match takeClean s (s.box.arg0.toNat % 256) with
    | none => { s with box := { s.box with left := n + 1 } }
    | some p =>
      let s := onOwner s p fun o => { o with owner := w, clean := false }
      mapPages w n { s with stage2 := s.stage2 ++ [(w, s.box.addr.toNat / 65536 + (s.box.count.toNat - (n + 1)), p)] }

/-- MAP2 (R337): it waits while the pool is empty. (Log 87: DEDUCED, unsafe.) -/
def execMap2 (s : State) : Out := .next (runCommand 2 id (fun s => mapPages (boxWorld s) s.box.left s) s)

/-- The I-cache lines read from some machine pages dropped (R420). -/
def dropPages (s : State) (pages : List Nat) : State := { s with ilines := s.ilines.filter fun x => x.store || !pages.contains x.frame }

/-- The pages of UNMAP2's range removed, with the translations that yield them (R338) and the I-cache lines read from them (R420). -/
def unmapPages (s : State) : State :=
  let w := boxWorld s
  let page := s.box.addr.toNat / 65536
  let hit := fun (e : Nat × Nat × Nat) => e.1 == w && decide (page ≤ e.2.1) && decide (e.2.1 < page + s.box.count.toNat)
  let frames := (s.stage2.filter hit).map fun e => e.2.2
  boxMark (dropPages (dropTlb { s with stage2 := s.stage2.filter (fun e => !hit e), box := { s.box with frames := frames } }
    fun e => e.world == w && frames.contains (e.frame / 65536)) frames)

/-- UNMAP2 (R338): the frames join the scrub queue once the accesses that used them are over. -/
def execUnmap2 (s : State) : Out :=
  .next (runCommand 3 unmapPages
    (fun s => if accessesDone s (boxWorld s) s.box.bound then boxDone (freeFrames s s.box.frames) 0 else s) s)

/-- INVAL's range, or the whole world (R339). -/
def dropRange (s : State) : State :=
  let w := boxWorld s
  let page := s.box.addr.toNat / 65536
  let hit := fun p => s.box.arg2.getLsbD 0 || (decide (page ≤ p) && decide (p < page + s.box.count.toNat))
  boxMark (dropLines (dropTlb s fun e => e.world == w && hit e.page) w hit)

/-- INVAL (R339). (Log 88: DEDUCED, unsafe.) -/
def execInval (s : State) : Out := .next (runCommand 4 dropRange boxQuiet s)

/-- A condemned world that meets the conditions of R342 (R437): it holds no task and no enabled device. (Log 91: DEDUCED, unsafe; 158: DEDUCED, unsafe.) -/
def condemnedWorld (s : State) : Option Nat := s.condemned.find? fun w => !holdsTask s w && !holdsDevice s w

/-- The teardown that the security core runs on its own ends once the world's keys are erased: BUSY falls, and CODE stays. -/
def endOwn (s : State) (w : Nat) : State :=
  if s.dying.contains w then s else { s with box := { s.box with busy := false, own := none } }

/-- TEARDOWN (R342): the security core's own one of a condemned world (R437), one command at a time (R336), else the command's world; BUSY falls
when the keys are erased. (Log 158: DEDUCED, unsafe.) -/
def execTeardown (s : State) : Out :=
  match s.box.own, if s.box.busy || !s.secUp then none else condemnedWorld s with
  | some w, _ => .next (if s.secUp then endOwn s w else s)
  | none, some w =>
    let s := tearWorld s w
    .next (endOwn { s with box := { s.box with busy := true, own := some w } } w)
  | none, none =>
    .next (runCommand 5 (fun s => tearWorld s (boxWorld s)) (fun s => if s.dying.contains (boxWorld s) then s else boxDone s 0) s)

/-! ## The Plough (R70, R453) -/

/-- A page scrubbed: it reads zero, belongs to the pool, and is in no cache; the Plough's write wakes the waiters on its words (R220). -/
def scrubPage (s : State) (p : Nat) : State :=
  let s := onOwner s p fun o => { o with clean := true, sealed := false }
  { s with
    mem := s.mem.clear (p * 65536) 65536
    sharers := s.sharers.filter fun x => x.1 / 65536 != p
    gateways := s.gateways.filter fun x => x.2.2 / 65536 != p
    waiters := s.waiters.map fun x => if x.word / 65536 == p then { x with woken := true } else x }

/-- PLOUGH_PAGE_CLEAN (R70, R453): the oldest page of a die's queue, else the die's next page that nobody has named; a retired
page counts as scrubbed and stays out of the pool. (Log 85: DESIGN CHOICE, unsafe.) -/
def execPloughPageClean (die : Nat) (s : State) : Out :=
  if s.ploughDown.contains die || decide (32 ≤ die) then .next s
  else
    match s.scrub.find? fun p => pageDie p == die with
    | some p =>
      let s := { s with scrub := s.scrub.filter fun q => q != p }
      .next (eraseKeys (if s.retiredPages.contains p then onOwner s p fun o => { o with sealed := false } else scrubPage s p))
    | none =>
      let n := look s.fresh die 0
      let p := diePage s die n
      if dieFrames ≤ n then .next s
      else
        let named := s.owners.any fun o => o.page == p
        let s := { s with fresh := put s.fresh die (n + 1) }
        .next (if named || s.retiredPages.contains p then s else scrubPage s p)

/-- PLOUGH_TIMEOUT (R453): the die's Plough has not answered for 100 ms. -/
def execPloughTimeout (die : Nat) (s : State) : Out :=
  if s.ploughDown.contains die || decide (32 ≤ die) then .next s
  else .next (countError { s with ploughDown := die :: s.ploughDown } { structClass := 14, unit := die, sub := 0, row := 0 } false 0)

/-- PLOUGH_RESTART (R453): the attempt that succeeds. (Log 92: DEDUCED, safe.) -/
def execPloughRestart (die : Nat) (s : State) : Out := .next { s with ploughDown := s.ploughDown.filter fun d => d != die }

/-! ## Ownership mode (R340) -/

/-- The package enters ownership mode. (Log 86: DEDUCED, unsafe.) -/
def enterOwnership (s : State) : State := dropAllTlb { s with ownership := true }

/-- TEST_START (R340): the management controller starts a test. -/
def execTestStart (s : State) : Out := .next (enterOwnership s)

/-- The second stage as the ownership table has it: the pages mapped before whose owner it confirms, and the owned pages that nothing maps at their own
numbers, as ownership mode had them. (Log 86: DEDUCED, unsafe.) -/
def builtStage (s : State) : List (Nat × Nat × Nat) :=
  let kept := s.stage2.filter fun e => (ownerOf s e.2.2).owner == e.1 && !(ownerOf s e.2.2).clean
  let loose := s.owners.filter fun o => o == ownerOf s o.page && !o.clean && (s.worlds.getD o.owner {}).en && !s.scrub.contains o.page && !s.box.frames.contains o.page &&
    !kept.any fun e => e.2.2 == o.page || (e.1 == o.owner && e.2.1 == o.page)
  kept ++ loose.map fun o => (o.owner, o.page, o.page)

/-- The pages that the seal table lists stand sealed (R100), and no other. (Log 86: DEDUCED, unsafe.) -/
def sealedPages (s : State) : List (Nat × PageState) :=
  (s.pages.filter fun p => p.2 != .sealed && !s.sealTable.any fun m => m.page == p.1) ++ s.sealTable.map fun m => (m.page, .sealed)

/-- SECOND_STAGE_BUILT (R340): the second stage as the ownership table and the seal table have it. (Log 86: DEDUCED, unsafe.) -/
def execSecondStageBuilt (s : State) : Out :=
  if !s.ownership || !s.secUp then .next s
  else .next (dropAllTlb { s with ownership := false, stage2 := builtStage s, pages := sealedPages s })

/-! ## Base generations (R357) -/

/-- GENINC: the base generation of world w goes up by 1. (Log 93: DEDUCED, unsafe.) -/
def execGeninc (value : BitVec 32) (s : State) : Out :=
  let w := value.toNat % 64
  let old := s.worlds.getD w {}
  .next { s with worlds := s.worlds.set w { old with gen := old.gen + 1 } }

/-! ## Virtual devices (Table SCHED.6, R346, R435, R436) -/

/-- A virtual device changed. -/
def onVdev (s : State) (v : Nat) (g : Vdev → Vdev) : State := { s with vdevs := s.vdevs.set v (g (s.vdevs.getD v {})) }

/-- The queues of the devices that satisfy `f` halt with STATUS 0x05; one that holds a packet halts after it (R436), or at
once (R437). -/
def haltQueues (s : State) (f : Nat → Bool) (atOnce : Bool) : State :=
  { s with queues := s.queues.map fun q =>
      if q.en && q.status == 0 && f q.vdev && (atOnce || !(q.waiting == .held || q.waiting == .event)) then
        { q with status := 0x05, waiting := .none }
      else q }

/-- EN = 0: the device accepts no work, and takes the world that its register names. -/
def disable (d : Vdev) : Vdev := { d with en := false, world := d.worldReg }

/-- VDEV_DISABLE (R436). -/
def execVdevDisable (vdev : Nat) (s : State) : Out :=
  if 64 ≤ vdev || !(s.vdevs.getD vdev {}).en then .next s
  else .next (haltQueues (onVdev s vdev disable) (fun v => v == vdev) false)

/-- The word at 8·v + 4: NCORE and CORE0 (R435). -/
def writeRange (vdev : Nat) (value : BitVec 32) (s : State) : State :=
  let n := bitsOf value.toNat 21 11
  if n == 0 then s else onVdev s vdev fun d => { d with ncore := n, core0 := bitsOf value.toNat 0 10 }

/-- QUANTUM as it reads back (R297). -/
def quantumOf (q : Nat) : Nat := if q < 140 then 140 else q

/-- The word at 8·v: EN, WORLD, QUANTUM and WEIGHT (R346, R435). (Log 94: DEDUCED, unsafe.) -/
def writeDevice (vdev : Nat) (value : BitVec 32) (s : State) : State :=
  let v := value.toNat
  let old := s.vdevs.getD vdev {}
  let en := bitsOf v 31 1 == 1
  let w := bitsOf v 24 6
  let q := bitsOf v 8 16
  if q == 0 || (en && !old.en && !(s.worlds.getD w {}).en) then s
  else
    let s := settleService s vdev
    let old := s.vdevs.getD vdev {}
    let set : Vdev := { old with worldReg := w, quantum := quantumOf q, weight := bitsOf v 0 8 }
    if !en then haltQueues (onVdev s vdev fun _ => disable set) (fun v => v == vdev && old.en) false
    else if old.en then onVdev s vdev fun _ => set
    else onVdev s vdev fun _ => { set with en := true, world := w, service := [] }

/-- VDEV_REG_WRITE (R435): a physical-function write to a virtual-device register. -/
def execVdevRegWrite (vdev : Nat) (high : Bool) (value : BitVec 32) (s : State) : Out :=
  if 64 ≤ vdev then .next s else .next (if high then writeRange vdev value s else writeDevice vdev value s)

/-! ## VF Enable (R437) -/

/-- The lock words that the warps of suspended teams hold released, as a termination releases them (R372, R422). (Log 91: DEDUCED, unsafe.) -/
def freeSavedLocks (s : State) (slot : Nat) : State :=
  let held := (s.suspended.filter fun x => x.task == slot).flatMap fun x => x.teams.flatMap fun t => t.warps.flatMap fun w =>
    w.tokens.filter fun k => k.held
  held.foldl (fun s k => match jobSpot s (taskAt s slot).world k.addr.toNat .write with
    | .ok a => handOver s a
    | .error _ => s) s

/-- A task ended at once: one that holds no team leaves the table; the warps of another are terminated. (Log 80: DEDUCED, unsafe; 91: DEDUCED, unsafe.) -/
def killTask (s : State) (slot code : Nat) : State :=
  let k := taskAt s slot
  match k.body, k.state with
  | .job _, _ => freeTask s slot
  | .launch _, .held => freeTask s slot
  | .launch _, .ready => freeTask s slot
  | .launch _, _ =>
    let s := freeSavedLocks (terminateLaunch s slot code) slot
    let s := (s.teams.filter fun t => t.task == slot).foldl (fun s t =>
      removeTeam (if t.core == nowhere then s else leaveCore (addService s t) t) t.id) s
    freeTask { s with
      suspended := s.suspended.filter fun x => x.task != slot
      messages := s.messages.filter fun m => m.task != slot } slot

/-- VF_ENABLE_CLEAR (R437). (Log 91: DEDUCED, unsafe.) -/
def execVfEnableClear (s : State) : Out :=
  let virtual := fun v => v != 0
  let lost := (List.range 64).filter fun w =>
    ((List.range 64).any fun v => virtual v && (s.vdevs.getD v {}).en && (s.vdevs.getD v {}).world == w) &&
      !((s.vdevs.getD 0 {}).en && (s.vdevs.getD 0 {}).world == w)
  let s := (List.range 64).foldl (fun s v => if virtual v then onVdev s v disable else s) s
  let s := haltQueues s virtual true
  let s := (List.range 512).foldl (fun s i =>
    if (taskAt s i).state != .free && virtual (taskAt s i).vdev then killTask s i 0x001 else s) s
  .next { s with condemned := s.condemned ++ lost.filter fun w => (s.worlds.getD w {}).en && !s.condemned.contains w }

end Sys2Proof.Machine
end

