-- ==== Sys2Proof/Machine/Host.lean ====
section
/-! DEFINITION. The register space of Table HOST.1 as functions read and write it (R346, R350, R351), the management session lock
(R361, R362, R459), and host accesses to device memory (R281). -/

namespace Sys2Proof.Machine

open Sys2Proof

/-! ## The session lock -/

/-- RESULT of a port. -/
def setResult (s : State) (port code : Nat) : State :=
  { s with session := { s.session with result := s.session.result.set port code } }

/-- Whether a port holds the session. -/
def holdsSession (s : State) (port : Nat) : Bool := s.session.held && s.session.port == port

/-- The session released, as by its holder (R459). (Log 125: DEDUCED, unsafe.) -/
def releaseSession (s : State) : State :=
  if !s.session.held then s
  else
    let s := setResult s s.session.port 0
    { s with session := { s.session with held := false, port := 0, tag := 0 } }

/-- Whether a request displaces the one that took the lock: both came in the same clock, and the port that took it has the higher number (R362). (Log 186: DEDUCED, unsafe.) -/
def displaces (s : State) (port : Nat) : Bool := s.session.held && s.session.takenAt == s.clk && decide (port < s.session.port)

/-- The session held by a port under a tag, from this clock unless it renews its hold. -/
def takeSession (s : State) (port : Nat) (tag : BitVec 16) : State :=
  { s with session := { s.session with held := true, port := port, tag := tag, takenAt := if holdsSession s port then s.session.takenAt else s.clk } }

/-- A write of the session lock by a port: of two requests in one clock, the one of the higher port number loses, in whichever order they come. (Log 186: DEDUCED, unsafe.) -/
def writeLock (s : State) (port : Nat) (value : Word) : State :=
  if value.getLsbD 31 then
    if !s.session.held || s.session.port == port then takeSession (setResult s port 0) port (value.extractLsb' 0 16)
    else if displaces s port then takeSession (setResult (setResult s s.session.port 1) port 0) port (value.extractLsb' 0 16)
    else setResult s port 1
  else if holdsSession s port then releaseSession s
  else setResult s port 1

/-- SESSION_LOCK_WRITE (R362, R459). -/
def execSessionLockWrite (port : Nat) (value : BitVec 32) (s : State) : Out :=
  .next (if 4 ≤ port then s else writeLock s port value)

/-- SESSION_TIMEOUT (R459): 10 s without a command from the holder. -/
def execSessionTimeout (s : State) : Out := .next (releaseSession s)

/-! ## Reads (Table HOST.1) -/

/-- The upper or lower half of a doubleword. -/
def wordHalf (d : DWord) (high : Bool) : Word := if high then hiWord d else loWord d

/-- A queue's word (Table SCHED.1). -/
def Queue.word (q : Queue) (off : Nat) : Word :=
  let w := fun n => BitVec.ofNat 32 n
  if off == 0x00 || off == 0x04 then wordHalf q.qbase (off == 0x04)
  else if off == 0x08 then w (bit q.en * 2 ^ 31 + q.vdev % 64 * 256 + q.log2n % 32)
  else if off == 0x10 then w q.head
  else if off == 0x14 then w q.lap
  else if off == 0x18 then w (q.status % 256 * 2 ^ 24)
  else if off == 0x1C then w (q.ivec % 2048)
  else 0

/-- A virtual device's word (Table SCHED.6). -/
def Vdev.word (d : Vdev) (high : Bool) : Word :=
  if high then BitVec.ofNat 32 (d.ncore % 2048 * 2 ^ 21 + d.core0 % 1024)
  else BitVec.ofNat 32 (bit d.en * 2 ^ 31 + d.worldReg % 64 * 2 ^ 24 + d.quantum % 65536 * 256 + d.weight % 256)

/-- A word of the debug block (R360). -/
def debugWord (s : State) (off : Nat) : Word :=
  let e := s.stopLog.getD ((off - 0x40) / 16) {}
  if off == 0x00 || off == 0x04 then wordHalf s.dbgen (off == 0x04)
  else if off < 0x40 || 0x240 ≤ off || !e.valid then 0
  else if off % 16 == 4 then BitVec.ofNat 32 (2 ^ 31 + e.core % 1024 * 2 ^ 16 + e.slot % 64 * 256)
  else if off % 16 == 8 then BitVec.ofNat 32 e.pc.toNat
  else if off % 16 == 12 then BitVec.ofNat 32 (e.pc.toNat / 2 ^ 32)
  else 0

/-- A word of the mailbox (Table SEC.2); what a write put into its zero fields is read back. (Log 165: DESIGN CHOICE, unsafe.) -/
def Mailbox.word (b : Mailbox) (off : Nat) : Word :=
  let high := off % 8 == 4
  if off == 0x00 then b.zero0 ++ b.world ++ b.op
  else if off == 0x04 then b.count
  else if off < 0x10 then wordHalf b.addr high
  else if off < 0x18 then wordHalf b.arg0 high
  else if off < 0x20 then wordHalf b.arg1 high
  else if off == 0x20 then b.arg2
  else if off == 0x24 then b.zero1
  else if off < 0x30 then wordHalf b.arg3 high
  else if off < 0x38 then wordHalf b.arg4 high
  else if off == 0x3C then BitVec.ofNat 32 (bit b.busy * 2 ^ 31 + b.code.toNat)
  else 0

/-- An entry of the pending list (Table REL.5). -/
def Retire.dword (r : Retire) : DWord :=
  BitVec.ofNat 64 (r.action % 16 * 2 ^ 60 + r.sclass % 16 * 2 ^ 56 + r.unit % 1024 * 2 ^ 46 + r.lane % 16 * 2 ^ 42 +
    bit r.applied * 2 ^ 41 + r.detail % 2 ^ 25)

/-- A word of the management block as a port sees it (Table HOST.4, Table FLT.4, Table REL.5). -/
def managementWord (s : State) (port off : Nat) : Word :=
  let l := s.log
  let w := fun n => BitVec.ofNat 32 n
  if off == 0x00 then w (bit s.session.held * 2 ^ 31 + s.session.port % 4 * 2 ^ 24 + s.session.tag.toNat)
  else if off == 0x04 then w (s.session.result.getD port 0 % 256)
  else if off == 0x10 || off == 0x14 then wordHalf l.base (off == 0x14)
  else if off == 0x18 then w (bit l.en * 2 ^ 31 + l.log2 % 32)
  else if off == 0x1C then l.head
  else if off == 0x20 then l.tail
  else if off == 0x24 then l.lost
  else if off == 0x40 then w (s.retire.length % 8192)
  else if off == 0x44 then w s.pendSel.toNat
  else if off == 0x48 || off == 0x4C then ((s.retire[s.pendSel.toNat]?).map fun r => wordHalf r.dword (off == 0x4C)).getD 0
  else 0

/-- A word of the pod block (Table HOST.2). -/
def podWord (s : State) (off : Nat) : Word :=
  let p := s.pod
  let w := fun n => BitVec.ofNat 32 n
  if off == 0x00 then w (bit p.valid * 2 ^ 31 + p.bridgeIdx % 64 * 256 + bit p.bridge * 128 + p.podIdx % 64)
  else if off == 0x04 then w p.linkUp.toNat
  else if off == 0x0C then p.dies
  else if off == 0x10 then w (bit p.full)
  else if decide (0x40 ≤ off) && decide (off < 0x140) then w (p.route.getD ((off - 0x40) / 4) 0).toNat
  else 0

/-- A word of the physical function's space below the windows, as a management port or the function sees it. -/
def spaceWord (s : State) (port offset : Nat) : Word :=
  let o := offset / 4 * 4
  if o < 0x2000 then (s.queues.getD (o / 32) {}).word (o % 32)
  else if o < 0x2200 then (s.vdevs.getD ((o - 0x2000) / 8) {}).word (o % 8 == 4)
  else if o < 0x2600 then debugWord s (o - 0x2200)
  else if decide (0x2800 ≤ o) && decide (o < 0x2900) then BitVec.ofNat 32 ((s.vdevs.getD ((o - 0x2800) / 4) {}).defTrap % 65536)
  else if decide (0x3000 ≤ o) && decide (o < 0x3040) then s.box.word (o - 0x3000)
  else if decide (0x3400 ≤ o) && decide (o < 0x3500) then managementWord s port (o - 0x3400)
  else if decide (0x4000 ≤ o) && decide (o < 0x4200) then podWord s (o - 0x4000)
  else if decide (0x8000 ≤ o) && decide (o < 0xA000) then blockWord s (o - 0x8000)
  else 0

/-- A word of a world's descriptor, by its place in Table SEC.1. -/
def World.word (d : World) (off : Nat) : Word :=
  let high := off % 8 == 4
  if off == 0x00 then BitVec.ofNat 32 (bit d.en * 2 ^ 31 + bit d.xhalf * 2 ^ 30 + d.ngrant % 8192)
  else if off == 0x04 then d.gen
  else if off < 0x10 then wordHalf d.root high
  else if off < 0x18 then wordHalf d.grants high
  else if off < 0x20 then wordHalf d.adapt high
  else if off < 0x28 then wordHalf d.aring high
  else 0

/-- A word of the descriptor of the world that the mailbox names, as the physical function reads it there (R335). (Log 159: DESIGN CHOICE, unsafe.) -/
def descriptorWord (s : State) (off : Nat) : Word := (s.worlds.getD s.box.world.toNat {}).word off

/-- A word of a virtual function's space (R346, R350): KICK, HEAD, LAP and STATUS of its own device's queues, and 0 elsewhere. (Log 134: DEDUCED, unsafe.) -/
def virtualWord (s : State) (fn offset : Nat) : Word :=
  let o := offset / 4 * 4
  let q := s.queues.getD (o / 32) {}
  if o < 0x2000 && q.vdev == fn && [0x0C, 0x10, 0x14, 0x18].contains (o % 32) then q.word (o % 32) else 0

/-- A word of a function's space below the windows. (Log 134: DEDUCED, unsafe.) -/
def functionWord (s : State) (fn offset : Nat) : Word := if fn == 0 then spaceWord s 0 offset else virtualWord s fn offset

/-! ## Writes -/

/-- The state that a meaning ends in. -/
def after' (o : Out) (s : State) : State :=
  match o with
  | .next t => t
  | _ => s

/-- A doubleword with one of its halves replaced. -/
def withHalf (d : DWord) (high : Bool) (v : Word) : DWord := if high then v ++ loWord d else hiWord d ++ v

/-- A write to a queue's word; QBASE and IVEC are taken while EN = 0. -/
def writeQueue (s : State) (q off : Nat) (v : Word) : State :=
  if off == 0x08 then after' (execQueueEnWrite q v s) s
  else if off == 0x0C then after' (execKick q v s) s
  else if (s.queues.getD q {}).en then s
  else if off == 0x00 then onQueue s q fun x => { x with qbase := withHalf x.qbase false (v &&& 0xFFFFF000#32) }
  else if off == 0x04 then onQueue s q fun x => { x with qbase := withHalf x.qbase true v }
  else if off == 0x1C then onQueue s q fun x => { x with ivec := v.toNat % 2048 }
  else s

/-- A write to a word of the mailbox; all are discarded while BUSY = 1 (R336). -/
def writeBox (s : State) (off : Nat) (v : Word) : State :=
  let b := s.box
  let high := off % 8 == 4
  if b.busy then s
  else if off == 0x00 then
    { s with box := { b with op := v.extractLsb' 0 8, world := v.extractLsb' 8 8, zero0 := v.extractLsb' 16 16 } }
  else if off == 0x04 then { s with box := { b with count := v } }
  else if off < 0x10 then { s with box := { b with addr := withHalf b.addr high v } }
  else if off < 0x18 then { s with box := { b with arg0 := withHalf b.arg0 high v } }
  else if off < 0x20 then { s with box := { b with arg1 := withHalf b.arg1 high v } }
  else if off == 0x20 then { s with box := { b with arg2 := v } }
  else if off == 0x24 then { s with box := { b with zero1 := v } }
  else if off < 0x30 then { s with box := { b with arg3 := withHalf b.arg3 high v } }
  else if off < 0x38 then { s with box := { b with arg4 := withHalf b.arg4 high v } }
  else if off == 0x38 && v == 1#32 then boxGo s
  else s

/-- A write to a word of the management block by the physical function. -/
def writeManagement (s : State) (off : Nat) (v : Word) : State :=
  let l := s.log
  if off == 0x00 then writeLock s 0 v
  else if off == 0x10 && !l.en then { s with log := { l with base := withHalf l.base false (v &&& 0xFFFFF000#32) } }
  else if off == 0x14 && !l.en then { s with log := { l with base := withHalf l.base true v } }
  else if off == 0x18 then after' (execFaultLogEnable v s) s
  else if off == 0x20 then { s with log := { l with tail := v } }
  else if off == 0x24 then { s with log := { l with lost := l.lost &&& ~~~v } }
  else if off == 0x44 then { s with pendSel := v.extractLsb' 0 12 }
  else s

/-- A write to a word of the physical function's space below the windows, under its access code (R4). -/
def writeSpace (s : State) (offset : Nat) (v : Word) : State :=
  let o := offset / 4 * 4
  if o < 0x2000 then writeQueue s (o / 32) (o % 32) v
  else if o < 0x2200 then after' (execVdevRegWrite ((o - 0x2000) / 8) (o % 8 == 4) v s) s
  else if o == 0x2200 || o == 0x2204 then after' (execDbgenWrite (withHalf s.dbgen (o == 0x2204) v) s) s
  else if o == 0x2208 then after' (execResume v s) s
  else if decide (0x2800 ≤ o) && decide (o < 0x2900) then onVdev s ((o - 0x2800) / 4) fun d => { d with defTrap := v.toNat % 65536 }
  else if decide (0x3000 ≤ o) && decide (o < 0x3040) then writeBox s (o - 0x3000) v
  else if decide (0x3400 ≤ o) && decide (o < 0x3500) then writeManagement s (o - 0x3400) v
  else if o == 0x4008 then after' (execGeninc v s) s
  else if decide (0x5000 ≤ o) && decide (o < 0x5200) then after' (execAduKick ((o - 0x5000) / 8) s) s
  else s

/-- A virtual function's writes: KICK of its own device's queues, and the kick word of its device's world (R346, R350). (Log 134: DEDUCED, unsafe.) -/
def writeVirtual (s : State) (fn offset : Nat) (v : Word) : State :=
  let o := offset / 4 * 4
  if o < 0x2000 then
    if o % 32 == 0x0C && (s.queues.getD (o / 32) {}).vdev == fn then after' (execKick (o / 32) v s) s else s
  else if o == 0x2000 then after' (execAduKick (s.vdevs.getD fn {}).world s) s
  else s

/-! ## Windows onto the group (R351) -/

/-- Whether the group has a member of a pod index: this package, or one that the route table leads to. -/
def isMember (s : State) (package : Nat) : Bool :=
  s.pod.valid && decide (package < 64) && (package == s.pod.podIdx || s.pod.route.getD package 0 != 0)

/-- An access through a window: at the bridge to this package's own space, forwarded, or to no member; at another member, one that the bridge forwarded
to it. (Log 131: DESIGN CHOICE, safe.) -/
def windowAccess (s : State) (member offset : Nat) (write : Bool) (v : Word) : State :=
  let package := s.pod.bridgeIdx + member
  let answer := fun (w : Word) => { s with out := s.out ++ [.data 0 (toBytes 4 w.toNat)] }
  let local' := if write then writeSpace s offset v else answer (spaceWord s 0 offset)
  if decide (8 ≤ member) || decide (0x10000 ≤ offset) then s
  else if !s.pod.bridge then (if s.pod.valid && package == s.pod.podIdx then local' else s)
  else if !isMember s package then (if write then s else answer 0)
  else if package == s.pod.podIdx then local'
  else { s with out := s.out ++ [.forward member offset write v] }

/-- HOST_WINDOW_ACCESS (R351). (Log 134: DEDUCED, unsafe.) -/
def execHostWindowAccess (member offset : Nat) (write : Bool) (value : BitVec 32) (s : State) : Out :=
  .next (windowAccess s member offset write value)

/-- REGISTER_WRITE (R4, R346, R350): a 32-bit write of a function at an offset of its BAR0; the port of a package other than the bridge stays in reset
(R351). -/
def execRegisterWrite (fn offset : Nat) (value : BitVec 32) (s : State) : Out :=
  .next (if !s.pod.bridge then s
    else if fn != 0 then writeVirtual s fn offset value
    else if offset < 0x10000 then writeSpace s offset value
    else if offset < 0x90000 then windowAccess s ((offset - 0x10000) / 0x10000) (offset % 0x10000) true value
    else s)

/-! ## Device memory as the host reaches it (R281) -/

/-- The world that a function may reach, if it is the one named: its device's, or any for the physical function. (Log 132: DEDUCED, unsafe.) -/
def mayReach (s : State) (fn world : Nat) : Bool :=
  (s.worlds.getD world {}).en && (fn == 0 || (s.vdevs.getD fn {}).world == world)

/-- The machine address of each byte of a range; none where one cannot be reached. -/
def bytePlaces (s : State) (world va n : Nat) (need : Need) : Option (List Nat) :=
  (List.range n).foldl (fun acc i => acc.bind fun ps => (frontPage s world (va + i) need).map fun a => ps ++ [a]) (some [])

/-- Bytes as a host read returns them; a poisoned word as its lanes read (R373). (Log 133: DEDUCED, unsafe.) -/
def hostBytes (s : State) (ps : List Nat) : List Byte :=
  ps.map fun a => if (homeMem s a).bad a then (toBytes 4 0x7FFFFFFF).getD (a % 4) 0 else (homeMem s a).get a

/-- Bytes written by the host at their homes, in pieces that no page boundary cuts, lowest address first. -/
def hostStore (s : State) (a : HostAccess) (ps : List Nat) (bs : List Byte) : State :=
  noteRing ((pieces a.addr bs.length).foldl (fun s x =>
    let i := x.1 - a.addr
    homeWrite s (ps.getD i 0) ((bs.drop i).take x.2) false) s) (a.fn == 0) a.world a.addr bs.length

/-- The new value of an AtomicOp. (Log 192: PRESUMED, unsafe.) -/
def pcieResult (op : PcieAtomic) (old operand compare : Nat) : Nat :=
  match op with
  | .fetchAdd => old + operand
  | .swap => operand
  | .compareSwap => if old == compare then operand else old

/-- The bytes that an access covers. -/
def hostSpan (op : HostOp) : Nat :=
  match op with
  | .read n => n
  | .write bs => bs.length
  | .atomic _ wide _ _ => if wide then 8 else 4

/-- What an access needs of its page (R281). -/
def hostNeed (op : HostOp) : Need :=
  match op with
  | .read _ => .read
  | _ => .write

/-- Whether an access waits: one of its homes is in another package, toward which no link is up (R365). -/
def hostHeld (s : State) (ps : List Nat) : Bool := ps.any fun a => podRemote s a && (linksToward s (bitsOf a 41 6)).isEmpty

/-- An access performed at its home, of bytes that can be reached. (Log 133: DEDUCED, unsafe; 192: PRESUMED, unsafe.) -/
def hostPerform (s : State) (a : HostAccess) (ps : List Nat) : State :=
  match a.op with
  | .read _ => { s with out := s.out ++ [.data a.fn (hostBytes s ps)] }
  | .write bs => hostStore s a ps bs
  | .atomic op wide operand compare =>
    let n := if wide then 8 else 4
    if a.addr % n != 0 then { s with out := s.out ++ [.failed a.fn] }
    else
      let old := hostBytes s ps
      let m := 2 ^ (8 * n)
      let new := pcieResult op (ofBytes old) (operand.toNat % m) (compare.toNat % m)
      let s := if (homeMem s (ps.headD 0)).readBad (ps.headD 0) n then s else hostStore s a ps (toBytes n (new % m))
      { s with out := s.out ++ [.data a.fn old] }

/-- HOST_MEMORY_ACCESS (R281, R351, R356): an access of the host over the bridge's port, performed at its home; the order of the accesses is that of their
events, and one that waits for a link is performed by no event until that link is up (R365). (Log 132: DEDUCED, unsafe.) -/
def execHostMemoryAccess (access : HostAccess) (s : State) : Out :=
  let a := access
  let failed : State := { s with out := s.out ++ [.failed a.fn] }
  if !s.pod.bridge then .next s
  else if !mayReach s a.fn a.world then .next failed
  else
    match bytePlaces s a.world a.addr (hostSpan a.op) (hostNeed a.op) with
    | none => .next failed
    | some ps => if hostHeld s ps then .next s else .next (hostPerform s a ps)

end Sys2Proof.Machine
end

