-- ==== Sys2Proof/Machine/Attest.lean ====
section
/-! DEFINITION. Attestation: measurement blocks (Table SEC.5), the SPDM responder (R348, R458), and restarts of the security core
(R340, R458). -/

namespace Sys2Proof.Machine

open Sys2Proof

/-! ## Measurements -/

/-- ACTIVATION_PENDING (R349, R457). -/
def activationPending (s : State) : Bool := s.activation.isSome || s.fw.any fun x => x.2.failed

/-- The bytes of the package configuration block (R19). (Log 19: DESIGN CHOICE, safe.) -/
def blockBytes (s : State) : List Byte := (List.range 2048).flatMap fun i => toBytes 4 (blockWord s (4 * i)).toNat

/-- A measurement block of the current set; none where the index names none. -/
def measurement (s : State) (i : Nat) : Option (List Byte) :=
  let unit := fun u => some (digestBytes (fwOf s u).digest)
  if i == 1 then some (digestBytes Config.romDigest)
  else if i == 2 then unit .securityCore
  else if i == 3 then unit .frontEnd
  else if i == 4 then unit .management
  else if i == 5 then unit .training
  else if i == 6 then some (digestBytes (sha384 (blockBytes s)))
  else if i == 15 then some (toBytes 4 (bit (activationPending s)) ++ toBytes 4 (fwOf s .securityCore).svn.toNat)
  else if decide (16 ≤ i) && decide (i < 80) then
    let w := s.worlds.getD (i - 16) {}
    some (if w.en then digestBytes w.meas else List.replicate 48 0#8)
  else none

/-- The indices of the measurement blocks. -/
def measured : List Nat := [1, 2, 3, 4, 5, 6, 15] ++ (List.range 64).map (16 + ·)

/-! ## Sessions -/

/-- Every secured session ended (R458). -/
def endSessions (s : State) : State :=
  if s.spdm.session || s.spdm.keyed then { s with spdm := { phase := .start, resynch := true } } else s

/-- The session released where one of some ports holds it. -/
def releaseFor (s : State) (f : Nat → Bool) : State := if s.session.held && f s.session.port then releaseSession s else s

/-- What a restart of the security core, or a move of its firmware, ends: its sessions, port 3's hold, and service mode (R340, R458, R459). -/
def coreLeaves (s : State) : State := releaseFor (enterOwnership (endSessions s)) fun p => p == 3

/-- SECURITY_CORE_RESTART (R340, R458, R459): the core goes down, or runs again; one that has failed stays stopped until the next cold reset (R457). -/
def execSecurityCoreRestart (up : Bool) (s : State) : Out :=
  .next (if !up then boxCut (coreLeaves { s with secUp := false })
    else if (fwOf s .securityCore).failed then s
    else { s with secUp := true })

/-! ## The responder -/

/-- SPDM response codes and ERROR codes of DMTF SPDM 1.3. (Log 25: PRESUMED, unsafe.) -/
def rspVersion : Nat := 0x04
def rspCapabilities : Nat := 0x61
def rspAlgorithms : Nat := 0x63
def rspDigests : Nat := 0x01
def rspCertificate : Nat := 0x02
def rspChallenge : Nat := 0x03
def rspMeasurements : Nat := 0x60
def rspKeyExchange : Nat := 0x64
def rspFinish : Nat := 0x65
def rspEndSession : Nat := 0x6C
/-- Log 25: PRESUMED, unsafe. -/
def errInvalidRequest : Nat := 0x01
def errUnexpectedRequest : Nat := 0x04
def errUnsupportedRequest : Nat := 0x07
def errVersionMismatch : Nat := 0x41
def errRequestResynch : Nat := 0x43

/-- A response sent. -/
def reply (s : State) (code : Nat) (payload : List Byte) : State := { s with out := s.out ++ [.spdm code payload] }

/-- An ERROR response sent. -/
def replyError (s : State) (code : Nat) : State := { s with out := s.out ++ [.spdmError code] }

/-- A draw from the random source. (Log 21: DESIGN CHOICE, safe.) -/
def draw (s : State) : State × List Byte := ({ s with draws := s.draws + 1 }, Config.randomBytes s.draws)

/-- Whether the responder runs: it is the security core's, on die 0. -/
def responds (s : State) : Bool := s.secUp && serves s 0

/-- What is sent, as the secured session sends it. -/
def sealOut (k : Nat × List Byte) : HostOut → HostOut
  | .spdm code bs => .secured (Config.sessionSeal k.1 k.2 (BitVec.ofNat 8 code :: bs))
  | .spdmError code => .secured (Config.sessionSeal k.1 k.2 [0x7F#8, BitVec.ofNat 8 code])
  | x => x

/-- The response to a request that came inside a secured session is sealed with its keys (R348). -/
def sealReply (req : SpdmReq) (s t : State) : State :=
  match s.spdm.secret with
  | none => t
  | some k => if req.secured then { t with out := s.out ++ (t.out.drop s.out.length).map (sealOut k) } else t

/-- A request answered: after the end of a session once by RequestResynch, then by the first error that applies, else by `act`
(R458).  `first`: the message is GET_VERSION, whose header carries no agreed version. (Log 25: PRESUMED, unsafe.) -/
def answer (first : Bool) (inOrder : State → Bool) (act : SpdmReq → State → State) (req : SpdmReq) (s : State) : Out :=
  .next (if !responds s then s
    else if s.spdm.resynch then replyError { s with spdm := {} } errRequestResynch
    else if !req.supported then replyError s errUnsupportedRequest
    else if !req.wellFormed then replyError s errInvalidRequest
    else if !first && req.version != 0x13 then replyError s errVersionMismatch
    else if !inOrder s || (req.secured && !s.spdm.session && !s.spdm.keyed) then replyError s errUnexpectedRequest
    else sealReply req s (act req s))

/-- Whether the algorithms are negotiated. (Log 25: PRESUMED, unsafe.) -/
def negotiated (s : State) : Bool := s.spdm.phase == .algorithms

/-- Whether a slot holds a certificate (R347). -/
def slotHeld (n : Nat) : Bool := decide (n ≤ 1)

/-- GET_VERSION: the one supported version, 1.3; the connection starts anew. -/
def execGetVersion (req : SpdmReq) (s : State) : Out :=
  answer true (fun _ => true) (fun _ s => reply { s with spdm := { phase := .version } } rspVersion [0x13#8]) req s

/-- GET_CAPABILITIES. (Log 23: DESIGN CHOICE, safe.) -/
def execGetCapabilities (req : SpdmReq) (s : State) : Out :=
  answer false (fun s => s.spdm.phase == .version)
    (fun _ s => reply { s with spdm := { s.spdm with phase := .capabilities } } rspCapabilities Config.spdmCapabilities) req s

/-- The algorithms of the responder (R348). -/
def spdmAlgs : List SpdmAlg := [.ecdsaP384, .sha384, .ecdheP384, .aes256Gcm]

/-- NEGOTIATE_ALGORITHMS: ECDSA P-384, SHA-384, ECDHE P-384 and AES-256-GCM, where they are offered. (Log 23: DESIGN CHOICE, safe; 160: DESIGN CHOICE, safe.) -/
def execNegotiateAlgorithms (req : SpdmReq) (s : State) : Out :=
  answer false (fun s => s.spdm.phase == .capabilities)
    (fun r s => if !spdmAlgs.all r.algs.contains then replyError s errInvalidRequest
      else reply { s with spdm := { s.spdm with phase := .algorithms, algs := spdmAlgs } } rspAlgorithms (Config.spdmAlgorithms [0, 1, 2, 3])) req s

/-- The certificate chain in a slot: slot 1's is for the security core firmware that runs (R347). -/
def chainOf (s : State) (slot : Nat) : List Byte := Config.certChain slot (if slot == 1 then (fwOf s .securityCore).digest else 0)

/-- GET_DIGESTS: the SHA-384 digests of the certificate chains in slots 0 and 1. -/
def execGetDigests (req : SpdmReq) (s : State) : Out :=
  answer false negotiated
    (fun _ s => reply s rspDigests (digestBytes (sha384 (chainOf s 0)) ++ digestBytes (sha384 (chainOf s 1)))) req s

/-- GET_CERTIFICATE: a part of the chain in a slot. (Log 20: DESIGN CHOICE, safe.) -/
def execGetCertificate (req : SpdmReq) (s : State) : Out :=
  answer false negotiated
    (fun r s => if !slotHeld r.slot then replyError s errInvalidRequest
      else reply s rspCertificate (((chainOf s r.slot).drop r.offset).take r.length)) req s

/-- A response with a nonce of the responder, its body, and the attestation key's signature over both and the requester's nonce. (Log 22: DESIGN CHOICE, safe.) -/
def signed (s : State) (code : Nat) (req : SpdmReq) (body : List Byte) : State :=
  let (s, nonce) := draw s
  let sig := Config.attestation s.draws (req.payload ++ toBytes 32 req.nonce.toNat ++ body ++ nonce)
  reply { s with draws := s.draws + 1 } code (body ++ nonce ++ sig)

/-- CHALLENGE: the responder proves that it holds the attestation key. -/
def execChallenge (req : SpdmReq) (s : State) : Out :=
  answer false negotiated (fun r s => if !slotHeld r.slot then replyError s errInvalidRequest
    else signed s rspChallenge r (digestBytes (sha384 (chainOf s r.slot)))) req s

/-- The blocks that a GET_MEASUREMENTS asks for: 0 their count, 255 all of them, else one. (Log 25: PRESUMED, unsafe.) -/
def measuredBytes (s : State) (i : Nat) : Option (List Byte) :=
  if i == 0 then some [BitVec.ofNat 8 measured.length]
  else if i == 255 then some (measured.flatMap fun k => BitVec.ofNat 8 k :: (measurement s k).getD [])
  else (measurement s i).map fun bs => BitVec.ofNat 8 i :: bs

/-- GET_MEASUREMENTS (R349): built from the set current when the request arrives, with a signature. -/
def execGetMeasurements (req : SpdmReq) (s : State) : Out :=
  answer false negotiated (fun r s => match measuredBytes s r.index with
    | none => replyError s errInvalidRequest
    | some bs => signed s rspMeasurements r bs) req s

/-- KEY_EXCHANGE: the responder's ECDHE share, signed; the session's keys come from it and the requester's. (Log 160: DESIGN CHOICE, safe.) -/
def execKeyExchange (req : SpdmReq) (s : State) : Out :=
  answer false negotiated (fun r s => if !slotHeld r.slot then replyError s errInvalidRequest
    else signed { s with spdm := { s.spdm with keyed := true, secret := some (s.draws, r.payload) }, draws := s.draws + 1 } rspKeyExchange r
      (Config.ecdheShare s.draws)) req s

/-- FINISH: the secured session stands. -/
def execFinish (req : SpdmReq) (s : State) : Out :=
  answer false (fun s => s.spdm.keyed)
    (fun _ s => reply { s with spdm := { s.spdm with keyed := false, session := true } } rspFinish []) req s

/-- END_SESSION. -/
def execEndSession (req : SpdmReq) (s : State) : Out :=
  answer false (fun s => s.spdm.session) (fun _ s => endSessions (reply s rspEndSession [])) req s

end Sys2Proof.Machine
end

