-- ==== Sys2Proof/Machine/Moves.lean ====
section
/-! DEFINITION. SETMODE (R127), special registers (R173 to R175) and register-indexed moves (R176). -/

namespace Sys2Proof.Machine

open Sys2Proof

/-! ## MODE -/

/-- MODE as a MOVX write of x leaves it (R128): bits 23:20 are 0, a reserved ET or RM code is written as 0. -/
def modeFrom (x : Word) : BitVec 24 :=
  let et := x.extractLsb' 10 4
  let rm := x.extractLsb' 14 3
  0#4 ++ x.extractLsb' 17 3 ++ (if rmOk rm then rm else 0#3) ++ (if etOk et then et else 0#4) ++ x.extractLsb' 0 10

def execSetmode (p : BitVec 20) (s : State) : Out :=
  .next (advance (setMe s { me s with mode := p.zeroExtend 24 }))

/-! ## Special registers (Table ISAI.3) -/

/-- CNT as MOVX reads it (Table EXEC.3). -/
def cntWord (w : Warp) : Word :=
  BitVec.ofNat 32 (w.cntLd * 2 ^ 24 + w.cntSt * 2 ^ 16 + w.cntCp * 2 ^ 8 + w.cntTl)

/-- SEGID: the travelling segment that holds the PC, 0xFFFF_FFFF in other launches. -/
def segId (s : State) (w : Warp) (f : Frag) : Word :=
  if (launchOf s w).travelling then
    match segmentAt s (launchOf s w).world f.pc.toNat with
    | some k => BitVec.ofNat 32 k
    | none => 0xFFFFFFFF#32
  else 0xFFFFFFFF#32

/-- The length of region K for a warp: its descriptor's, or the target's allocation for a window (R57). (Log 178: DESIGN CHOICE, unsafe.) -/
def regionLen (l : Launch) (k : Nat) : Nat :=
  let r := l.region k
  if r.rights == 0 then 0 else if 3 ≤ r.cls then windowLen l r.cls else r.len

/-- A special register as a doubleword; single registers are its low word.  LANEID is the lane's own number; the base and length
of an unused region read 0. (Log 178: DESIGN CHOICE, unsafe.) -/
def special (s : State) (i : Nat) (lane : Nat) : DWord :=
  let w := me s
  let f := fr s
  let l := launchOf s w
  let t := teamOf s w
  let n := fun (x : Nat) => BitVec.ofNat 64 x
  let v := fun (x : Word) => x.zeroExtend 64
  if i == 0 then v f.exec
  else if i == 1 then v f.frag
  else if i == 2 then w.mode.zeroExtend 64
  else if i == 3 then w.flags.zeroExtend 64
  else if i == 4 then n lane
  else if i == 5 then n w.wid
  else if i == 6 then n t.x
  else if i == 7 then n t.y
  else if i == 8 then n t.z
  else if i == 9 then n (l.gridX + l.gridY * 65536 + l.gridZ * 2 ^ 32)
  else if i == 10 then n w.core
  else if i == 11 then (coreCfg s w.core).laneMap.zeroExtend 64
  else if i == 12 then n (coreCfg s w.core).passes
  else if i == 13 then v (cntWord w)
  else if i == 14 then n (roleCode (roleOf w f))
  else if i == 15 then v (segId s w f)
  else if i == 16 then n (taskOf s w).world
  else if i == 17 then n (taskOf s w).tenant
  else if i == 18 then n (s.now % 2 ^ 32)
  else if i == 19 then v w.clockHi
  else if 0x18 ≤ i && i ≤ 0x1F then v (w.dirty.extractLsb' (32 * (i - 0x18)) 32)
  else if 0x20 ≤ i && i ≤ 0x2F then n (if (l.region (i - 0x20)).rights == 0 then 0 else regionBase l t w.wid (i - 0x20))
  else if 0x30 ≤ i && i ≤ 0x3F then n (regionLen l (i - 0x30))
  else if 0x40 ≤ i && i ≤ 0x4F then v (l.params.getD (i - 0x40) 0)
  else 0

/-- The rows a read of special register `i` writes: one register, or a pair. -/
def specialRows (s : State) (d i : Nat) (pair : Bool) : List (Nat × Row) :=
  let lo := rowOf fun l => clean (loWord (special s i l))
  if pair then [(d, lo), (d + 1, rowOf fun l => clean (hiWord (special s i l)))] else [(d, lo)]

/-- A read of CLOCKLO latches CLOCKHI for the warp (R173), whatever its lane set. (Log 177: DESIGN CHOICE, unsafe.) -/
def latchClock (i : Nat) (s : State) : State :=
  if i == 0x12 then setMe s { me s with clockHi := BitVec.ofNat 32 (s.now / 2 ^ 32) } else s

/-- Log 177: DESIGN CHOICE, unsafe. -/
def execMovx (p : Option Pfx) (d i : BitVec 8) (s : State) : Out :=
  if i == 3#8 && !holds s (me s) .settled then .next (waitFor .settled s)
  else
    let pair := specialPair i
    let rows := specialRows s d.toNat i.toNat pair
    guarded (laneCauses p (regRun d.toNat (if pair then 2 else 1)) s) (latchClock i.toNat (writeAndGo p rows s)) s

/-- XMOV's write of EXEC, MODE or FLAGS. -/
def writeSpecial (i : Nat) (x : Word) (s : State) : State :=
  if i == 0 then setFr s { fr s with exec := x &&& (fr s).frag }
  else if i == 2 then setMe s { me s with mode := modeFrom x }
  else setMe s { me s with flags := x.extractLsb' 0 5 }

def execXmov (p : Option Pfx) (a i : BitVec 8) (s : State) : Out :=
  let m := act p s
  if i == 3#8 && !holds s (me s) .settled then .next (waitFor .settled s)
  else
    let lane := BitVec.ofNat 32 (2 ^ lowestLane m)
    let bad := if m == 0#32 then 0#32 else poisonMask (regOf (me s) a.toNat) lane
    guarded (consumed (bad ||| guardPoison p (me s) (fr s)) ++ outside s (a.toNat :: guardRegs p (me s)))
      (advance (if m == 0#32 then s else writeSpecial i.toNat (valAt (regOf (me s) a.toNat) (lowestLane m)) s)) s

/-! ## Register-indexed moves (R176) -/

/-- The lanes whose index is at or above REGS, as a cause (code 0x030, R390). -/
def indexCauses (s : State) (m : Word) (r : Row) : List Cause :=
  let bad := maskOf fun l => inMask m l && decide ((launchOf s (me s)).regs ≤ (valAt r l).toNat)
  if bad == 0#32 then []
  else [{ cls := 2, code := 0x030, res := true, lanes := bad, info := valAt r (lowestLane bad) }]

def execMovrd (p : Option Pfx) (d i : BitVec 8) (s : State) : Out :=
  let w := me s
  let r := regOf w i.toNat
  let m := act p s
  guarded (consumed (poisonMask r m ||| guardPoison p w (fr s)) ++ outside s ([d.toNat, i.toNat] ++ guardRegs p w) ++
      indexCauses s m r)
    (writeAndGo p [(d.toNat, rowOf fun l => laneAt (regOf w (valAt r l).toNat) l)] s) s

/-- One lane of a register written, with its DIRTY bit. -/
def writeLane (w : Warp) (r l : Nat) (x : Lane) : Warp :=
  dirtied { w with regs := w.regs.set r (rowOf fun k => if k == l then x else laneAt (regOf w r) k) } [r]

def execMovrw (p : Option Pfx) (s1 i : BitVec 8) (s : State) : Out :=
  let w := me s
  let r := regOf w i.toNat
  let m := act p s
  let w' := (lanesOf m).foldl (fun w' l => writeLane w' (valAt r l).toNat l (laneAt (regOf w s1.toNat) l)) w
  guarded (consumed (poisonMask r m ||| guardPoison p w (fr s)) ++ outside s ([s1.toNat, i.toNat] ++ guardRegs p w) ++
      indexCauses s m r)
    (advance (holdRegs ((lanesOf m).map fun l => (valAt r l).toNat) false (setMe s w'))) s

end Sys2Proof.Machine
end

