-- ==== Sys2Proof/Machine/Checks.lean ====
section
/-! DEFINITION. The residual checks CHKB, CHKR and CHKA (R178, R179, R391). -/

namespace Sys2Proof.Machine

open Sys2Proof

/-- A check over the lanes of EXEC: no effect where it holds in each, a precise fault otherwise (R391).  `value` is
what the record takes from the lowest failing lane. -/
def check (code : Nat) (named : List Nat) (ok : Nat → Bool) (addr : Nat → DWord) (info : Nat → Word) (s : State) : Out :=
  let m := (fr s).exec
  let bad := maskOf fun l => inMask m l && !ok l
  let low := lowestLane bad
  guarded (consumed (poisonIn (me s) m named) ++ outside s named ++
      (if bad == 0#32 then [] else [{ cls := 2, code := code, res := true, lanes := bad, addr := addr low, info := info low }]))
    (advance s) s

def execChkb (d : BitVec 8) (k : BitVec 4) (b n : BitVec 6) (s : State) : Out :=
  let w := me s
  let l := launchOf s w
  let base := regionBase l (teamOf s w) w.wid k.toNat
  check 0x010 [d.toNat, d.toNat + 1]
    (fun i =>
      let a := (pairAt w d.toNat i).toNat
      decide (base + 64 * b.toNat ≤ a) && decide (a + n.toNat ≤ base + regionLen l k.toNat))
    (pairAt w d.toNat) (fun _ => BitVec.ofNat 32 k.toNat) s

def execChkr (d : BitVec 8) (n : BitVec 16) (s : State) : Out :=
  let r := regOf (me s) d.toNat
  check 0x011 [d.toNat] (fun i => decide ((valAt r i).toNat < n.toNat)) (fun _ => 0) (valAt r) s

/-- The largest power of two that divides M × 2^E, at most 4,096 (R179). -/
def checkAlign (m e : Nat) : Nat :=
  largest ((List.range 13).map fun k => if m * 2 ^ e % 2 ^ k == 0 then 2 ^ k else 1)

def execChka (d : BitVec 8) (s1 : BitVec 1) (e : BitVec 5) (m : BitVec 10) (s : State) : Out :=
  let w := me s
  let r := regOf w d.toNat
  let n := m.toNat * 2 ^ e.toNat
  let bound := if s1 == 1#1 then (declOf s w).accb else (declOf s w).scratch
  check 0x012 [d.toNat]
    (fun i => decide ((valAt r i).toNat + n ≤ bound) && (valAt r i).toNat % checkAlign m.toNat e.toNat == 0)
    (fun _ => 0) (valAt r) s

end Sys2Proof.Machine
end

