-- ==== Sys2Proof/Machine/Convert.lean ====
section
/-! DEFINITION. Conversions: CVTF, CVTFI, CVTIF, CVTN and CVTW (R190 to R193, R394). -/

namespace Sys2Proof.Machine

open Sys2Proof

/-- A conversion of a lane of two 16-bit elements. -/
def convPair (g : Nat → Nat × BitVec 5) : Word × BitVec 5 :=
  (BitVec.ofNat 32 ((g 0).1 % 65536 + (g 1).1 % 65536 * 65536), (g 0).2 ||| (g 1).2)

/-- Half `j` of a lane. -/
def sixteen (v : Word) (j : Nat) : Nat := bitsOf v.toNat (16 * j) 16

def execCvtf (p : Option Pfx) (d a : BitVec 8) (k : BitVec 3) (v : BitVec 2) (s : State) : Out :=
  let rm := k.toNat
  let ftz := myFtz s
  let w := me s
  let ra := regOf w a.toNat
  let rb := regOf w (a.toNat + 1)
  if v == 0#2 || v == 1#2 then
    let dst := if v == 0#2 then bf16 else f16
    fpCompute p [d.toNat, a.toNat, a.toNat + 1] d.toNat [ra, rb]
      (fun l => convPair fun j => convert fp32 dst rm ftz (valAt (if j == 0 then ra else rb) l).toNat) s
  else
    let src := if v == 2#2 then bf16 else f16
    let dst := if v == 2#2 then f16 else bf16
    fpCompute p [d.toNat, a.toNat] d.toNat [ra] (fun l => convPair fun j => convert src dst rm ftz (sixteen (valAt ra l) j)) s

/-- A float to integer conversion of one element: the field of the integer and the flags, none for the reserved NaN (R400). (Log 27: DEDUCED, unsafe.) -/
def floatToInt (f : Fmt) (lo hi : Int) (n rm x : Nat) : Nat × BitVec 5 :=
  let r := intNarrow lo hi rm (f.val x)
  (wrap n r.1, if some x == f.reserved then 0 else r.2)

def execCvtfi (p : Option Pfx) (d a : BitVec 8) (k : BitVec 3) (v : BitVec 2) (s : State) : Out :=
  let rm := k.toNat
  let ra := regOf (me s) a.toNat
  fpCompute p [d.toNat, a.toNat] d.toNat [ra]
    (fun l =>
      let x := valAt ra l
      if v == 0#2 then let r := floatToInt fp32 (-(2 ^ 31 : Nat)) ((2 ^ 31 : Nat) - 1) 32 rm x.toNat; (BitVec.ofNat 32 r.1, r.2)
      else if v == 1#2 then let r := floatToInt fp32 0 ((2 ^ 32 : Nat) - 1) 32 rm x.toNat; (BitVec.ofNat 32 r.1, r.2)
      else convPair fun j => floatToInt (if v == 2#2 then bf16 else f16) (-32768) 32767 16 rm (sixteen x j)) s

def execCvtif (p : Option Pfx) (d a : BitVec 8) (k : BitVec 3) (v : BitVec 2) (s : State) : Out :=
  let rm := k.toNat
  let ra := regOf (me s) a.toNat
  fpCompute p [d.toNat, a.toNat] d.toNat [ra]
    (fun l =>
      let x := valAt ra l
      if v == 0#2 then let r := fp32.round rm (Val.ofInt x.toInt); (BitVec.ofNat 32 r.1, r.2)
      else if v == 1#2 then let r := fp32.round rm (Val.ofInt x.toNat); (BitVec.ofNat 32 r.1, r.2)
      else convPair fun j => (if v == 2#2 then bf16 else f16).round rm (Val.ofInt (signExt (sixteen x j) 16))) s

/-! ## CVTN and CVTW -/

/-- Width and run length of a variant (R191). -/
def runWidth (v : BitVec 2) : Nat := if v == 0#2 then 16 else if v == 1#2 then 8 else if v == 2#2 then 6 else 4
def runLen (v : BitVec 2) : Nat := if v == 0#2 then 2 else if v == 3#2 then 8 else 4

/-- Whether a variant accepts a slot's format (R191). -/
def variantTakes (v : BitVec 2) (fmt : Nat) : Bool :=
  if v == 0#2 then fmt ≤ 1 else if v == 1#2 then fmt == 2 || fmt == 3 || fmt == 4
  else if v == 2#2 then fmt == 7 else fmt == 5 || fmt == 6

/-- The slot of the launch, and the causes of R394 that it meets. -/
def slotOf (s : State) (n : BitVec 3) : Slot := (launchOf s (me s)).slots.getD n.toNat {}

def slotCauses (t : Slot) (n : BitVec 3) (k : BitVec 3) (v : BitVec 2) (narrow : Bool) : List Cause :=
  let info := n.toNat + t.fmt * 16 + v.toNat * 256
  if !variantTakes v t.fmt then [{ cls := 2, code := 0x050, info := BitVec.ofNat 32 info }]
  else if narrow && t.fmt == 6 && k != 0#3 then
    [{ cls := 2, code := 0x051, info := BitVec.ofNat 32 (info + k.toNat * 4096) }]
  else []

def execCvtn (p : Option Pfx) (d a : BitVec 8) (s1 : BitVec 3) (k : BitVec 3) (v : BitVec 2) (s : State) : Out :=
  let t := slotOf s s1
  let w := me s
  let n := runWidth v
  let regs := regRun a.toNat (runLen v)
  let rows := regs.map (regOf w)
  let code := fun (l i : Nat) => t.encode k.toNat (valAt (rows.getD i zeroRow) l).toNat
  let idx := List.range (runLen v)
  let causes := slotCauses t s1 k v true
  if causes.isEmpty then
    fpCompute p (d.toNat :: regs) d.toNat rows
      (fun l => (BitVec.ofNat 32 (total (idx.map fun i => (code l i).1 % 2 ^ n * 2 ^ (n * i))),
        idx.foldl (fun fl i => fl ||| (code l i).2) 0)) s
  else guarded (laneCauses p (d.toNat :: regs) s ++ causes) s s

/-- One element of CVTW: its FP32 or i32 value and flags (R193). (Log 141: DEDUCED, unsafe.) -/
def widen (t : Slot) (rm code : Nat) : Nat × BitVec 5 :=
  if t.isInt then (wrap 32 (signExt code (codeBits t.fmt)), 0)
  else
    match t.nan32 code with
    | some x => (x, nanFlags (slotFmt t.fmt) fp32 (t.bits code))
    | none => fp32.round rm (t.decode code)

def execCvtw (p : Option Pfx) (d a : BitVec 8) (s1 : BitVec 3) (k : BitVec 3) (v : BitVec 2) (s : State) : Out :=
  let t := slotOf s s1
  let ra := regOf (me s) a.toNat
  let n := runWidth v
  let idx := List.range (runLen v)
  let one := fun (l i : Nat) => widen t k.toNat (bitsOf (valAt ra l).toNat (n * i) n)
  let ds := idx.map fun i => (d.toNat + i, laneRow [ra] fun l => BitVec.ofNat 32 (one l i).1)
  let causes := slotCauses t s1 k v false
  let named := a.toNat :: regRun d.toNat (runLen v)
  if causes.isEmpty then computeFlags p named ds [ra] (fun l => idx.foldl (fun fl i => fl ||| (one l i).2) 0) s
  else guarded (laneCauses p named s ++ causes) s s

end Sys2Proof.Machine
end

