-- ==== Sys2Proof/Machine/Errors.lean ====
section
/-! DEFINITION. Detected errors of protected structures (R443, R444), failing packets (R450) and links that retrain (R451). -/

namespace Sys2Proof.Machine

open Sys2Proof

/-! ## Structures (Table REL.2) -/

/-- An error in a structure found on a read of the warp in a slot of a core: an imprecise fault of class 5, which halts the warp at its next issue
opportunity (R368, R374, R444). (Log 38: DESIGN CHOICE, unsafe.) -/
def haltSlot (s : State) (core slot code sclass : Nat) : State :=
  let i := warpAt s core slot
  let w := s.warps.getD i {}
  if decide (s.warps.length ≤ i) || w.halted || w.ended then s
  else
    onWarp s i fun w => w.leave s.now
      { cls := 5, code := code, res := false, pois := true, frag := 0, pc := ((servedBy w 0#32).getD {}).pc, ctr := none
        info := some (BitVec.ofNat 32 sclass) }

/-- An uncorrectable error in the 64 bits of a slice line that its code protects (Table REL.1): each of the two words gets the memory poison code
if it is dirty; the model keeps no slice, so which are is free. (Log 17: DESIGN CHOICE, safe; 124: DEDUCED, unsafe.) -/
def sliceError (s : State) (a : Nat) : State :=
  let words := ((List.range 2).filter fun i => Config.sliceDirty (2 * s.tick + i)).map fun i => a / 8 * 8 + 4 * i
  { s with mem := s.mem.markAll true words }

/-- An uncorrectable error in an HBM half-line: each word that a read touches gets the memory poison code; under a write of part of the half-line
the words that it covers wholly are clean, and the half-line's others are poisoned. (Log 124: DEDUCED, unsafe.) -/
def hbmError (s : State) (r : ErrorReport) : State :=
  let words := if r.write then
      ((List.range 16).map fun i => r.addr / 64 * 64 + 4 * i).filter fun a => !(decide (r.addr ≤ a) && decide (a + 4 ≤ r.addr + r.len))
    else wordsTouched r.addr r.len
  { s with mem := s.mem.markAll true words }

/-- An uncorrectable error in an L1 line: a clean line is fetched anew; a dirty word is poisoned, and the clean bytes of its line
are fetched anew. -/
def l1Error (s : State) (core a : Nat) : State :=
  match l1Find s core a with
  | none => s
  | some x =>
    let rest := { s with l1 := s.l1.filter fun y => !(y.core == x.core && y.base == x.base) }
    match lineStale x with
    | none => rest
    | some y =>
      let o := a % 128
      if y.dirty &&& byteMask (wordBase o) 4 == 0 then l1Put rest y
      else l1Put rest (lineWrite y (wordBase o) (List.replicate 4 0#8) true true)

/-- Whether an instruction is being performed by an array: the head of the queue of its team. -/
def performing (s : State) (a : Array) : Bool := s.arrays.any fun b => b.team == a.team && !b.follower && !b.queue.isEmpty

/-- An error in a row of an array's cells, latch or banks, met while an instruction is performed: it strikes what that instruction makes of the
row (R427).  An array row of a half is the half's own by its number in it (R248). (Log 124: DEDUCED, unsafe.) -/
def arrayError (s : State) (r : ErrorReport) : State :=
  { s with arrays := s.arrays.map fun a =>
      if a.core == r.core && (a.half == 2 || a.half == r.half) && performing s a then
        { a with struck := a.struck ++ [{ latch := r.latch, row := if r.latch || a.half == 2 then r.site.row else r.site.row % 32 }] }
      else a }

/-- What an uncorrectable error does. (Log 124: DEDUCED, unsafe.) -/
def uncorrectable (s : State) (r : ErrorReport) : State :=
  match r.site.structClass with
  | 0 => hbmError s r
  | 1 => sliceError s r.addr
  | 3 => l1Error s r.core r.addr
  | 4 => haltSlot s r.core r.slot 0x002 4
  | 5 => haltSlot s r.core r.slot 0x003 5
  | 6 => haltSlot s r.core r.slot 0x004 6
  | 7 => arrayError s r
  | 10 => haltSlot s r.core r.slot 0x006 10
  | 14 =>
    { retirePage s (r.addr / 65536) with scrub := s.scrub.filter fun p => p != r.addr / 65536 }
  | _ => s

/-- What an error that is only detected does: the copy is dropped, to be fetched or walked again (classes 8 and 9). (Log 53: DEDUCED, unsafe.) -/
def dropHeld (s : State) (r : ErrorReport) : State :=
  match r.site.structClass with
  | 8 => { s with ilines := s.ilines.filter fun x => !(x.core == r.core && x.base == iLineBase r.addr) }
  | 9 => dropTlb s fun e => e.page == r.addr / 65536 && e.unit == (if e.quad then quadOf r.core else r.core)
  | _ => s

/-- STRUCTURE_ERROR (R443, R445): the error is handled by its class and counted against its site. -/
def execStructureError (report : ErrorReport) (s : State) : Out :=
  let s := dropHeld s report
  let s := if report.corrected then s else uncorrectable s report
  .next (eraseKeys (countError s report.site report.corrected (report.addr / 65536)))

/-! ## Packets (R450) -/

/-- The receiving port of a packet. -/
def packetPort : PacketId → Nat
  | .request p _ => p
  | .copyLine p _ _ => p
  | .sled p _ => p
  | .barrierFlit p _ => p
  | .jobLine p _ _ => p

/-- Whether a task is a running job with a destination line of that address. -/
def runsLine (k : Task) (line : Nat) : Bool :=
  k.state == .running && match k.body with
    | .job c => decide (lineBase c.dst.toNat ≤ line) && decide (line < c.dst.toNat + c.len) && line % 128 == 0
    | .launch _ => false

/-- Whether a packet is on its way. (Log 137: DEDUCED, unsafe.) -/
def inFlight (s : State) : PacketId → Bool
  | .request _ op => (s.ops.any (fun o => o.id == op) || (lockAsker s op).isSome || (refillAsker s op).isSome) && !opLost s op
  | .copyLine _ c line => (s.copies.any fun x => x.id == c && x.lines.contains line) && !lineLost s c line
  | .sled _ x => (s.sleds.any fun y => y.id == x) && !sledLost s x
  | .barrierFlit _ b => (s.barriers.any fun x => x.id == b && x.scope == 5) && !flitLost s b
  | .jobLine _ j line => jobNumber s (j % 512) == j && !jobLost s (j % 512) line && runsLine (taskAt s (j % 512)) line

/-- PACKET_TAG_FAILURE (R450): the packet is discarded, counted against its port and sent again, or after the third failed
retransmission lost. (Log 137: DEDUCED, unsafe.) -/
def execPacketTagFailure (packet : PacketId) (s : State) : Out :=
  if !inFlight s packet then .next s
  else
    let n := ((s.resends.find? fun x => x.1 == packet).map (·.2)).getD 0
    let rest := s.resends.filter fun x => x.1 != packet
    let site : Site := { structClass := 13, unit := packetPort packet, sub := 0, row := 0 }
    if n < 3 then .next (countError { s with resends := (packet, n + 1) :: rest } site true 0)
    else .next (countError { s with resends := rest, lost := packet :: s.lost } site false 0)

/-! ## Links (R451) -/

/-- LINK_RETRAIN (R451): a link whose replays have failed 8 times retrains. -/
def execLinkRetrain (link : LinkId) (s : State) : Out :=
  .next (if s.retraining.contains link then s else { s with retraining := link :: s.retraining })

/-- A link taken down. -/
def takeDown (s : State) : LinkId → State
  | .serac k => linkDown s k
  | .diePort die port => portDown s die port

/-- LINK_RETRAIN_DONE (R451): the link comes back, or goes down. -/
def execLinkRetrainDone (link : LinkId) (ok : Bool) (s : State) : Out :=
  if !s.retraining.contains link then .next s
  else
    let s := { s with retraining := s.retraining.filter fun x => x != link }
    .next (if ok then s else takeDown s link)

end Sys2Proof.Machine
end

