-- ==== Sys2Proof/Machine/Manage.lean ====
section
/-! DEFINITION. The management controller's commands: lifetime records (R363), state reads (R364), firmware (R347, R349, R456,
R457); and the ends of a session (R459). -/

namespace Sys2Proof.Machine

open Sys2Proof

/-! ## Sessions that end -/

/-- FUNCTION_LEVEL_RESET of the physical function (R459): its MSI-X vectors are masked again. -/
def execFunctionLevelReset (s : State) : Out := .next (resetMsix (releaseFor s fun p => p == 0) fun fn => fn == 0)

/-- HOT_RESET of the link (R459): every function's MSI-X vectors are masked again. -/
def execHotReset (s : State) : Out := .next (resetMsix (releaseFor s fun p => p == 0) fun _ => true)

/-- MCTP_ENDPOINT_LOSS (R459). -/
def execMctpEndpointLoss (port : Nat) (s : State) : Out := .next (releaseFor s fun p => p == port && (p == 1 || p == 2))

/-! ## Lifetime records (R363, Table HOST.5) -/

/-- The bin of a power in watts, and of a temperature in degrees; a sample beyond the bins counts in the nearest. (Log 126: DESIGN CHOICE, unsafe.) -/
def powerBin (watts : Nat) : Nat := min 15 (watts / 400)
/-- Log 126: DESIGN CHOICE, unsafe. -/
def heatBin (degrees : Int) : Nat := min 15 ((degrees - 20).toNat / 8)

/-- LIFETIME_ACCUMULATE: one more second. -/
def execLifetimeAccumulate (sample : LifeSample) (s : State) : Out :=
  let up := fun (xs : List Nat) (i : Nat) => xs.set i (xs.getD i 0 + 1)
  .next { s with life := { s.life with
    seconds := s.life.seconds + 1, power := up s.life.power (powerBin sample.watts), heat := up s.life.heat (heatBin sample.degrees) } }

/-- The lifetime records and the site table committed (R363, R445). -/
def commit (s : State) : State := { s with lifeSaved := s.life, sitesSaved := s.sites }

/-- LIFETIME_COMMIT. -/
def execLifetimeCommit (s : State) : Out := .next (commit s)

/-- ORDERLY_SHUTDOWN. -/
def execOrderlyShutdown (s : State) : Out := .next (commit s)

/-- Whole hours of a number of seconds, as a count that saturates. -/
def hours (n : Nat) : Nat := min 0xFFFFFFFF (n / 3600)

/-- The records as READ_LIFE returns them, in the order of Table HOST.5. (Log 126: DESIGN CHOICE, unsafe.) -/
def Life.words (l : Life) : List Nat :=
  [hours l.seconds, min 0xFFFFFFFF l.coldResets, min 0xFFFFFFFF l.activations] ++ l.corrected ++ l.uncorrectable ++
    l.power.map hours ++ l.heat.map hours ++ [l.lanes, l.cores]

/-- Whether the controller serves commands (R457). -/
def manages (s : State) : Bool := !(fwOf s .management).failed

/-- READ_LIFE (R363): any port. -/
def execReadLife (port : Nat) (s : State) : Out :=
  .next (if manages s then { s with out := s.out ++ [.words port s.life.words] } else s)

/-! ## READ_STATE (R364) -/

/-- The place of a task state in Table SCHED.5; 0 for a free slot. (Log 191: DESIGN CHOICE, unsafe.) -/
def TaskState.code : TaskState → Nat
  | .free => 0
  | .held => 1
  | .ready => 2
  | .placing => 3
  | .running => 4

/-- A slot of the task table as READ_STATE shows it. (Log 191: DESIGN CHOICE, unsafe.) -/
def Task.words (k : Task) : List Nat := [k.state.code, k.seq.toNat, k.vdev, k.world, k.tenant, k.entry, k.placed]

/-- READ_STATE: the holder's snapshot; another port fails with BUSY. (Log 125: DEDUCED, unsafe.) -/
def execReadState (port : Nat) (target : ReadTarget) (s : State) : Out :=
  if !manages s then .next s
  else if !holdsSession s port then .next (setResult { s with out := s.out ++ [.result port 1] } port 1)
  else
    let ws := match target with
      | .register off => [(spaceWord s port off).toNat]
      | .taskSlot i => (taskAt s i).words
    .next { s with out := s.out ++ [.words port ws] }

/-! ## Firmware (R347, R349, R456, R457) -/

/-- The number of a unit. -/
def fwNumber : FwUnit → Nat
  | .securityCore => 0
  | .frontEnd => 1
  | .admissionUnit => 2
  | .management => 3
  | .training => 4

/-- A unit's firmware changed. -/
def onFw (s : State) (u : FwUnit) (g : Fw → Fw) : State := { s with fw := s.fw.map fun x => if x.1 == u then (u, g x.2) else x }

/-- A command's result sent to its port. -/
def result (s : State) (port code : Nat) : State := { s with out := s.out ++ [.result port code] }

/-- The code of STAGE_FW (Table REL.8), lowest first. (Log 130: DEDUCED, unsafe.) -/
def stageCode (s : State) (port : Nat) (i : FwImage) : Nat :=
  match i.target with
  | none => if holdsSession s port then 2 else 1
  | some u =>
    [ (1, !holdsSession s port), (3, sha384 i.body != i.digest), (4, !Config.fwSigned (fwNumber u) i.svn i.digest i.signature),
      (5, decide (i.svn.toNat < (fwOf s u).fused.toNat)), (6, activationPending s)
    ].findSome? (fun (c : Nat × Bool) => if c.2 then some c.1 else none) |>.getD 0

/-- STAGE_FW (R456): the image verified into the staging buffer of its unit. (Log 18: DESIGN CHOICE, safe.) -/
def execStageFw (port : Nat) (image : FwImage) (s : State) : Out :=
  if !manages s then .next s
  else
    let c := stageCode s port image
    let t := match image.target with
      | some u => if c == 0 then onFw s u fun f => { f with staged := some (image.digest, image.svn) } else s
      | none => s
    .next (result t port c)

/-- The units that hold a staged image. -/
def stagedUnits (s : State) : List FwUnit := (s.fw.filter fun x => x.2.staged.isSome).map (·.1)

/-- ACTIVATE_FW (R349, R456): the moves start; the front end consumes no packet while they last. (Log 130: DEDUCED, unsafe.) -/
def execActivateFw (port : Nat) (s : State) : Out :=
  if !manages s then .next s
  else if !holdsSession s port then .next (result s port 1)
  else if activationPending s || (stagedUnits s).isEmpty then .next (result s port 6)
  else .next { s with activation := some { port := port, back := false, left := stagedUnits s }, fwStop := true }

/-- A unit stopped or moved: the security core's own move ends its sessions, releases port 3 and enters ownership mode (R458, R459). -/
def moved (s : State) (u : FwUnit) : State := if u == .securityCore then coreLeaves s else s

/-- The measurement set switched in one step after the last move. -/
def switchSet (s : State) (a : Activation) : State :=
  let s := { s with
    activation := none
    fwStop := false
    life := { s.life with activations := satAdd 0xFFFFFFFF s.life.activations 1 }
    fw := s.fw.map fun x => match x.2.staged with
      | some i => if x.2.moved then (x.1, { x.2 with digest := i.1, svn := i.2, staged := none, moved := false, verified := true }) else x
      | none => x }
  result s a.port 0

/-- A unit that starts on neither image (R457). -/
def failUnit (s : State) (a : Activation) (u : FwUnit) : State :=
  let s := onFw { s with activation := none, fwStop := u == .frontEnd } u fun f => { f with failed := true }
  let s := if u == .securityCore then boxCut (coreLeaves { s with secUp := false }) else s
  result s a.port 8

/-- A move forward, onto the new image. -/
def moveForward (s : State) (a : Activation) (u : FwUnit) (r : FwMove) : State :=
  let rest := a.left.filter fun x => x != u
  match r with
  | .onNew =>
    let s := moved (onFw s u fun f => { f with moved := true }) u
    if rest.isEmpty then switchSet s a else { s with activation := some { a with left := rest } }
  | .failedNew =>
    let back := (s.fw.filter fun x => x.2.moved).map (·.1) ++ [u]
    { s with activation := some { a with back := true, left := back } }
  | .backOnOld => s
  | .onNeither => failUnit s a u

/-- A move back, onto the old image. (Log 130: DEDUCED, unsafe.) -/
def moveBack (s : State) (a : Activation) (u : FwUnit) (r : FwMove) : State :=
  let rest := a.left.filter fun x => x != u
  match r with
  | .backOnOld =>
    let s := moved (onFw s u fun f => { f with moved := false }) u
    if rest.isEmpty then result { s with activation := none, fwStop := false } a.port 7
    else { s with activation := some { a with left := rest } }
  | .onNeither => failUnit s a u
  | .onNew => s
  | .failedNew => s

/-- FW_UNIT_MOVE (R349, R457). (Log 130: DEDUCED, unsafe.) -/
def execFwUnitMove (unit : FwUnit) (result : FwMove) (s : State) : Out :=
  match s.activation with
  | none => .next s
  | some a =>
    if !a.left.contains unit then .next s
    else .next (if a.back then moveBack s a unit result else moveForward s a unit result)

end Sys2Proof.Machine
end

