-- ==== Sys2Proof/Machine/Preempt.lean ====
section
/-! DEFINITION. The end of a quantum, and pre-emption (R222, R255, R299, R300, R319, R429, R430). -/

namespace Sys2Proof.Machine

open Sys2Proof

/-! ## Whether a quantum ends in pre-emption (R299) -/

/-- The teams saved together with a team: the gang, both copies of a redundant team, or the team (R294, R300). -/
def groupOf (s : State) (t : Team) : List Team :=
  let l := t.launch s
  s.teams.filter fun u => u.task == t.task && (l.gang || l.travelling || u.id == t.id || (l.redundant && u.index == t.index))

/-- Whether a team's launch allows its pre-emption: SAVE ≠ 0, and a trap handler outside travelling mode. -/
def mayPreempt (s : State) (t : Team) : Bool :=
  let l := t.launch s
  l.save != 0 && (l.travelling || (s.warps.filter fun w => w.team == t.id).all fun w => (handlerPc s w).isSome)

/-- Whether a team of a task waits on a die that no core can take now: a team of its ranges, a suspended one, one that no die owns yet, or a replica
to be pinned. (Log 189: DEDUCED, unsafe.) -/
def starved (s : State) (slot die : Nat) : Bool :=
  let k := taskAt s slot
  let begun := k.state == .ready || k.state == .placing
  k.state != .free && (((rangeOn s slot die).isSome && !dieTakes s slot die) ||
    (awaiting s die).any (fun x => x.task == slot && !dieTakesBack s die x) ||
    (undistributed k && dieSuits s k die && (if k.launch.gang then (placeGang s slot fun _ => true).isNone
      else (placeTeam s slot k.nextTeam (fun _ => true) (fun _ => true) false []).isNone)) ||
    (begun && k.launch.travelling && dieSuits s k die && (pinCore s k).isNone))

/-- The cores that a team's launch holds: its pinned cores, or the team's own. (Log 189: DEDUCED, unsafe.) -/
def heldCores (s : State) (t : Team) : List Nat :=
  if (t.launch s).travelling then (pinnedBy s t.task).map (·.core) else coresOf (t.launch s) t.core

/-- Whether a team holds, on a core, something of which a team of a task needs more than is free there (R292): a replica needs a core without
teams, and any team an unpinned one of its world. (Log 189: DEDUCED, unsafe.) -/
def holdsNeeded (s : State) (t : Team) (k : Task) (core : Nat) : Bool :=
  let h := t.launch s
  let l := k.launch
  coreSuits s k.vdev l core && (l.travelling || (pinOf s core).isSome || !worldFits s k core ||
    (decide (0 < h.regNeed) && decide (freeRegs s core < l.regNeed)) ||
    (decide (0 < h.scrGranules) && decide (freeScr s core < l.scrGranules)) ||
    (decide (0 < h.accGranules) && decide (freeAcc s core < l.accGranules)) ||
    decide (freeWarps s core < l.warps) || decide (16 ≤ (ownTeams s core).length) ||
    (decide (0 < h.handles) && decide (freeHandles s core < l.handles)) ||
    (decide (0 < h.bCore) && decide (freeBars s core < l.bCore)) || (decide (0 < h.nMat) && !arrayFits s l core))

/-- Whether a team of another device with less service waits on a die for resources that this team holds there (R299). (Log 189: DEDUCED, unsafe.) -/
def outbid (s : State) (t : Team) : Bool :=
  let mine := (taskAt s t.task).vdev
  (heldCores s t).any fun c => (List.range 512).any fun i =>
    let k := taskAt s i
    k.state != .free && k.vdev != mine && lessService s (dieOf c) k.vdev mine && holdsNeeded s t k c && starved s i (dieOf c)

/-- A new quantum of residency for a team; its residency so far is counted. -/
def newQuantum (s : State) (t : Team) : State := onTeam (addService s t) t.id fun t => { t with since := s.now }

/-! ## Blocking and the engines (R300 steps 1 to 3) -/

/-- New issue by a team's warps blocked. -/
def blockTeam (s : State) (id : Nat) : State :=
  { s with warps := s.warps.map fun w => if w.team == id && !w.ended then { w with blocked := true, saving := true } else w }

/-- Whether a warp is being saved. -/
def savingTeam (s : State) (id : Nat) : Bool := s.warps.any fun w => w.team == id && w.saving

/-- Whether the saving handler of a warp has been entered, or has returned. (Log 76: DESIGN CHOICE, unsafe.) -/
def saveBegun (w : Warp) : Bool := w.saved || (w.served.isSome && w.kept.cls == 0) || w.trap.any fun q => q.record.cls == 0

/-- Whether a warp's accesses, copies and jobs are over (R223, R300): what its counters still count is held by pending faults, which are
taken after it has resumed (R430). -/
def landed (s : State) (w : Warp) : Bool :=
  (opsOf s w).isEmpty && w.cntCp == (w.pending.filter fun p => p.ctr == some .cp).length

/-- Whether a warp has nothing under way that a save waits for (R223, R282). -/
def saveQuiet (s : State) (w : Warp) : Bool :=
  w.ended || (landed s w && w.trap.isNone && (w.halted || w.served.isNone) &&
    !s.waiters.any fun x => x.core == w.core && x.slot == w.slot && x.granted)

/-- What a fragment waits for is given up where the save has it issue again (R200, R222, R360). (Log 76: DESIGN CHOICE, unsafe.) -/
def saveWait : Wait → Wait
  | .poll _ => .none
  | .sleep _ => .none
  | .lock _ => .none
  | .lockRetry _ => .none
  | .lockSent _ _ _ => .none
  | .xchg => .none
  | .linkRefill _ => .none
  | .entryMiss _ => .none
  | .stopped _ => .none
  | x => x

/-- A waiting XCHG taken back: it issues again on resume, with the ordinal it had (R199, R200). -/
def recallXchg (w : Warp) : Warp :=
  match w.xchg with
  | none => w
  | some x => { dropXchg w with xchgSent := put w.xchgSent x.team x.ordinal }

/-- A warp's waits as the save leaves them. (Log 76: DESIGN CHOICE, unsafe.) -/
def quietWarp (w : Warp) : Warp := recallXchg { w with frags := w.frags.map fun f => { f with wait := saveWait f.wait } }

/-- A team's arrays stopped (R255, R429): the queued instructions are recorded as descriptors and discarded, latches are emptied, the handles of
queued TBLDs go from draining to full, and the destinations of queued TACCLDs are saved as they stand. -/
def stopArrays (s : State) (id : Nat) : State :=
  let mine := s.arrays.filter fun a => a.team == id
  let queued := mine.flatMap fun a => a.queue.flatMap TileOp.loads
  let held := mine.flatMap fun a => a.queue.filterMap (·.hold)
  { s with
    arrays := s.arrays.map fun a => if a.team == id then { a with queue := [], stopped := a.stopped ++ a.queue, latch := .none, struck := [] } else a
    warps := s.warps.map fun w => if w.team == id then { w with holds := w.holds.filter fun h => !held.contains h.id } else w
    handles := s.handles.map fun h =>
      if h.team == id && queued.contains (h.num, h.follower) && h.state == .draining then { h with state := .full } else h }

/-- The stopped arrays' accumulators written to the save block (R300). -/
def saveArrays (s : State) (id : Nat) : State :=
  match s.teams.find? fun t => t.id == id with
  | none => s
  | some t => moveAccs s t true

/-- A team's registrations and stop log entries ended, its waits given up, its arrays stopped. -/
def settleTeam (s : State) (id : Nat) : State :=
  let mine := s.warps.filter fun w => w.team == id
  let s := saveArrays (stopArrays s id) id
  dropStops { s with
    warps := s.warps.map fun w => if w.team == id then quietWarp w else w
    waiters := s.waiters.filter fun x => !mine.any fun w => w.core == x.core && w.slot == x.slot } mine

/-! ## The saving handlers (R300 step 4) -/

/-- The saving handler of a warp entered, with a record of class 0 (R369). -/
def beginSave (s : State) (i : Nat) : State :=
  let w := s.warps.getD i {}
  match argMin (fun (f : Frag) => lowestLane f.frag) (w.frags.filter fun f => !f.handler) with
  | none => onWarp s i fun w => { w with saved := true }
  | some f =>
    if (handlerPc s w).isNone then onWarp s i fun w => { w with saved := true }
    else
      let words := wordsAt s w f.pc
      let r := { recordOf s w f.frag f.pc { cls := 0, code := 0, res := true } with instr := words.1, pfxWord := words.2 }
      let s := onWarp s i fun w => { w with trap := some { frag := f.id, record := r, rpc := f.pc } }
      if settled w then enterTrap s i else s

/-- The saving handlers of a group entered. -/
def beginSaves (s : State) (ids : List Nat) : State :=
  (List.range s.warps.length).foldl (fun s i =>
    let w := s.warps.getD i {}
    if ids.contains w.team && !w.ended && !w.halted then beginSave s i else s) (ids.foldl settleTeam s)

/-! ## Freeing (R300 step 5) -/

/-- A team's storage as its save block holds it, on each of its cores. -/
def saveStore (s : State) (t : Team) : Memory :=
  let l := t.launch s
  (List.range (coresOf l t.core).length).foldl (fun m i =>
    (m.paste s.mem (scrAddr (t.core + i) t.scrBase) (4096 * l.scrGranules) (0x800000 * i)).paste s.mem
      (accAddr (t.core + i) t.accBase) (4096 * l.accGranules) (0x800000 * i + 0x400000)) {}

/-- A saved team's state taken from its core. -/
def takeTeam (s : State) (t : Team) : State × Saved :=
  let x : Saved :=
    { team := t, warps := s.warps.filter (fun w => w.team == t.id), handles := s.handles.filter (fun h => h.team == t.id)
      arrays := s.arrays.filter (fun a => a.team == t.id), store := saveStore s t }
  let bars := s.barriers
  ({ removeTeam (leaveCore (addService s t) t) t.id with
     barriers := bars.map fun b => if b.teams.contains t.id then { b with unit := .none } else b }, x)

/-- A group freed and kept as suspended by the die of its first team. (Log 55: DESIGN CHOICE, unsafe.) -/
def suspendGroup (s : State) (ts : List Team) : State :=
  let (s, xs) := ts.foldl (fun (acc : State × List Saved) t =>
    let (s, x) := takeTeam acc.1 t
    (s, acc.2 ++ [x])) (s, [])
  match ts with
  | [] => s
  | t :: _ => { s with suspended := s.suspended ++ [{ task := t.task, die := dieOf t.core, teams := xs }] }

/-- The save of a group carried on as far as it can go. -/
def saveGroup (s : State) (ts : List Team) : State :=
  let ids := ts.map (·.id)
  let ws := s.warps.filter fun w => ids.contains w.team
  let s := wcbDrain s fun x => x.ops.any fun n => s.ops.any fun o => o.id == n && ids.contains o.team
  if !(ws.any saveBegun) then
    if ws.all (saveQuiet s) && !s.copies.any (fun c => ids.contains c.team) then beginSaves s ids else s
  else if ws.all fun w => (w.saved || w.ended || (w.halted && countersZero w)) && (w.ended || landed s w) then suspendGroup s ts
  else s

/-! ## QUANTUM_EXPIRY (R299, R300, R319) -/

/-- A travelling launch at the end of its quantum, or while it is being saved. -/
def travelExpiry (s : State) (t : Team) : State :=
  let k := taskAt s t.task
  if k.saving then saveTravel s t.task
  else if mayPreempt s t && (groupOf s t).any (outbid s) then saveTravel (onTask s t.task fun k => { k with saving := true }) t.task
  else (groupOf s t).foldl newQuantum s

/-- QUANTUM_EXPIRY (R299): the group is pre-empted, its save is carried on, or a new quantum begins. (Log 4: DESIGN CHOICE, safe.) -/
def execQuantumExpiry (team : Nat) (s : State) : Out :=
  match s.teams.find? fun t => t.id == team && !t.ended with
  | none => .next s
  | some t =>
    let ts := groupOf s t
    if (t.launch s).travelling then .next (travelExpiry s t)
    else if ts.any fun u => savingTeam s u.id then .next (saveGroup s ts)
    else if ts.all (mayPreempt s) && ts.any (outbid s) then .next (saveGroup (ts.foldl (fun s u => blockTeam s u.id) s) ts)
    else .next (ts.foldl newQuantum s)

end Sys2Proof.Machine
end

