-- ==== Sys2Proof/Machine/Resets.lean ====
section
/-! DEFINITION. Resets and bring-up: a cold reset with the pending list applied (R20 to R22, R365, R447), the loss of power
(R363, R445), and training (R352, R365, R454). -/

namespace Sys2Proof.Machine

open Sys2Proof

/-! ## The configuration block at a reset -/

/-- The count of a pass class changed. -/
def onClass (c : Config) (passes : Nat) (g : Word → Word) : Config :=
  if passes == 2 then { c with class2 := g c.class2 }
  else if passes == 3 then { c with class3 := g c.class3 }
  else { c with class4 := g c.class4 }

/-- A core's word replaced, with CORES and the class counts. -/
def setCore (c : Config) (core : Nat) (new : CoreCfg) : Config :=
  let old := look c.core core {}
  let c := if old.present then onClass { c with cores := c.cores - 1 } old.passes (· - 1) else c
  let c := if new.present then onClass { c with cores := c.cores + 1 } new.passes (· + 1) else c
  { c with core := put c.core core new }

/-- A core retired. -/
def dropCore (c : Config) (core : Nat) : Config := setCore c core { look c.core core {} with present := false }

/-- A physical lane retired (R21, R447); with fewer than 8 left, the core. -/
def dropLane (c : Config) (core lane : Nat) : Config :=
  let old := look c.core core {}
  let map := old.laneMap &&& ~~~(1#16 <<< lane)
  let good := ((List.range 16).filter fun i => map.getLsbD i).length
  if good < 8 then dropCore c core
  else setCore c core { old with laneMap := map, good := good, passes := ceilDiv 32 good }

/-- An entry of the pending list applied. -/
def applyRetire (c : Config) (r : Retire) : Config :=
  if r.action == 1 then dropLane c r.unit r.lane
  else if r.action == 2 then dropCore c r.unit
  else if r.action == 3 && r.sclass == 7 then
    setCore c r.unit { look c.core r.unit {} with spareRows := (look c.core r.unit {}).spareRows + 1 }
  else c

/-! ## COLD_RESET and POWER_LOSS -/

/-- What outlasts a reset: the outside world, what is set at test or kept in non-volatile storage, and the model's own counters. (Log 122: DEDUCED, unsafe; 127: DEDUCED, unsafe.) -/
def keepThrough (s : State) : State :=
  { State.reset with
    inputs := s.inputs
    tick := s.tick
    nextId := s.nextId
    cfg := s.cfg
    hostMem := s.hostMem
    out := s.out
    draws := s.draws
    tray := s.tray
    fw := s.fw.map (fun x => (x.1, { x.2 with staged := none, moved := false, failed := false }))
    life := s.life
    lifeSaved := s.lifeSaved
    sites := s.sites
    sitesSaved := s.sitesSaved
    poweredBase := s.lifeSaved.seconds / 3600
    retire := s.retire
    unlisted := s.unlisted
    retiredPages := s.retiredPages
    retiredWays := s.retiredWays
    sparePorts := s.sparePorts
    spares := s.spares
    diesOut := s.diesOut }

/-- Whether a unit's image is refused at start-up (R347): its signature does not verify, or its SVN is too low. (Log 161: DESIGN CHOICE, unsafe.) -/
def imageBad (f : Fw) : Bool := !f.verified || decide (f.svn.toNat < f.fused.toNat)

/-- The units as they start (R347): the boot ROM verifies the security core's image, and the security core, if it runs, every other. (Log 161: DESIGN CHOICE, unsafe.) -/
def bootUnits (s : State) : List (FwUnit × Fw) :=
  s.fw.map fun x => (x.1, { x.2 with failed := imageBad x.2 || imageBad (fwOf s .securityCore) })

/-- COLD_RESET (R347, R365, R447): every unit's image is verified; retirements of actions 1, 2, 3 and 5 are applied and leave the list; those of action 4 stay. (Log 127: DEDUCED, unsafe; 161: DESIGN CHOICE, unsafe.) -/
def execColdReset (s : State) : Out :=
  let t := keepThrough s
  .next { t with
    fw := bootUnits t
    secUp := !imageBad (fwOf t .securityCore)
    cfg := (actedOn s).foldl applyRetire s.cfg
    retire := (s.retire.filter fun r => r.action == 4).map (fun r => { r with applied := true })
    unlisted := []
    diesOut := t.diesOut ++ ((actedOn s).filter fun r => r.action == 5).map (fun r => r.unit)
    life := { s.life with coldResets := satAdd 0xFFFFFFFF s.life.coldResets 1 } }

/-- POWER_LOSS (R363, R445): what has not been committed is lost, and no unit runs until the cold reset that starts it (R347). (Log 161: DESIGN CHOICE, unsafe.) -/
def execPowerLoss (s : State) : Out :=
  let t := keepThrough { s with life := s.lifeSaved, sites := s.sitesSaved }
  .next { t with secUp := false, fw := t.fw.map fun x => (x.1, { x.2 with failed := true }) }

/-! ## Training (R352, R365, R454) -/

/-- The pod fields written from the tray configuration before the links train (R352). (Log 128: DESIGN CHOICE, unsafe.) -/
def writeTray (s : State) : State :=
  if s.pod.valid then s
  else
    { s with pod := { s.pod with
        valid := true, podIdx := s.tray.podIdx, bridge := s.tray.bridge, bridgeIdx := s.tray.bridgeIdx
        route := (List.range 64).map fun i => s.tray.route.getD i 0 } }

/-- Full service once every die and every link that the route table names is up (R365). (Log 129: DEDUCED, unsafe.) -/
def enterFull (s : State) : State :=
  let named := s.pod.route.foldl (fun a b => a ||| b) 0
  if s.pod.dies == 0xFFFFFFFF#32 && s.pod.linkUp &&& named == named then { s with fast := true, pod := { s.pod with full := true } }
  else s

/-- DIE_TRAINED (R365): the die serves, unless it is kept out (Table REL.4) or the deadline has passed (R454). (Log 129: DEDUCED, unsafe.) -/
def execDieTrained (die : Nat) (s : State) : Out :=
  if decide (32 ≤ die) || s.deadlinePast || s.diesOut.contains die then .next s
  else
    let s := writeTray s
    .next (enterFull { s with pod := { s.pod with dies := s.pod.dies ||| 1#32 <<< die } })

/-- LINK_TRAINED (R15, R352): link k is on die 2k, which is to serve; a link whose far end reports a pod index that the route table does not lead to over it stays down; a
link that comes up lets the pod's barriers complete. (Log 129: DEDUCED, unsafe.) -/
def execLinkTrained (link farIndex : Nat) (s : State) : Out :=
  if decide (16 ≤ link) || s.deadlinePast || !serves s (linkDie link) then .next s
  else
    let s := writeTray s
    if (s.pod.route.getD farIndex 0).getLsbD link then
      .next (testPodBarriers (enterFull { s with pod := { s.pod with linkUp := s.pod.linkUp ||| 1#16 <<< link } }))
    else .next s

/-- TRAINING_DEADLINE (R454): the Serac link of a die that does not serve is down. -/
def execTrainingDeadline (s : State) : Out :=
  if s.deadlinePast then .next s
  else
    let s := writeTray s
    let up := (List.range 16).foldl (fun (m : BitVec 16) k => if serves s (linkDie k) then m ||| 1#16 <<< k else m) 0
    .next { s with deadlinePast := true, fast := s.fast || serves s 0, pod := { s.pod with linkUp := s.pod.linkUp &&& up } }

end Sys2Proof.Machine
end

