-- ==== Sys2Proof/Machine/Wide.lean ====
section
/-! DEFINITION. The 64-bit and address forms of row 4x (R177). -/

namespace Sys2Proof.Machine

open Sys2Proof

/-- A pair destination from a function of the lane, poisoned in both registers where any source lane is (R401). -/
def pairRows (d : Nat) (srcs : List Row) (f : Nat → DWord) : List (Nat × Row) :=
  [(d, laneRow srcs fun l => loWord (f l)), (d + 1, laneRow srcs fun l => hiWord (f l))]

/-- The rows of some registers of the issuing warp. -/
def rowsOf (s : State) (rs : List Nat) : List Row := rs.map (regOf (me s))

/-- A pair from a pair and a pair. -/
def wide2 (p : Option Pfx) (d a b : Nat) (f : DWord → DWord → DWord) (s : State) : Out :=
  let w := me s
  compute p [d, d + 1, a, a + 1, b, b + 1]
    (pairRows d (rowsOf s [a, a + 1, b, b + 1]) fun l => f (pairAt w a l) (pairAt w b l)) s

/-- A pair from a pair and a single register. -/
def wide1 (p : Option Pfx) (d a b : Nat) (f : DWord → Word → DWord) (s : State) : Out :=
  let w := me s
  compute p [d, d + 1, a, a + 1, b]
    (pairRows d (rowsOf s [a, a + 1, b]) fun l => f (pairAt w a l) (valAt (regOf w b) l)) s

/-- A word extended to 64 bits by signedness. -/
def extend (signed : Bool) (v : Word) : DWord := if signed then v.signExtend 64 else v.zeroExtend 64

def execAdd64 (p : Option Pfx) (d a b : BitVec 8) (s : State) : Out := wide2 p d.toNat a.toNat b.toNat (· + ·) s

def execAdd64w (p : Option Pfx) (d a b : BitVec 8) (s : State) : Out :=
  let g := (myEt s).signed
  wide1 p d.toNat a.toNat b.toNat (fun x y => x + extend g y) s

def execSub64 (p : Option Pfx) (d a b : BitVec 8) (s : State) : Out := wide2 p d.toNat a.toNat b.toNat (· - ·) s

def execAddi64 (p : Option Pfx) (d a i : BitVec 8) (s : State) : Out :=
  let w := me s
  let a := a.toNat
  compute p [d.toNat, d.toNat + 1, a, a + 1]
    (pairRows d.toNat (rowsOf s [a, a + 1]) fun l => pairAt w a l + dwordOf (immSigned p i)) s

def execLea4 (p : Option Pfx) (d a b : BitVec 8) (s : State) : Out :=
  wide1 p d.toNat a.toNat b.toNat (fun x y => x + y.zeroExtend 64 * 4#64) s

def execLea8 (p : Option Pfx) (d a b : BitVec 8) (s : State) : Out :=
  wide1 p d.toNat a.toNat b.toNat (fun x y => x + y.zeroExtend 64 * 8#64) s

def execLea16 (p : Option Pfx) (d a b : BitVec 8) (s : State) : Out :=
  wide1 p d.toNat a.toNat b.toNat (fun x y => x + y.zeroExtend 64 * 16#64) s

/-- MOV64: each register's lane with its side bit (Table INSF.3). -/
def execMov64 (p : Option Pfx) (d a : BitVec 8) (s : State) : Out :=
  let a := a.toNat
  compute p [d.toNat, d.toNat + 1, a, a + 1]
    [(d.toNat, regOf (me s) a), (d.toNat + 1, regOf (me s) (a + 1))] s

/-- The full product by signedness. -/
def product (signed : Bool) (x y : Word) : DWord := dwordOf (whole signed x * whole signed y)

def execWmul (p : Option Pfx) (d a b : BitVec 8) (s : State) : Out :=
  let w := me s
  let g := (myEt s).signed
  compute p [d.toNat, d.toNat + 1, a.toNat, b.toNat]
    (pairRows d.toNat (rowsOf s [a.toNat, b.toNat]) fun l => product g (valAt (regOf w a.toNat) l) (valAt (regOf w b.toNat) l)) s

def execWmad (p : Option Pfx) (d a b : BitVec 8) (s : State) : Out :=
  let w := me s
  let g := (myEt s).signed
  let c := thirdReg p d.toNat
  compute p [d.toNat, d.toNat + 1, a.toNat, b.toNat, c, c + 1]
    (pairRows d.toNat (rowsOf s [a.toNat, b.toNat, c, c + 1]) fun l =>
      product g (valAt (regOf w a.toNat) l) (valAt (regOf w b.toNat) l) + pairAt w c l) s

def execShl64 (p : Option Pfx) (d a b : BitVec 8) (s : State) : Out :=
  wide1 p d.toNat a.toNat b.toNat (fun x y => x <<< (y.toNat % 64)) s

def execShr64 (p : Option Pfx) (d a b : BitVec 8) (s : State) : Out :=
  wide1 p d.toNat a.toNat b.toNat (fun x y => x >>> (y.toNat % 64)) s

/-- A doubleword by signedness. -/
def whole64 (signed : Bool) (v : DWord) : Int := if signed then v.toInt else (v.toNat : Int)

def execCmplt64 (p : Option Pfx) (d a b : BitVec 8) (s : State) : Out :=
  let w := me s
  let g := (myEt s).signed
  let a := a.toNat
  let b := b.toNat
  compute p [d.toNat, a, a + 1, b, b + 1]
    [(d.toNat, laneRow (rowsOf s [a, a + 1, b, b + 1]) fun l =>
      truth (decide (whole64 g (pairAt w a l) < whole64 g (pairAt w b l))))] s

end Sys2Proof.Machine
end

