-- ==== Sys2Proof/Machine/Dispatch.lean ====
section
/-! DEFINITION. What each instruction means: one arm for each constructor of `Instr`, each a direct call of that
instruction's own meaning. -/

namespace Sys2Proof.Machine

open Sys2Proof

def exec (i : Instr) (s : State) : Host.Outcome State Fault Refusal :=
  match i with
  | .nop => Sys2Proof.Machine.execNop s
  | .br p h x => Sys2Proof.Machine.execBr p h x s
  | .brc p c h x => Sys2Proof.Machine.execBrc p c h x s
  | .brz p c h x => Sys2Proof.Machine.execBrz p c h x s
  | .call p h x => Sys2Proof.Machine.execCall p h x s
  | .calli a => Sys2Proof.Machine.execCalli a s
  | .ret => Sys2Proof.Machine.execRet s
  | .join => Sys2Proof.Machine.execJoin s
  | .exitw => Sys2Proof.Machine.execExitw s
  | .yield => Sys2Proof.Machine.execYield s
  | .sleep n => Sys2Proof.Machine.execSleep n s
  | .trap n => Sys2Proof.Machine.execTrap n s
  | .brx i1 t => Sys2Proof.Machine.execBrx i1 t s
  | .setmode p => Sys2Proof.Machine.execSetmode p s
  | .ipref c x => Sys2Proof.Machine.execIpref c x s
  | .add p d a b => Sys2Proof.Machine.execAdd p d a b s
  | .sub p d a b => Sys2Proof.Machine.execSub p d a b s
  | .mul p d a b => Sys2Proof.Machine.execMul p d a b s
  | .mulh p d a b => Sys2Proof.Machine.execMulh p d a b s
  | .mad p d a b => Sys2Proof.Machine.execMad p d a b s
  | .iand p d a b => Sys2Proof.Machine.execIand p d a b s
  | .ior p d a b => Sys2Proof.Machine.execIor p d a b s
  | .ixor p d a b => Sys2Proof.Machine.execIxor p d a b s
  | .shl p d a b => Sys2Proof.Machine.execShl p d a b s
  | .shr p d a b => Sys2Proof.Machine.execShr p d a b s
  | .sar p d a b => Sys2Proof.Machine.execSar p d a b s
  | .imin p d a b => Sys2Proof.Machine.execImin p d a b s
  | .imax p d a b => Sys2Proof.Machine.execImax p d a b s
  | .sel p d a b => Sys2Proof.Machine.execSel p d a b s
  | .iabs p d a => Sys2Proof.Machine.execIabs p d a s
  | .ineg p d a => Sys2Proof.Machine.execIneg p d a s
  | .cmpeq p d a b => Sys2Proof.Machine.execCmpeq p d a b s
  | .cmpne p d a b => Sys2Proof.Machine.execCmpne p d a b s
  | .cmplt p d a b => Sys2Proof.Machine.execCmplt p d a b s
  | .cmple p d a b => Sys2Proof.Machine.execCmple p d a b s
  | .clz p d a => Sys2Proof.Machine.execClz p d a s
  | .popc p d a => Sys2Proof.Machine.execPopc p d a s
  | .brev p d a => Sys2Proof.Machine.execBrev p d a s
  | .bfx p d a b => Sys2Proof.Machine.execBfx p d a b s
  | .bfi p d a b => Sys2Proof.Machine.execBfi p d a b s
  | .prmt p d a b => Sys2Proof.Machine.execPrmt p d a b s
  | .dp4 p d a b => Sys2Proof.Machine.execDp4 p d a b s
  | .dp4s p d a b => Sys2Proof.Machine.execDp4s p d a b s
  | .dp2 p d a b => Sys2Proof.Machine.execDp2 p d a b s
  | .dp2s p d a b => Sys2Proof.Machine.execDp2s p d a b s
  | .mov p d a => Sys2Proof.Machine.execMov p d a s
  | .inot p d a => Sys2Proof.Machine.execInot p d a s
  | .addi p d a i1 => Sys2Proof.Machine.execAddi p d a i1 s
  | .andi p d a i1 => Sys2Proof.Machine.execAndi p d a i1 s
  | .ori p d a i1 => Sys2Proof.Machine.execOri p d a i1 s
  | .xori p d a i1 => Sys2Proof.Machine.execXori p d a i1 s
  | .shli p d a i1 => Sys2Proof.Machine.execShli p d a i1 s
  | .shri p d a i1 => Sys2Proof.Machine.execShri p d a i1 s
  | .sari p d a i1 => Sys2Proof.Machine.execSari p d a i1 s
  | .muli p d a i1 => Sys2Proof.Machine.execMuli p d a i1 s
  | .cmpeqi p d a i1 => Sys2Proof.Machine.execCmpeqi p d a i1 s
  | .cmplti p d a i1 => Sys2Proof.Machine.execCmplti p d a i1 s
  | .movi p d i1 => Sys2Proof.Machine.execMovi p d i1 s
  | .movhi p d i1 => Sys2Proof.Machine.execMovhi p d i1 s
  | .movx p d i1 => Sys2Proof.Machine.execMovx p d i1 s
  | .xmov p a i1 => Sys2Proof.Machine.execXmov p a i1 s
  | .movrd p d i1 => Sys2Proof.Machine.execMovrd p d i1 s
  | .movrw p s1 i1 => Sys2Proof.Machine.execMovrw p s1 i1 s
  | .add64 p d a b => Sys2Proof.Machine.execAdd64 p d a b s
  | .add64w p d a b => Sys2Proof.Machine.execAdd64w p d a b s
  | .sub64 p d a b => Sys2Proof.Machine.execSub64 p d a b s
  | .addi64 p d a i1 => Sys2Proof.Machine.execAddi64 p d a i1 s
  | .lea4 p d a b => Sys2Proof.Machine.execLea4 p d a b s
  | .lea8 p d a b => Sys2Proof.Machine.execLea8 p d a b s
  | .lea16 p d a b => Sys2Proof.Machine.execLea16 p d a b s
  | .mov64 p d a => Sys2Proof.Machine.execMov64 p d a s
  | .wmul p d a b => Sys2Proof.Machine.execWmul p d a b s
  | .wmad p d a b => Sys2Proof.Machine.execWmad p d a b s
  | .shl64 p d a b => Sys2Proof.Machine.execShl64 p d a b s
  | .shr64 p d a b => Sys2Proof.Machine.execShr64 p d a b s
  | .cmplt64 p d a b => Sys2Proof.Machine.execCmplt64 p d a b s
  | .chkb d k b n => Sys2Proof.Machine.execChkb d k b n s
  | .chkr d n => Sys2Proof.Machine.execChkr d n s
  | .chka d s1 e m => Sys2Proof.Machine.execChka d s1 e m s
  | .fadd p d a b => Sys2Proof.Machine.execFadd p d a b s
  | .fsub p d a b => Sys2Proof.Machine.execFsub p d a b s
  | .fmul p d a b => Sys2Proof.Machine.execFmul p d a b s
  | .ffma p d a b => Sys2Proof.Machine.execFfma p d a b s
  | .fmin p d a b => Sys2Proof.Machine.execFmin p d a b s
  | .fmax p d a b => Sys2Proof.Machine.execFmax p d a b s
  | .fminn p d a b => Sys2Proof.Machine.execFminn p d a b s
  | .fmaxn p d a b => Sys2Proof.Machine.execFmaxn p d a b s
  | .fcmpeq p d a b => Sys2Proof.Machine.execFcmpeq p d a b s
  | .fcmplt p d a b => Sys2Proof.Machine.execFcmplt p d a b s
  | .fcmple p d a b => Sys2Proof.Machine.execFcmple p d a b s
  | .fcmpun p d a b => Sys2Proof.Machine.execFcmpun p d a b s
  | .fabs p d a => Sys2Proof.Machine.execFabs p d a s
  | .fneg p d a => Sys2Proof.Machine.execFneg p d a s
  | .fclass p d a => Sys2Proof.Machine.execFclass p d a s
  | .fscale p d a b => Sys2Proof.Machine.execFscale p d a b s
  | .frcp p d a => Sys2Proof.Machine.execFrcp p d a s
  | .frsq p d a => Sys2Proof.Machine.execFrsq p d a s
  | .fsqrt p d a => Sys2Proof.Machine.execFsqrt p d a s
  | .fexp2 p d a => Sys2Proof.Machine.execFexp2 p d a s
  | .flog2 p d a => Sys2Proof.Machine.execFlog2 p d a s
  | .fsin p d a => Sys2Proof.Machine.execFsin p d a s
  | .fcos p d a => Sys2Proof.Machine.execFcos p d a s
  | .ftanh p d a => Sys2Proof.Machine.execFtanh p d a s
  | .frnd p d a => Sys2Proof.Machine.execFrnd p d a s
  | .fdot2 p d a b => Sys2Proof.Machine.execFdot2 p d a b s
  | .cvtf p d a k v => Sys2Proof.Machine.execCvtf p d a k v s
  | .cvtfi p d a k v => Sys2Proof.Machine.execCvtfi p d a k v s
  | .cvtif p d a k v => Sys2Proof.Machine.execCvtif p d a k v s
  | .cvtn p d a s1 k v => Sys2Proof.Machine.execCvtn p d a s1 k v s
  | .cvtw p d a s1 k v => Sys2Proof.Machine.execCvtw p d a s1 k v s
  | .shfl p d a b => Sys2Proof.Machine.execShfl p d a b s
  | .shflup p d a b => Sys2Proof.Machine.execShflup p d a b s
  | .shfldn p d a b => Sys2Proof.Machine.execShfldn p d a b s
  | .shflx p d a b => Sys2Proof.Machine.execShflx p d a b s
  | .vall p d a => Sys2Proof.Machine.execVall p d a s
  | .vany p d a => Sys2Proof.Machine.execVany p d a s
  | .ballot p d a => Sys2Proof.Machine.execBallot p d a s
  | .redadd p d a => Sys2Proof.Machine.execRedadd p d a s
  | .redmin p d a => Sys2Proof.Machine.execRedmin p d a s
  | .redmax p d a => Sys2Proof.Machine.execRedmax p d a s
  | .redand p d a => Sys2Proof.Machine.execRedand p d a s
  | .redor p d a => Sys2Proof.Machine.execRedor p d a s
  | .scan p d a e q => Sys2Proof.Machine.execScan p d a e q s
  | .elect p d => Sys2Proof.Machine.execElect p d s
  | .matchv p d a => Sys2Proof.Machine.execMatchv p d a s
  | .xchg d s1 k n => Sys2Proof.Machine.execXchg d s1 k n s
  | .ldb p d a o => Sys2Proof.Machine.execLdb p d a o s
  | .ldbs p d a o => Sys2Proof.Machine.execLdbs p d a o s
  | .ldh p d a o => Sys2Proof.Machine.execLdh p d a o s
  | .ldhs p d a o => Sys2Proof.Machine.execLdhs p d a o s
  | .ldw p d a o => Sys2Proof.Machine.execLdw p d a o s
  | .ldd p d a o => Sys2Proof.Machine.execLdd p d a o s
  | .ldq p d a o => Sys2Proof.Machine.execLdq p d a o s
  | .stb p d a o => Sys2Proof.Machine.execStb p d a o s
  | .sth p d a o => Sys2Proof.Machine.execSth p d a o s
  | .stw p d a o => Sys2Proof.Machine.execStw p d a o s
  | .std p d a o => Sys2Proof.Machine.execStd p d a o s
  | .stq p d a o => Sys2Proof.Machine.execStq p d a o s
  | .ldwr p d a o => Sys2Proof.Machine.execLdwr p d a o s
  | .ldqr p d a o => Sys2Proof.Machine.execLdqr p d a o s
  | .stnt p d a o => Sys2Proof.Machine.execStnt p d a o s
  | .prefL1 p a o => Sys2Proof.Machine.execPrefL1 p a o s
  | .prefHome p a o => Sys2Proof.Machine.execPrefHome p a o s
  | .ldacq p d a s1 q => Sys2Proof.Machine.execLdacq p d a s1 q s
  | .strel p d a s1 q => Sys2Proof.Machine.execStrel p d a s1 q s
  | .fence s1 q => Sys2Proof.Machine.execFence s1 q s
  | .lds p d a o => Sys2Proof.Machine.execLds p d a o s
  | .sts p d a o => Sys2Proof.Machine.execSts p d a o s
  | .ldsq p d a o => Sys2Proof.Machine.execLdsq p d a o s
  | .stsq p d a o => Sys2Proof.Machine.execStsq p d a o s
  | .ldm d a n => Sys2Proof.Machine.execLdm d a n s
  | .stm d a n => Sys2Proof.Machine.execStm d a n s
  | .lock t a s1 => Sys2Proof.Machine.execLock t a s1 s
  | .unlock t a s1 => Sys2Proof.Machine.execUnlock t a s1 s
  | .aadd p d a s1 q => Sys2Proof.Machine.execAadd p d a s1 q s
  | .amin p d a s1 q => Sys2Proof.Machine.execAmin p d a s1 q s
  | .amax p d a s1 q => Sys2Proof.Machine.execAmax p d a s1 q s
  | .aand p d a s1 q => Sys2Proof.Machine.execAand p d a s1 q s
  | .aor p d a s1 q => Sys2Proof.Machine.execAor p d a s1 q s
  | .axor p d a s1 q => Sys2Proof.Machine.execAxor p d a s1 q s
  | .axchg p d a s1 q => Sys2Proof.Machine.execAxchg p d a s1 q s
  | .acas p d a s1 q => Sys2Proof.Machine.execAcas p d a s1 q s
  | .ainc p d a s1 q => Sys2Proof.Machine.execAinc p d a s1 q s
  | .afadd p d a s1 q => Sys2Proof.Machine.execAfadd p d a s1 q s
  | .afadd2 p d a s1 q => Sys2Proof.Machine.execAfadd2 p d a s1 q s
  | .aadd64 p d a s1 q => Sys2Proof.Machine.execAadd64 p d a s1 q s
  | .acas64 p d a s1 q => Sys2Proof.Machine.execAcas64 p d a s1 q s
  | .sadd p d a s1 q => Sys2Proof.Machine.execSadd p d a s1 q s
  | .scas p d a s1 q => Sys2Proof.Machine.execScas p d a s1 q s
  | .sxchg p d a s1 q => Sys2Proof.Machine.execSxchg p d a s1 q s
  | .bar d b s1 => Sys2Proof.Machine.execBar d b s1 s
  | .bararv b s1 => Sys2Proof.Machine.execBararv b s1 s
  | .barwt d b s1 => Sys2Proof.Machine.execBarwt d b s1 s
  | .barexp n b s1 => Sys2Proof.Machine.execBarexp n b s1 s
  | .waitc l s1 c t => Sys2Proof.Machine.execWaitc l s1 c t s
  | .waitr a => Sys2Proof.Machine.execWaitr a s
  | .hwait a k f => Sys2Proof.Machine.execHwait a k f s
  | .hsetFree h b s1 => Sys2Proof.Machine.execHsetFree h b s1 s
  | .hsetFull h b s1 => Sys2Proof.Machine.execHsetFull h b s1 s
  | .hsetRel h => Sys2Proof.Machine.execHsetRel h s
  | .hsetFill h => Sys2Proof.Machine.execHsetFill h s
  | .ringadvNew d a c => Sys2Proof.Machine.execRingadvNew d a c s
  | .ringadv d a => Sys2Proof.Machine.execRingadv d a s
  | .copy d a b => Sys2Proof.Machine.execCopy d a b s
  | .copym d a b => Sys2Proof.Machine.execCopym d a b s
  | .copys d a b => Sys2Proof.Machine.execCopys d a b s
  | .launch d a => Sys2Proof.Machine.execLaunch d a s
  | .job d a => Sys2Proof.Machine.execJob d a s
  | .jobwt a => Sys2Proof.Machine.execJobwt a s
  | .tbld s1 b k p w => Sys2Proof.Machine.execTbld s1 b k p w s
  | .tmma c a s1 r z => Sys2Proof.Machine.execTmma c a s1 r z s
  | .tmmab c a s1 r z => Sys2Proof.Machine.execTmmab c a s1 r z s
  | .tmmap c a s1 r z => Sys2Proof.Machine.execTmmap c a s1 r z s
  | .taccz c n p => Sys2Proof.Machine.execTaccz c n p s
  | .taccld d c m p => Sys2Proof.Machine.execTaccld d c m p s
  | .taccst s1 c k p => Sys2Proof.Machine.execTaccst s1 c k p s
  | .trel => Sys2Proof.Machine.execTrel s
  | .trelArray => Sys2Proof.Machine.execTrelArray s
  | .clock d => Sys2Proof.Machine.execClock d s
  | .perf d n => Sys2Proof.Machine.execPerf d n s
  | .eret => Sys2Proof.Machine.execEret s
  | .traprd d n => Sys2Proof.Machine.execTraprd d n s
  | .segq d a => Sys2Proof.Machine.execSegq d a s
  | .bkpt n => Sys2Proof.Machine.execBkpt n s
  | .sleepExpiry core slot fid => Sys2Proof.Machine.execSleepExpiry core slot fid s
  | .warpEnd core slot => Sys2Proof.Machine.execWarpEnd core slot s
  | .loadReply op => Sys2Proof.Machine.execLoadReply op s
  | .storePerformed op => Sys2Proof.Machine.execStorePerformed op s
  | .lockHandoverReply core slot fid => Sys2Proof.Machine.execLockHandoverReply core slot fid s
  | .lockRetry core slot fid => Sys2Proof.Machine.execLockRetry core slot fid s
  | .lockWaiterWake lockWord => Sys2Proof.Machine.execLockWaiterWake lockWord s
  | .copyAccept id => Sys2Proof.Machine.execCopyAccept id s
  | .copyLinePerformed id line => Sys2Proof.Machine.execCopyLinePerformed id line s
  | .copyComplete id => Sys2Proof.Machine.execCopyComplete id s
  | .mergeEntryClose entry => Sys2Proof.Machine.execMergeEntryClose entry s
  | .xchgMatch core slot partnerCore partnerSlot => Sys2Proof.Machine.execXchgMatch core slot partnerCore partnerSlot s
  | .tbldLatch core half => Sys2Proof.Machine.execTbldLatch core half s
  | .tileRetire core half => Sys2Proof.Machine.execTileRetire core half s
  | .tmmapFollowerTimeout core => Sys2Proof.Machine.execTmmapFollowerTimeout core s
  | .jobComplete task => Sys2Proof.Machine.execJobComplete task s
  | .linkStackRefill core slot => Sys2Proof.Machine.execLinkStackRefill core slot s
  | .comparisonPoint team => Sys2Proof.Machine.execComparisonPoint team s
  | .redundantWaitTimeout team => Sys2Proof.Machine.execRedundantWaitTimeout team s
  | .translationWalkComplete quad world page => Sys2Proof.Machine.execTranslationWalkComplete quad world page s
  | .remoteTimeout op => Sys2Proof.Machine.execRemoteTimeout op s
  | .demandFetch core slot fid => Sys2Proof.Machine.execDemandFetch core slot fid s
  | .fetchAhead core world line => Sys2Proof.Machine.execFetchAhead core world line s
  | .trapEntry core slot => Sys2Proof.Machine.execTrapEntry core slot s
  | .impreciseFaultTake core slot => Sys2Proof.Machine.execImpreciseFaultTake core slot s
  | .faultLogAck => Sys2Proof.Machine.execFaultLogAck s
  | .quantumExpiry team => Sys2Proof.Machine.execQuantumExpiry team s
  | .teamPlace die => Sys2Proof.Machine.execTeamPlace die s
  | .dieAdvertise die => Sys2Proof.Machine.execDieAdvertise die s
  | .migrationMessage id => Sys2Proof.Machine.execMigrationMessage id s
  | .migrationConfirmTimeout id => Sys2Proof.Machine.execMigrationConfirmTimeout id s
  | .taskComplete task => Sys2Proof.Machine.execTaskComplete task s
  | .kick queue tail => Sys2Proof.Machine.execKick queue tail s
  | .queueEnWrite queue value => Sys2Proof.Machine.execQueueEnWrite queue value s
  | .lapReread queue => Sys2Proof.Machine.execLapReread queue s
  | .queueLapTimeout queue => Sys2Proof.Machine.execQueueLapTimeout queue s
  | .packetNop queue => Sys2Proof.Machine.execPacketNop queue s
  | .packetLaunch queue => Sys2Proof.Machine.execPacketLaunch queue s
  | .packetJob queue => Sys2Proof.Machine.execPacketJob queue s
  | .packetFence queue => Sys2Proof.Machine.execPacketFence queue s
  | .packetSignal queue => Sys2Proof.Machine.execPacketSignal queue s
  | .packetWaitev queue => Sys2Proof.Machine.execPacketWaitev queue s
  | .waitevReread queue => Sys2Proof.Machine.execWaitevReread queue s
  | .msixUnmask fn vector => Sys2Proof.Machine.execMsixUnmask fn vector s
  | .aduKick world => Sys2Proof.Machine.execAduKick world s
  | .aduSlotReread world => Sys2Proof.Machine.execAduSlotReread world s
  | .aduRequestConsume world => Sys2Proof.Machine.execAduRequestConsume world s
  | .admissionComplete world => Sys2Proof.Machine.execAdmissionComplete world s
  | .worldSet => Sys2Proof.Machine.execWorldSet s
  | .map2 => Sys2Proof.Machine.execMap2 s
  | .unmap2 => Sys2Proof.Machine.execUnmap2 s
  | .inval => Sys2Proof.Machine.execInval s
  | .teardown => Sys2Proof.Machine.execTeardown s
  | .ploughPageClean die => Sys2Proof.Machine.execPloughPageClean die s
  | .ploughTimeout die => Sys2Proof.Machine.execPloughTimeout die s
  | .ploughRestart die => Sys2Proof.Machine.execPloughRestart die s
  | .geninc value => Sys2Proof.Machine.execGeninc value s
  | .vdevRegWrite vdev high value => Sys2Proof.Machine.execVdevRegWrite vdev high value s
  | .vdevDisable vdev => Sys2Proof.Machine.execVdevDisable vdev s
  | .vfEnableClear => Sys2Proof.Machine.execVfEnableClear s
  | .dbgenWrite value => Sys2Proof.Machine.execDbgenWrite value s
  | .resume value => Sys2Proof.Machine.execResume value s
  | .faultLogEnable value => Sys2Proof.Machine.execFaultLogEnable value s
  | .registerWrite fn offset value => Sys2Proof.Machine.execRegisterWrite fn offset value s
  | .hostWindowAccess member offset write value => Sys2Proof.Machine.execHostWindowAccess member offset write value s
  | .sessionLockWrite port value => Sys2Proof.Machine.execSessionLockWrite port value s
  | .sessionTimeout => Sys2Proof.Machine.execSessionTimeout s
  | .readLife port => Sys2Proof.Machine.execReadLife port s
  | .readState port target => Sys2Proof.Machine.execReadState port target s
  | .stageFw port image => Sys2Proof.Machine.execStageFw port image s
  | .activateFw port => Sys2Proof.Machine.execActivateFw port s
  | .fwUnitMove unit result => Sys2Proof.Machine.execFwUnitMove unit result s
  | .lifetimeAccumulate sample => Sys2Proof.Machine.execLifetimeAccumulate sample s
  | .lifetimeCommit => Sys2Proof.Machine.execLifetimeCommit s
  | .orderlyShutdown => Sys2Proof.Machine.execOrderlyShutdown s
  | .getVersion req => Sys2Proof.Machine.execGetVersion req s
  | .getCapabilities req => Sys2Proof.Machine.execGetCapabilities req s
  | .negotiateAlgorithms req => Sys2Proof.Machine.execNegotiateAlgorithms req s
  | .getDigests req => Sys2Proof.Machine.execGetDigests req s
  | .getCertificate req => Sys2Proof.Machine.execGetCertificate req s
  | .challenge req => Sys2Proof.Machine.execChallenge req s
  | .getMeasurements req => Sys2Proof.Machine.execGetMeasurements req s
  | .keyExchange req => Sys2Proof.Machine.execKeyExchange req s
  | .finish req => Sys2Proof.Machine.execFinish req s
  | .endSession req => Sys2Proof.Machine.execEndSession req s
  | .coldReset => Sys2Proof.Machine.execColdReset s
  | .functionLevelReset => Sys2Proof.Machine.execFunctionLevelReset s
  | .hotReset => Sys2Proof.Machine.execHotReset s
  | .mctpEndpointLoss port => Sys2Proof.Machine.execMctpEndpointLoss port s
  | .securityCoreRestart up => Sys2Proof.Machine.execSecurityCoreRestart up s
  | .dieTrained die => Sys2Proof.Machine.execDieTrained die s
  | .linkTrained link farIndex => Sys2Proof.Machine.execLinkTrained link farIndex s
  | .trainingDeadline => Sys2Proof.Machine.execTrainingDeadline s
  | .structureError report => Sys2Proof.Machine.execStructureError report s
  | .packetTagFailure packet => Sys2Proof.Machine.execPacketTagFailure packet s
  | .linkRetrain link => Sys2Proof.Machine.execLinkRetrain link s
  | .replicaPin task => Sys2Proof.Machine.execReplicaPin task s
  | .sledInject task => Sys2Proof.Machine.execSledInject task s
  | .sledSteer sled => Sys2Proof.Machine.execSledSteer sled s
  | .sledAccept sled => Sys2Proof.Machine.execSledAccept sled s
  | .ringRefill core => Sys2Proof.Machine.execRingRefill core s
  | .sledAdmit core => Sys2Proof.Machine.execSledAdmit core s
  | .replicationWatch task segment => Sys2Proof.Machine.execReplicationWatch task segment s
  | .sledTimeout sled => Sys2Proof.Machine.execSledTimeout sled s
  | .hostMemoryAccess access => Sys2Proof.Machine.execHostMemoryAccess access s
  | .scoreboardRelease core slot hold => Sys2Proof.Machine.execScoreboardRelease core slot hold s
  | .entryCacheFill core slot => Sys2Proof.Machine.execEntryCacheFill core slot s
  | .linkRetrainDone link ok => Sys2Proof.Machine.execLinkRetrainDone link ok s
  | .secondStageBuilt => Sys2Proof.Machine.execSecondStageBuilt s
  | .testStart => Sys2Proof.Machine.execTestStart s
  | .powerLoss => Sys2Proof.Machine.execPowerLoss s

end Sys2Proof.Machine
end

