-- ==== Sys2Proof/Machine/Internal.lean ====
section
/-! DEFINITION. The pending actions of the package's own agents (replies, completions, entries, the front end, the admission
unit, the security core), and the one that goes ahead when no fragment is ready and nothing comes from outside.  The spec
leaves their order to the implementation (95_what_each_step_holds.md); an input of the state brings any of them at any time, and only what takes a
stated time to fail (a timeout, a quantum) or is another party's act comes by inputs alone. -/

namespace Sys2Proof.Machine

open Sys2Proof

/-! ## Warps -/

/-- What a waiting fragment's own events are (R162, R165, R220). -/
def fragPending (w : Warp) (f : Frag) : List (State → Out) :=
  match f.wait with
  | .sleep _ => [execSleepExpiry w.core w.slot f.id]
  | .lockRetry _ => [execLockRetry w.core w.slot f.id]
  | .lockSent _ _ _ => [execLockRetry w.core w.slot f.id]
  | .linkRefill _ => [execLinkStackRefill w.core w.slot]
  | .entryMiss _ => [execEntryCacheFill w.core w.slot]
  | _ => []

/-- A waiting XCHG whose partner waits for it (R199). -/
def xchgPending (s : State) (w : Warp) : List (State → Out) :=
  match w.xchg with
  | none => []
  | some x =>
    match xchgPartner s w x.region with
    | none => []
    | some j =>
      let u := s.warps.getD j {}
      match u.xchg with
      | none => []
      | some y =>
        if x.ordinal == y.ordinal && xchgPartner s u y.region == some (warpAt s w.core w.slot) then
          [execXchgMatch w.core w.slot u.core u.slot]
        else []

/-- Whether a warp that has no lane left, or is halted, has still to end (R164). -/
def endsSoon (w : Warp) : Bool := !w.ended && (w.halted || (w.frags.isEmpty && w.pending.isEmpty && w.trap.isNone))

/-- The events of one warp. -/
def warpPending (s : State) (w : Warp) : List (State → Out) :=
  ((w.holds.filter fun h => byLatency s h.id).map fun h => execScoreboardRelease w.core w.slot h.id) ++
    (if w.trap.isSome && settled w then [execTrapEntry w.core w.slot] else []) ++
    w.frags.flatMap (fragPending w) ++ xchgPending s w ++
    (if endsSoon w then [execWarpEnd w.core w.slot] else [])

/-! ## Accesses, copies and arrays -/

/-- A load, store or atomic whose reply comes (R205). -/
def opPending (s : State) (o : Op) : List (State → Out) :=
  if !replyComes s o then []
  else
    match o.ctr with
    | .ld => [execLoadReply o.id]
    | .st => if o.stnt && (stntPending s).contains o.id then [] else [execStorePerformed o.id]
    | _ => []

/-- A lock word's waiters (R220, R221). -/
def waiterPending (x : Waiter) : List (State → Out) :=
  if x.granted then [execLockHandoverReply x.core x.slot x.frag]
  else if x.woken then [execLockWaiterWake x.word]
  else []

/-- A copy's next action (R237, R238). -/
def copyPending (s : State) (c : Copy) : List (State → Out) :=
  if !c.accepted then (if queuedBefore s c then [] else [execCopyAccept c.id])
  else if c.lines.isEmpty then (if c.owed.isEmpty then [execCopyComplete c.id] else [])
  else ((c.lines.filter fun l => lineReady s c l && !lineLost s c.id l).take 1).map fun l => execCopyLinePerformed c.id l

/-- An array's oldest instruction (R244, R246). -/
def arrayPending (a : Array) : List (State → Out) :=
  match a.queue, a.follower with
  | o :: _, false => if o.isLoad then [execTbldLatch a.core a.half] else [execTileRetire a.core a.half]
  | _, _ => []

/-! ## Work -/

/-- A redundant team whose copies stand where they can be compared (R44). -/
def teamPending (s : State) (t : Team) : List (State → Out) :=
  (match if t.copy == 0 then copiesOf s t.id else none with
    | some (a, b) => if !t.ended && comparable s a b then [execComparisonPoint t.id] else []
    | none => []) ++
    (if savingTeam s t.id || (taskAt s t.task).saving then [execQuantumExpiry t.id] else [])

/-- What a slot of the task table waits for. -/
def taskPending (s : State) (i : Nat) : List (State → Out) :=
  let k := taskAt s i
  match k.body with
  | .job _ => if k.state == .running then [execJobComplete i] else []
  | .launch l =>
    if k.state == .free || k.state == .held then []
    else if k.state == .running then
      (if k.ended == l.grid && !(s.teams.any fun t => t.task == i) then [execTaskComplete i] else [])
    else if l.travelling then [execReplicaPin i, execSledInject i]
    else []

/-- The dies whose distributors have work (R293). -/
def placePending (s : State) : List (State → Out) :=
  if s.suspended.isEmpty && s.tasks.all fun k => k.state == .free then []
  else
    (allDies.filter fun d => (turnTask s d).isSome || (distribute s d).isSome).map fun d => execTeamPlace d

/-! ## Travelling warps (R307 to R316) -/

/-- A sled on its way. -/
def sledPending (s : State) (x : Sled) : List (State → Out) :=
  if sledLost s x.id then [] else if x.dest.isNone then [execSledSteer x.id] else [execSledAccept x.id]

/-- A pinned core's queue and ring. -/
def pinPending (p : Pin) : List (State → Out) :=
  (if p.queue.length < 8 then [execRingRefill p.core] else []) ++ (if p.queue.isEmpty then [] else [execSledAdmit p.core])

/-! ## The front end, the admission unit, the security core, the Plough, the bridge -/

/-- The event that serves a packet of a kind (R285). -/
def packetEvent (queue kind : Nat) : State → Out :=
  if kind == 1 then execPacketLaunch queue
  else if kind == 2 then execPacketJob queue
  else if kind == 3 then execPacketWaitev queue
  else if kind == 4 then execPacketSignal queue
  else if kind == 5 then execPacketFence queue
  else execPacketNop queue

/-- What a queue reads again in its own time (R284, R285, R431). -/
def queuePending (s : State) (i : Nat) : List (State → Out) :=
  match (s.queues.getD i {}).waiting, readPacket s i with
  | _, .idle => []
  | .lap n, _ => if 64 ≤ n then [execQueueLapTimeout i] else [execLapReread i]
  | .event, _ => [execWaitevReread i]
  | _, _ => []

/-- The turn of the queue that the front end serves next (R284). -/
def turnPending (s : State) : List (State → Out) :=
  match cfeTurn s with
  | none => []
  | some i =>
    match readPacket s i with
    | .packet p _ => [packetEvent i p.kind]
    | _ => [execPacketNop i]

/-- The admission unit's turn at a world's ring (R72). -/
def ringPending (s : State) (world : Nat) : List (State → Out) :=
  match aduSlot s world with
  | .valid _ _ => [execAduRequestConsume world]
  | .unread => [execAduSlotReread world]
  | .idle => []
  | .waiting _ => []

/-- The security core's running command, and worlds to be torn down (R336, R437). -/
def boxPending (s : State) : List (State → Out) :=
  let b := s.box
  let run : List (State → Out) :=
    if !b.busy || b.own.isSome || !(serves s 0 || s.deadlinePast) then []
    else if b.op == 1#8 then [execWorldSet]
    else if b.op == 2#8 then [execMap2]
    else if b.op == 3#8 then [execUnmap2]
    else if b.op == 4#8 then [execInval]
    else [execTeardown]
  run ++ (if b.own.isSome || (!b.busy && s.secUp && (condemnedWorld s).isSome) then [execTeardown] else [])

/-- The dies that MAP2 may wait on for clean pages (R70). -/
def wantedDies (s : State) : List Nat :=
  if s.box.busy && s.box.started && s.box.op == 2#8 then
    allDies.filter fun d => serves s d && (s.box.arg0.toNat % 256 == 0xFF || s.box.arg0.toNat % 256 == d)
  else []

/-- The Ploughs' turns: queued pages, and pages that a MAP2 waits for (R70). -/
def ploughPending (s : State) : List (State → Out) :=
  (allDies.filter fun d => !s.ploughDown.contains d && ((s.scrub.any fun p => pageDie p == d) ||
    ((wantedDies s).contains d && decide (look s.fresh d 0 < dieFrames)))).map fun d => execPloughPageClean d

/-- Every pending action. -/
def pendingActions (s : State) : List (State → Out) :=
  s.warps.flatMap (warpPending s) ++ s.ops.flatMap (opPending s) ++ s.waiters.flatMap waiterPending ++
    s.copies.flatMap (copyPending s) ++ (s.merges.filter fun m => m.isOver s).map (fun m => execMergeEntryClose m.id) ++ s.arrays.flatMap arrayPending ++
    s.walks.map (fun k => execTranslationWalkComplete k.quad k.world k.page) ++ s.teams.flatMap (teamPending s) ++
    (List.range 512).flatMap (taskPending s) ++ placePending s ++ s.messages.map (fun m => execMigrationMessage m.id) ++
    s.sleds.flatMap (sledPending s) ++ s.pins.flatMap pinPending ++ (List.range 256).flatMap (queuePending s) ++ turnPending s ++
    (List.range 64).flatMap (ringPending s) ++ (if aduServes s then s.adu.map fun j => execAdmissionComplete j.world else []) ++
    boxPending s ++ ploughPending s ++ (if s.log.waiting.isEmpty then [] else [execFaultLogAck])

/-- The pending action that goes ahead: each in its turn. (Log 2: DESIGN CHOICE, unsafe; 4: DESIGN CHOICE, safe.) -/
def nextInternal (s : State) : Option (State → Out) :=
  let acts := pendingActions s
  acts[s.tick / 2 % acts.length]?

end Sys2Proof.Machine
end

