-- ==== Sys2Proof/Machine/Place.lean ====
section
/-! DEFINITION. A single warp placed with an instruction's words at its PC: the load of a program from outside that the
host's question needs. -/

namespace Sys2Proof.Machine

open Sys2Proof

/-- The launch of the placed warp: one vector warp of 256 registers in world 0. (Log 5: DESIGN CHOICE, unsafe.) -/
def bareLaunch : Launch := { regs := 256, slots := List.replicate 8 {}, regions := List.replicate 16 {}, params := List.replicate 16 0 }

/-- The task of the placed warp. -/
def bareTask : Task := { state := .running, body := .launch bareLaunch, placed := 1, nextTeam := 1 }

/-- The team of the placed warp, on core 0. -/
def bareTeam : Team := { perf := List.replicate 11 0 }

/-- The placed warp, in slot 0 of core 0, with one fragment at the given PC and the start values of Table EXEC.1. -/
def bareWarp (pc : Pc) : Warp :=
  { frags := [{ pc := pc }], regs := List.replicate 256 zeroRow, tokens := List.replicate 8 {} }

/-- The address the words are placed at. -/
def barePc : Pc := 0x1000#57

/-- The I-cache line that holds the words, NOPs after them. -/
def bareLine (w0 w1 : Word) : ILine :=
  { core := 0, world := 0, base := 0x1000, words := [w0, w1] ++ List.replicate 14 0x01000000#32 }

/-- The state with that warp alone on core 0 and core 0's issue opportunity next. (Log 5: DESIGN CHOICE, unsafe.) -/
def placeWords (s : State) (w0 w1 : Word) : State :=
  { s with
    inputs := [.issue 0]
    tasks := s.tasks.set 0 bareTask
    teams := bareTeam :: s.teams.filter fun t => t.core != 0 && t.id != 0
    warps := bareWarp barePc :: s.warps.filter fun w => w.core != 0 && w.team != 0
    ilines := bareLine w0 w1 :: s.ilines.filter fun x => !(x.core == 0 && x.world == 0 && x.base == 0x1000) }

end Sys2Proof.Machine
end

