-- ==== Sys2Proof/Machine/Step.lean ====
section
/-! DEFINITION. One step of the package: an action that comes from outside, an issue opportunity of a core, or a pending
action of another agent; and the state in which the next step issues a given word. -/

namespace Sys2Proof.Machine

open Sys2Proof

/-- Time passes by an amount the spec does not fix (R173, R256), and the teams count the clocks that their warps wait. (Log 3: DESIGN CHOICE, safe.) -/
def passTime (s : State) : State :=
  { countWaits (Config.stepClk s.tick) s with
    tick := s.tick + 1, now := s.now + Config.stepNs s.tick, clk := s.clk + Config.stepClk s.tick }

/-- An issue opportunity carried out. -/
def runTurn (s : State) (core : Nat) : Out :=
  match turnOf s core with
  | .idle => .next s
  | .take s slot => execImpreciseFaultTake core slot s
  | .fetch s slot fid => execDemandFetch core slot fid s
  | .bad s => .next s
  | .run i s => exec i (runAhead i s)

/-- What comes before every step's action: time passes, the caches settle, and the departing warps whose wait is over leave (R309). -/
def beforeStep (s : State) : State := departAll (settleCaches (passTime s))

/-- What goes ahead where nothing comes from outside: a core's issue opportunity and a pending action of another agent take turns, and
either goes ahead where the other has nothing to do, so that neither starves the other (R50). -/
def ownAction (s : State) : Out :=
  match s.tick % 2, readyCore s, nextInternal s with
  | 0, _, some act => act s
  | _, some core, _ => runTurn s core
  | _, none, some act => act s
  | _, none, none => .next s

/-- The action of a step. (Log 1: DESIGN CHOICE, safe; 2: DESIGN CHOICE, unsafe.) -/
def stepAction (s : State) : Host.Outcome State Fault Refusal :=
  match s.inputs with
  | .event i :: rest => exec i { s with inputs := rest }
  | .issue core :: rest => runTurn { s with inputs := rest } core
  | .mask fn vector :: rest => .next (maskVector { s with inputs := rest } fn vector)
  | [] => ownAction s

/-- One step. -/
def step (s : State) : Host.Outcome State Fault Refusal := stepAction (beforeStep s)

/-- The state in which the next step fetches and runs the instruction whose bits are `w` (the opcode table's
numbering). (Log 5: DESIGN CHOICE, unsafe.) -/
def State.withFetchWord (s : State) (nbits w : Nat) : State :=
  let v := w % 2 ^ nbits
  placeWords s (BitVec.ofNat 32 v) (BitVec.ofNat 32 (v / 2 ^ 32))

end Sys2Proof.Machine
end

