-- ==== Sys2Proof/Safety.lean ====
section
/-! DEFINITION. The words that statements about this machine use: a step that runs, an invariant that steps keep, an
instruction that retires with nothing changed but what it names (its frame), and lane results. -/

namespace Sys2Proof.Safety

open Sys2Proof Sys2Proof.Machine

/-- The step answers a next state. -/
def Runs (s : State) : Prop := ∃ t, step s = .next t

/-- A property that every step which answers a next state keeps. -/
def KeptByStep (p : State → Prop) : Prop := ∀ s t, p s → step s = .next t → p t

/-! ## Where an instruction issues -/

/-- The cursor stands on a fragment of a warp whose register file is whole (R24, R26). -/
structure Issuing (s : State) : Prop where
  warp : s.cur.warp < s.warps.length
  frag : s.cur.frag < (me s).frags.length
  regs : (me s).regs.length = 256

/-- Neither poison of the guard (R374) nor a register outside the warp (R390) stops the instruction. -/
structure Calm (p : Option Pfx) (named : List Nat) (s : State) : Prop where
  guard : guardPoison p (me s) (fr s) = 0#32
  inside : ∀ r ∈ named ++ guardRegs p (me s), regInside (launchOf s (me s)).regs r = true

/-- The same for a word that ignores the guard (R125). -/
def Inside (named : List Nat) (s : State) : Prop := ∀ r ∈ named, regInside (launchOf s (me s)).regs r = true

/-- No lane of a set holds poison in some registers. -/
def Clean (m : Word) (rs : List Nat) (s : State) : Prop := ∀ r ∈ rs, poisonMask (regOf (me s) r) m = 0#32

/-! ## Frames -/

/-- What of a fragment an instruction that goes on leaves alone. -/
def fragRest (f : Frag) : Frag := { f with pc := 0, wait := .none, compared := false }

/-- What of a warp an instruction that writes registers leaves alone: FLAGS, MODE, the counters, the link stack, CLOCKHI, the
tokens, the trap registers and whatever else is not named here. -/
def warpRest (w : Warp) : Warp :=
  { w with regs := [], dirty := 0, holds := [], frags := [], departing := false, blocked := false, leftAt := 0 }

/-- What of the package it leaves alone, memory apart: everything but the warps, the issue counts of the teams and the next
number that the model gives. -/
def packageRest (s : State) : State :=
  { s with warps := [], nextId := 0, mem := {}, teams := s.teams.map fun t => { t with perf := ((t.perf.set 0 0).set 1 0).set 2 0 } }

/-- `t` is `s` after the issuing instruction has gone on to `pc` with no register written but `rs`. -/
structure GoesTo (pc : Pc) (rs : List Nat) (s t : State) : Prop where
  pc : (fr t).pc = pc
  ready : (fr t).wait = .none
  frag : fragRest (fr t) = fragRest (fr s)
  frags : ∀ j, j ≠ s.cur.frag → (me t).frags[j]? = (me s).frags[j]?
  regs : ∀ r, r ∉ rs → regOf (me t) r = regOf (me s) r
  dirty : (me t).dirty = rs.foldl (fun m r => m ||| dirtyBit r) (me s).dirty
  warp : warpRest (me t) = warpRest (me s)
  warps : ∀ i, i ≠ s.cur.warp → t.warps[i]? = s.warps[i]?
  stays : (launchOf s (me s)).travelling = false →
    (me t).departing = (me s).departing ∧ (me t).blocked = (me s).blocked ∧ (me t).leftAt = (me s).leftAt
  mem : ∀ a, t.mem.get a = s.mem.get a
  poison : ∀ a, t.mem.bad a = s.mem.bad a
  package : packageRest t = packageRest s

/-- `t` is `s` after the issuing instruction has gone on to the next one with no register written but `rs`. -/
def Retired (rs : List Nat) (s t : State) : Prop := GoesTo (nextPc s) rs s t

/-! ## Lane results -/

/-- Lane `l` of register `r` of the issuing warp. -/
def lane (s : State) (r l : Nat) : Lane := laneAt (regOf (me s) r) l

/-- WriteDest (R124) has put `v` into register `d`: the active lanes hold it, the zeroed ones 0, the others what they held. -/
def Wrote (p : Option Pfx) (s t : State) (d : Nat) (v : Nat → Lane) : Prop :=
  ∀ l, l < 32 → lane t d l = if inMask (act p s) l then v l else if inMask (zer p s) l then {} else lane s d l

/-- A lane computed from source lanes: the poison pattern where any of them is poisoned (R401). -/
def from1 (x : Lane) (f : Word → Word) : Lane := if x.poison then poisoned else clean (f x.val)
def from2 (x y : Lane) (f : Word → Word → Word) : Lane := if x.poison || y.poison then poisoned else clean (f x.val y.val)
def from3 (x y z : Lane) (f : Word → Word → Word → Word) : Lane :=
  if x.poison || y.poison || z.poison then poisoned else clean (f x.val y.val z.val)

/-- Instruction `i` names registers `named`, reads what it needs of the state, and writes register `d` alone, lane by lane. -/
def WritesOne (i : Instr) (p : Option Pfx) (named : List Nat) (d : Nat) (v : State → Nat → Lane) : Prop :=
  ∀ s, Issuing s → Calm p named s → ∃ t, exec i s = .next t ∧ Retired [d] s t ∧ Wrote p s t d (v s)

/-- The same with a register pair `d`, `d + 1`, low word first (R1). -/
def WritesPair (i : Instr) (p : Option Pfx) (named : List Nat) (d : Nat) (lo hi : State → Nat → Lane) : Prop :=
  ∀ s, Issuing s → Calm p named s →
    ∃ t, exec i s = .next t ∧ Retired [d, d + 1] s t ∧ Wrote p s t d (lo s) ∧ Wrote p s t (d + 1) (hi s)

/-- The flags that the clean active lanes of a computation raise (R148, R400). -/
def raised (p : Option Pfx) (srcs : List Nat) (g : Nat → Word × BitVec 5) (s : State) : BitVec 5 :=
  ((lanesOf (act p s)).filter fun l => srcs.all fun r => !(lane s r l).poison).foldl (fun fl l => fl ||| (g l).2) 0

/-- Instruction `i` writes register `d` lane by lane and raises sticky flags (R28), and does nothing else. -/
def WritesRaising (i : Instr) (p : Option Pfx) (named : List Nat) (d : Nat) (fl : State → BitVec 5) (v : State → Nat → Lane) :
    Prop :=
  ∀ s, Issuing s → Calm p named s →
    ∃ t, exec i s = .next t ∧ Retired [d] (raiseFlags (fl s) s) t ∧ Wrote p s t d (v s)

/-- Instruction `i` computes register `d` lane by lane from the registers `srcs`, with the flags of the clean active lanes. -/
def WritesFloat (i : Instr) (p : Option Pfx) (named : List Nat) (d : Nat) (srcs : List Nat) (g : State → Nat → Word × BitVec 5) :
    Prop :=
  WritesRaising i p named d (fun s => raised p srcs (g s) s) fun s l =>
    if srcs.any (fun r => (lane s r l).poison) then poisoned else clean (g s l).1

/-! ## Accesses -/

/-- Nothing stops an access of the active lanes: no poison in the address pair of an active lane, every address a multiple of the
size, every lane's access translated and permitted, and no place of it in a tile that an array works on (R374, R392, R409, R60). -/
structure Reaches (p : Option Pfx) (named : List Nat) (areg : Nat) (addr : Nat → Nat) (size : Nat) (need : Need) (atomic : Bool)
    (s : State) : Prop where
  calm : Calm p named s
  clean : Clean (act p s) [areg, areg + 1] s
  aligned : ∀ l, l < 32 → inMask (act p s) l = true → addr l % size = 0
  spots : ∀ l, l < 32 → inMask (act p s) l = true → ∃ sp, spotOf s (me s) (addr l) need atomic = .ok sp
  tiles : atomic = false → tilesFree s (windowPlaces s (me s) (act p s) addr need) size = true

/-- What of the package an access to memory leaves alone: all but the caches, the TLBs, the buffers, the counts of L1 lines and the
operations in flight. -/
def accessRest (s : State) : State :=
  { packageRest s with
    teams := s.teams.map fun t => { t with perf := (List.range 5).foldl (fun p k => p.set k 0) t.perf }
    ops := [], l1 := [], wcb := [], sharers := [], gateways := [], tlb := [], waiters := [], tenantSlots := [] }

/-- `t` is `s` after the issuing instruction has gone on with an access: no register, no other warp and nothing but the
memory system has changed, and the issuing warp's other state is that of `w`. -/
structure Accessed (w : Warp) (s t : State) : Prop where
  pc : (fr t).pc = nextPc s
  ready : (fr t).wait = .none
  frags : ∀ j, j ≠ s.cur.frag → (me t).frags[j]? = (me s).frags[j]?
  regs : ∀ r, regOf (me t) r = regOf (me s) r
  warp : warpRest (me t) = warpRest w
  warps : ∀ i, i ≠ s.cur.warp → t.warps[i]? = s.warps[i]?
  package : accessRest t = accessRest s

/-- Home memory is what it was. -/
def HomeKept (s t : State) : Prop := ∀ a, t.mem.get a = s.mem.get a ∧ t.mem.bad a = s.mem.bad a

/-- What an access of a core finds in the byte at a machine address: the byte and its word's poison. -/
def seen (s : State) (core a : Nat) : List Byte × Bool := (coreRead s core a 1 .norm).2

/-- A word as a core reads it, as a lane. -/
def seenWord (s : State) (core a : Nat) : Lane :=
  let r := (coreRead s core a 4 .norm).2
  if r.2 then poisoned else clean (wordIn r.1 0)

/-- Register `i` of what a load of `size` bytes receives from where it lands. -/
def loadedFrom (s : State) (sp : Spot) (size : Nat) (ext : Nat → Word) (i : Nat) : Lane :=
  if size < 4 then
    let r := (readSpot s (me s) sp size .norm).2
    if r.2 then poisoned else clean (ext (ofBytes r.1))
  else
    let r := (readSpot s (me s) (sp.plus (4 * i)) 4 .norm).2
    if r.2 then poisoned else clean (wordIn r.1 0)

/-- The write-combining buffers are empty, and every L1 line holds its bytes in canonical form, its words whole or not at all, and, where it holds
a part of the line, dirty bytes alone, so that a fetch replaces none that it holds (R462). (Log 12: DESIGN CHOICE, safe.) -/
structure Settled (s : State) : Prop where
  buffer : s.wcb = []
  canonical : ∀ x ∈ s.l1, x.data.wf = true
  words : ∀ x ∈ s.l1, ∀ b, b < 128 → x.present.getLsbD b = x.present.getLsbD (b / 4 * 4)
  fresh : ∀ x ∈ s.l1, x.present = allBytes ∨ x.present = x.dirty

/-- Two ranges of bytes touch no common word. -/
def Apart (a n b m : Nat) : Prop := (a + n - 1) / 4 < b / 4 ∨ (b + m - 1) / 4 < a / 4

/-- The newest operation in flight writes rows `rows` to registers from `d` on, in the lanes of the instruction. -/
def InFlight (d n : Nat) (a z : Word) (row : Nat → Nat → Lane) (t : State) : Prop :=
  ∃ o, t.ops.getLast? = some o ∧ o.ctr = .ld ∧ o.active = a ∧ o.zero = z ∧ o.writes.map (·.1) = regRun d n ∧
    ∀ i, i < n → ∃ r, o.writes[i]? = some (d + i, r) ∧ ∀ l, l < 32 → inMask a l = true → laneAt r l = row i l

end Sys2Proof.Safety
end

