-- ==== Sys2Proof/Certificates/Slice0/Obligations.lean ====
section
/-! DEFINITION. The statements for the provers, family by family in the order of the opcode table, then the machine's
events.  A table lists, for each instruction of a shape, the function that the spec gives it. -/

open Sys2Proof Sys2Proof.Machine Sys2Proof.Safety

/-! ## Integer arithmetic and moves (spec/07) -/

/-- The instructions of two sources and one destination, with their functions of a lane (Table ISAI.2, R167 to R171). -/
def Sys2Proof.Claims.binaryTable (p : Option Pfx) (d a b : BitVec 8) : List (Instr × (State → Word → Word → Word)) :=
  [ (.add p d a b, fun s => elem2 (myEt s) (mySat s) (· + ·)),
    (.sub p d a b, fun s => elem2 (myEt s) (mySat s) (· - ·)),
    (.mul p d a b, fun s => elem2 (myEt s) (mySat s) (· * ·)),
    (.mulh p d a b, fun s => mulHigh (myEt s)),
    (.iand p d a b, fun _ x y => x &&& y),
    (.ior p d a b, fun _ x y => x ||| y),
    (.ixor p d a b, fun _ x y => x ^^^ y),
    (.shl p d a b, fun s => shiftLeft (myEt s)),
    (.shr p d a b, fun s => shiftRight (myEt s)),
    (.sar p d a b, fun s => shiftArith (myEt s)),
    (.imin p d a b, fun s => elem2 (myEt s) false min),
    (.imax p d a b, fun s => elem2 (myEt s) false max),
    (.cmpeq p d a b, fun _ x y => if x = y then 1 else 0),
    (.cmpne p d a b, fun _ x y => if x = y then 0 else 1),
    (.cmplt p d a b, fun s x y => if whole (myEt s).signed x < whole (myEt s).signed y then 1 else 0),
    (.cmple p d a b, fun s x y => if whole (myEt s).signed x ≤ whole (myEt s).signed y then 1 else 0),
    (.bfx p d a b, fun s => bitExtract (myEt s).signed) ]

/-- Every instruction of two sources completes: each active lane of D takes its function of the two source lanes, poisoned where
either is; nothing else changes. -/
def Sys2Proof.Claims.BinaryOps : Prop :=
  ∀ (p : Option Pfx) (d a b : BitVec 8), ∀ x ∈ Claims.binaryTable p d a b,
    WritesOne x.1 p [d.toNat, a.toNat, b.toNat] d.toNat fun s l => from2 (lane s a.toNat l) (lane s b.toNat l) (x.2 s)

/-- The instructions of one source and one destination, with their functions of a lane (Table ISAI.2, R168, R169, R186). -/
def Sys2Proof.Claims.unaryTable (p : Option Pfx) (d a : BitVec 8) : List (Instr × (State → Word → Word)) :=
  [ (.iabs p d a, fun s => elem1 (myEt s) (mySat s) fun x => if x < 0 then -x else x),
    (.ineg p d a, fun s => elem1 (myEt s) (mySat s) fun x => -x),
    (.inot p d a, fun _ x => ~~~x),
    (.clz p d a, fun _ => leadingZeros),
    (.popc p d a, fun _ => popCount),
    (.brev p d a, fun _ => bitReverse),
    (.fabs p d a, fun s x => (myFmt s).pack fun j => signOp (fun y => y % 2 ^ ((myFmt s).width - 1)) (myFmt s) ((myFmt s).elem x j)),
    (.fneg p d a, fun s x => (myFmt s).pack fun j =>
      signOp (fun y => (y + 2 ^ ((myFmt s).width - 1)) % 2 ^ (myFmt s).width) (myFmt s) ((myFmt s).elem x j)) ]

/-- Every instruction of one source that raises no flag completes. -/
def Sys2Proof.Claims.UnaryOps : Prop :=
  ∀ (p : Option Pfx) (d a : BitVec 8), ∀ x ∈ Claims.unaryTable p d a,
    WritesOne x.1 p [d.toNat, a.toNat] d.toNat fun s l => from1 (lane s a.toNat l) (x.2 s)

/-- The words with an immediate, with their functions of a lane (R172). -/
def Sys2Proof.Claims.immediateTable (p : Option Pfx) (d a i : BitVec 8) (k : BitVec 5) : List (Instr × (State → Word → Word)) :=
  [ (.addi p d a i, fun s => elem1 (myEt s) (mySat s) fun x => x + immSigned p i),
    (.muli p d a i, fun s => elem1 (myEt s) (mySat s) fun x => x * immSigned p i),
    (.andi p d a i, fun _ x => x &&& BitVec.ofNat 32 (immZero p i)),
    (.ori p d a i, fun _ x => x ||| BitVec.ofNat 32 (immZero p i)),
    (.xori p d a i, fun _ x => x ^^^ BitVec.ofNat 32 (immZero p i)),
    (.shli p d a k, fun s x => shiftLeft (myEt s) x (countLane (myEt s) (k.toNat % (myEt s).n))),
    (.shri p d a k, fun s x => shiftRight (myEt s) x (countLane (myEt s) (k.toNat % (myEt s).n))),
    (.sari p d a k, fun s x => shiftArith (myEt s) x (countLane (myEt s) (k.toNat % (myEt s).n))),
    (.cmpeqi p d a i, fun _ x => if x = wordOf (immSigned p i) then 1 else 0),
    (.cmplti p d a i, fun s x => if whole (myEt s).signed x < whole (myEt s).signed (wordOf (immSigned p i)) then 1 else 0) ]

/-- Every word of row 3x completes; MOVI writes clean lanes, MOVHI replaces the upper half of D. -/
def Sys2Proof.Claims.ImmediateOps : Prop :=
  (∀ (p : Option Pfx) (d a i : BitVec 8) (k : BitVec 5), ∀ x ∈ Claims.immediateTable p d a i k,
    WritesOne x.1 p [d.toNat, a.toNat] d.toNat fun s l => from1 (lane s a.toNat l) (x.2 s)) ∧
  ∀ (p : Option Pfx) (d : BitVec 8) (i : BitVec 16),
    WritesOne (.movi p d i) p [d.toNat] d.toNat (fun _ _ => clean (wordOf (immSigned p i))) ∧
    WritesOne (.movhi p d i) p [d.toNat] d.toNat fun s l => from1 (lane s d.toNat l) fun x => i ++ x.extractLsb' 0 16

/-- The instructions whose third source is a prefix's C or D (R121). -/
def Sys2Proof.Claims.ternaryTable (p : Option Pfx) (d a b : BitVec 8) : List (Instr × (State → Word → Word → Word → Word)) :=
  [ (.mad p d a b, fun s => mulAdd (myEt s) (mySat s)),
    (.bfi p d a b, fun _ => bitInsert),
    (.dp4 p d a b, fun s => dotWrap 4 (myEt s).signed),
    (.dp4s p d a b, fun s => dotSat 4 (myEt s).signed),
    (.dp2 p d a b, fun s => dotWrap 2 (myEt s).signed),
    (.dp2s p d a b, fun s => dotSat 2 (myEt s).signed) ]

/-- Every instruction of three sources completes, and MOV, SEL and PRMT; MOV and SEL carry the source lane with its side bit. -/
def Sys2Proof.Claims.TernaryOps : Prop :=
  ∀ (p : Option Pfx) (d a b : BitVec 8),
    (∀ x ∈ Claims.ternaryTable p d a b,
      WritesOne x.1 p [d.toNat, a.toNat, b.toNat, thirdReg p d.toNat] d.toNat fun s l =>
        from3 (lane s a.toNat l) (lane s b.toNat l) (lane s (thirdReg p d.toNat) l) (x.2 s)) ∧
    WritesOne (.mov p d a) p [d.toNat, a.toNat] d.toNat (fun s l => lane s a.toNat l) ∧
    WritesOne (.sel p d a b) p [d.toNat, a.toNat, b.toNat, thirdReg p d.toNat] d.toNat (fun s l =>
      if (lane s (thirdReg p d.toNat) l).poison then poisoned
      else if (lane s (thirdReg p d.toNat) l).val.getLsbD 0 then lane s a.toNat l else lane s b.toNat l) ∧
    WritesOne (.prmt p d a b) p [d.toNat, a.toNat, b.toNat] d.toNat fun s l =>
      from3 (lane s a.toNat l) (lane s b.toNat l) (lane s d.toNat l) fun x y z => permute x z y

/-! ### Elements -/

/-- The elements of a packed result: with the types of Table ENC.9's integer column, element j of the lane-wise functions is the
exact result of the elements j, reduced modulo 2^n or, with SAT = 1, clamped to the range of the type (R149, R157, R167). -/
def Sys2Proof.Claims.PackedElements : Prop :=
  ∀ (et : Nat) (sat : Bool) (x y z : Word) (j : Nat), j < (intEt et).count →
    (∀ f : Int → Int → Int,
      (intEt et).raw (elem2 (intEt et) sat f x y) j = intOut (intEt et) sat (f ((intEt et).elem x j) ((intEt et).elem y j))) ∧
    (intEt et).raw (mulAdd (intEt et) sat x y z) j =
      intOut (intEt et) sat ((intEt et).elem x j * (intEt et).elem y j + (intEt et).elem z j) ∧
    (intEt et).elem (elem2 (intEt et) true (· + ·) x y) j =
      (if (intEt et).signed then clamp (-(2 ^ ((intEt et).n - 1) : Nat)) ((2 ^ ((intEt et).n - 1) : Nat) - 1)
          ((intEt et).elem x j + (intEt et).elem y j)
        else clamp 0 ((2 ^ (intEt et).n : Nat) - 1) ((intEt et).elem x j + (intEt et).elem y j))

/-- With one element per lane and SAT = 0 the functions are those of 32-bit words. -/
def Sys2Proof.Claims.WordArithmetic : Prop :=
  ∀ (g : Bool) (x y : Word),
    elem2 ⟨32, g⟩ false (· + ·) x y = x + y ∧ elem2 ⟨32, g⟩ false (· - ·) x y = x - y ∧ elem2 ⟨32, g⟩ false (· * ·) x y = x * y ∧
    shiftLeft ⟨32, g⟩ x y = x <<< (y.toNat % 32) ∧ shiftRight ⟨32, g⟩ x y = x >>> (y.toNat % 32) ∧
    shiftArith ⟨32, g⟩ x y = x.sshiftRight (y.toNat % 32) ∧
    mulHigh ⟨32, true⟩ x y = BitVec.ofInt 32 (x.toInt * y.toInt / 2 ^ 32) ∧
    mulHigh ⟨32, false⟩ x y = BitVec.ofNat 32 (x.toNat * y.toNat / 2 ^ 32) ∧
    elem1 ⟨32, true⟩ false (fun v => -v) x = -x ∧ bitReverse (bitReverse x) = x

/-- The element operations that the integer instructions share, as R167 to R171 compute them. -/
def Obligations.ElementArithmetic : Prop :=
  Claims.PackedElements ∧ Claims.WordArithmetic

/-! ### 64-bit forms -/

/-- The forms of row 4x that take a pair and a pair, and a pair and a single register. -/
def Sys2Proof.Claims.wideTable (p : Option Pfx) (d a b : BitVec 8) : List (Instr × (DWord → DWord → DWord)) :=
  [(.add64 p d a b, fun x y => x + y), (.sub64 p d a b, fun x y => x - y)]
def Sys2Proof.Claims.mixedTable (p : Option Pfx) (d a b : BitVec 8) : List (Instr × (State → DWord → Word → DWord)) :=
  [ (.add64w p d a b, fun s x y => x + (if (myEt s).signed then y.signExtend 64 else y.zeroExtend 64)),
    (.lea4 p d a b, fun _ x y => x + y.zeroExtend 64 * 4#64),
    (.lea8 p d a b, fun _ x y => x + y.zeroExtend 64 * 8#64),
    (.lea16 p d a b, fun _ x y => x + y.zeroExtend 64 * 16#64),
    (.shl64 p d a b, fun _ x y => x <<< (y.toNat % 64)),
    (.shr64 p d a b, fun _ x y => x >>> (y.toNat % 64)) ]

/-- The low and the high lane of a doubleword result: the poison pattern in both where any source lane is poisoned (R401). -/
def Sys2Proof.Claims.lowOf (srcs : List Nat) (v : State → Nat → DWord) (s : State) (l : Nat) : Lane :=
  if srcs.any fun r => (lane s r l).poison then poisoned else clean (loWord (v s l))
def Sys2Proof.Claims.highOf (srcs : List Nat) (v : State → Nat → DWord) (s : State) (l : Nat) : Lane :=
  if srcs.any fun r => (lane s r l).poison then poisoned else clean (hiWord (v s l))

/-- A pair result computed from some registers. -/
def Sys2Proof.Claims.PairFrom (i : Instr) (p : Option Pfx) (srcs : List Nat) (d : BitVec 8) (v : State → Nat → DWord) : Prop :=
  i.wellFormed = true →
    WritesPair i p ([d.toNat, d.toNat + 1] ++ srcs) d.toNat (Claims.lowOf srcs v) (Claims.highOf srcs v)

/-- Every 64-bit and address form completes; CMPLT64 writes one register. -/
def Sys2Proof.Claims.WideOps : Prop :=
  ∀ (p : Option Pfx) (d a b i : BitVec 8),
    let pa := [a.toNat, a.toNat + 1]
    let pb := [b.toNat, b.toNat + 1]
    let c := thirdReg p d.toNat
    let prod := fun (s : State) (l : Nat) =>
      product (myEt s).signed (lane s a.toNat l).val (lane s b.toNat l).val
    (∀ x ∈ Claims.wideTable p d a b, Claims.PairFrom x.1 p (pa ++ pb) d fun s l =>
      x.2 (pairAt (me s) a.toNat l) (pairAt (me s) b.toNat l)) ∧
    (∀ x ∈ Claims.mixedTable p d a b, Claims.PairFrom x.1 p (pa ++ [b.toNat]) d fun s l =>
      x.2 s (pairAt (me s) a.toNat l) (lane s b.toNat l).val) ∧
    Claims.PairFrom (.addi64 p d a i) p pa d (fun s l => pairAt (me s) a.toNat l + dwordOf (immSigned p i)) ∧
    Claims.PairFrom (.wmul p d a b) p [a.toNat, b.toNat] d prod ∧
    Claims.PairFrom (.wmad p d a b) p [a.toNat, b.toNat, c, c + 1] d (fun s l => prod s l + pairAt (me s) c l) ∧
    ((Instr.mov64 p d a).wellFormed = true →
      WritesPair (.mov64 p d a) p ([d.toNat, d.toNat + 1] ++ pa) d.toNat (fun s l => lane s a.toNat l)
        fun s l => lane s (a.toNat + 1) l) ∧
    WritesOne (.cmplt64 p d a b) p (d.toNat :: (pa ++ pb)) d.toNat (fun s l =>
      if (pa ++ pb).any fun r => (lane s r l).poison then poisoned
      else clean (if whole64 (myEt s).signed (pairAt (me s) a.toNat l) < whole64 (myEt s).signed (pairAt (me s) b.toNat l) then 1 else 0))

/-- Every integer instruction of one to three sources, with its immediate forms, moves and 64-bit forms, completes as its rule says. -/
def Obligations.IntegerOps : Prop :=
  Claims.BinaryOps ∧ Claims.UnaryOps ∧ Claims.ImmediateOps ∧ Claims.TernaryOps ∧ Claims.WideOps

/-! ### Residual checks, special registers, indexed moves -/

/-- A check that holds in every lane of EXEC only goes on (R178, R179): CHKB for an address range of a region, CHKR for an
index, CHKA for an offset of an allocation. -/
def Sys2Proof.Claims.ChecksPass : Prop :=
  ∀ (s : State), Issuing s →
    (∀ (d : BitVec 8) (k : BitVec 4) (b n : BitVec 6), Inside [d.toNat, d.toNat + 1] s → Clean (fr s).exec [d.toNat, d.toNat + 1] s →
      (∀ l, l < 32 → inMask (fr s).exec l = true →
        regionBase (launchOf s (me s)) (teamOf s (me s)) (me s).wid k.toNat + 64 * b.toNat ≤ (pairAt (me s) d.toNat l).toNat ∧
        (pairAt (me s) d.toNat l).toNat + n.toNat ≤
          regionBase (launchOf s (me s)) (teamOf s (me s)) (me s).wid k.toNat + regionLen (launchOf s (me s)) k.toNat) →
      ∃ t, exec (.chkb d k b n) s = .next t ∧ Retired [] s t) ∧
    (∀ (d : BitVec 8) (n : BitVec 16), Inside [d.toNat] s → Clean (fr s).exec [d.toNat] s →
      (∀ l, l < 32 → inMask (fr s).exec l = true → (lane s d.toNat l).val.toNat < n.toNat) →
      ∃ t, exec (.chkr d n) s = .next t ∧ Retired [] s t) ∧
    (∀ (d : BitVec 8) (q : BitVec 1) (e : BitVec 5) (m : BitVec 10), Inside [d.toNat] s → Clean (fr s).exec [d.toNat] s →
      (∀ l, l < 32 → inMask (fr s).exec l = true →
        (lane s d.toNat l).val.toNat + m.toNat * 2 ^ e.toNat ≤
          (if q = 1 then (declOf s (me s)).accb else (declOf s (me s)).scratch) ∧
        (lane s d.toNat l).val.toNat % checkAlign m.toNat e.toNat = 0) →
      ∃ t, exec (.chka d q e m) s = .next t ∧ Retired [] s t)

/-- A check that fails in some lane of EXEC raises class 2, RES = 1, with the failing lanes (R391): CHKB code 0x010 with the lowest such
lane's address and K, CHKR code 0x011 with its index, CHKA code 0x012 with its offset. -/
def Sys2Proof.Claims.CheckFails : Prop :=
  ∀ (s : State) (d : BitVec 8) (bad : Word), Issuing s → bad ≠ 0 →
    let fails := fun (ok : Nat → Bool) => ∀ l, l < 32 → inMask bad l = (inMask (fr s).exec l && !ok l)
    let low := lowestLane bad
    let l := launchOf s (me s)
    (∀ (k : BitVec 4) (b n : BitVec 6), Inside [d.toNat, d.toNat + 1] s → Clean (fr s).exec [d.toNat, d.toNat + 1] s →
      (fails fun i => decide (regionBase l (teamOf s (me s)) (me s).wid k.toNat + 64 * b.toNat ≤ (pairAt (me s) d.toNat i).toNat) &&
        decide ((pairAt (me s) d.toNat i).toNat + n.toNat ≤
          regionBase l (teamOf s (me s)) (me s).wid k.toNat + regionLen l k.toNat)) →
      exec (.chkb d k b n) s = .next (raise { cls := 2, code := 0x010, res := true, lanes := bad
                                              addr := pairAt (me s) d.toNat low, info := BitVec.ofNat 32 k.toNat } s)) ∧
    (∀ n : BitVec 16, Inside [d.toNat] s → Clean (fr s).exec [d.toNat] s →
      (fails fun i => decide ((lane s d.toNat i).val.toNat < n.toNat)) →
      exec (.chkr d n) s =
        .next (raise { cls := 2, code := 0x011, res := true, lanes := bad, info := (lane s d.toNat low).val } s)) ∧
    ∀ (q : BitVec 1) (e : BitVec 5) (m : BitVec 10), Inside [d.toNat] s → Clean (fr s).exec [d.toNat] s →
      (fails fun i => decide ((lane s d.toNat i).val.toNat + m.toNat * 2 ^ e.toNat ≤ if q = 1 then (declOf s (me s)).accb else (declOf s (me s)).scratch) &&
        decide ((lane s d.toNat i).val.toNat % checkAlign m.toNat e.toNat = 0)) →
      exec (.chka d q e m) s =
        .next (raise { cls := 2, code := 0x012, res := true, lanes := bad, info := (lane s d.toNat low).val } s)

/-- CHKB, CHKR and CHKA go on where they hold, and raise their causes where they fail. -/
def Obligations.ResidualChecks : Prop :=
  Claims.ChecksPass ∧ Claims.CheckFails

/-- SETMODE writes MODE; XMOV writes EXEC within FRAG, MODE with its reserved fields as 0, or the five bits of FLAGS, from the
lowest active lane; both go on, and XMOV with no active lane writes nothing (R127, R128, R174, R175). -/
def Sys2Proof.Claims.ModeWrites : Prop :=
  ∀ (s : State), Issuing s →
    (∀ x : BitVec 20, ∃ t, exec (.setmode x) s = .next t ∧ (me t).mode = x.zeroExtend 24 ∧
      Retired [] (setMe s { me s with mode := x.zeroExtend 24 }) t) ∧
    (∀ (p : Option Pfx) (a i : BitVec 8), Calm p [a.toNat] s → act p s = 0 → (i = 3 → ((me s).holds.all fun h => !h.flags) = true) →
      ∃ t, exec (.xmov p a i) s = .next t ∧ Retired [] s t) ∧
    ∀ (p : Option Pfx) (a : BitVec 8), Calm p [a.toNat] s → act p s ≠ 0 → (lane s a.toNat (lowestLane (act p s))).poison = false →
      (∃ t, exec (.xmov p a 0) s = .next t ∧ (fr t).exec = (lane s a.toNat (lowestLane (act p s))).val &&& (fr s).frag ∧
        Retired [] (setFr s { fr s with exec := (lane s a.toNat (lowestLane (act p s))).val &&& (fr s).frag }) t) ∧
      (∃ t, exec (.xmov p a 2) s = .next t ∧ (me t).mode = modeFrom (lane s a.toNat (lowestLane (act p s))).val ∧
        Retired [] (setMe s { me s with mode := modeFrom (lane s a.toNat (lowestLane (act p s))).val }) t) ∧
      (((me s).holds.all fun h => !h.flags) = true →
        ∃ t, exec (.xmov p a 3) s = .next t ∧ (me t).flags = (lane s a.toNat (lowestLane (act p s))).val.extractLsb' 0 5 ∧
          Retired [] (setMe s { me s with flags := (lane s a.toNat (lowestLane (act p s))).val.extractLsb' 0 5 }) t)

/-- A MODE that XMOV has written holds 0 in its reserved bits 23:20 and no reserved code of ET or RM (R128). -/
def Sys2Proof.Claims.ModeLegal : Prop :=
  ∀ x : Word, (modeFrom x).extractLsb' 20 4 = 0 ∧ ((modeFrom x).extractLsb' 10 4).toNat ≤ 6 ∧
    ((modeFrom x).extractLsb' 14 3).toNat ≤ 4 ∧
    ((x.extractLsb' 10 4).toNat ≤ 6 → (x.extractLsb' 14 3).toNat ≤ 4 → modeFrom x = 0#4 ++ x.extractLsb' 0 20)

/-- SETMODE and XMOV write MODE, EXEC and FLAGS, and a MODE that XMOV writes is legal. -/
def Obligations.ModeAccess : Prop :=
  Claims.ModeWrites ∧ Claims.ModeLegal

/-- MOVX of every single special register but CLOCKLO writes its word, clean, in each active lane; of a pair, both words; of
CLOCKLO, the low half of the time base, latching the high half in CLOCKHI (R173, Table ISAI.3).
That CLOCKLO latches with no active lane too is the model's choice (log entry 177), as is the 0 read for an unused region (log entry 178). -/
def Obligations.SpecialReads : Prop :=
  ∀ (p : Option Pfx) (d i : BitVec 8) (s : State), Issuing s → (Instr.movx p d i).wellFormed = true →
    Calm p (regRun d.toNat (if specialPair i then 2 else 1)) s →
    (i = 3 → ((me s).holds.all fun h => !h.flags) = true) →
    ∃ t, exec (.movx p d i) s = .next t ∧
      Retired (regRun d.toNat (if specialPair i then 2 else 1))
        (if i = 0x12 then setMe s { me s with clockHi := BitVec.ofNat 32 (s.now / 2 ^ 32) } else s) t ∧
      Wrote p s t d.toNat (fun l => clean (loWord (special s i.toNat l))) ∧
      (specialPair i = true → Wrote p s t (d.toNat + 1) fun l => clean (hiWord (special s i.toNat l)))

/-- MOVRD reads the register that each active lane's index names; MOVRW writes it, in that lane alone; an index at or above REGS in an
active lane raises class 2 code 0x030, RES = 1, with those lanes and the lowest one's index (R176, R390). -/
def Obligations.IndexedMoves : Prop :=
  ∀ (p : Option Pfx) (d i : BitVec 8) (s : State), Issuing s → Calm p [d.toNat, i.toNat] s → Clean (act p s) [i.toNat] s →
    (∀ bad : Word, bad ≠ 0 →
      (∀ l, l < 32 → inMask bad l = (inMask (act p s) l && decide ((launchOf s (me s)).regs ≤ (lane s i.toNat l).val.toNat))) →
      let stop := raise { cls := 2, code := 0x030, res := true, lanes := bad, info := (lane s i.toNat (lowestLane bad)).val } s
      exec (.movrd p d i) s = .next stop ∧ exec (.movrw p d i) s = .next stop) ∧
    ((launchOf s (me s)).regs ≤ 256 →
    (∀ l, l < 32 → inMask (act p s) l = true → (lane s i.toNat l).val.toNat < (launchOf s (me s)).regs) →
    (∃ t, exec (.movrd p d i) s = .next t ∧ Retired [d.toNat] s t ∧
      Wrote p s t d.toNat fun l => lane s (lane s i.toNat l).val.toNat l) ∧
    ∃ t, exec (.movrw p d i) s = .next t ∧
      (∀ r l, r < 256 → l < 32 → lane t r l =
        if inMask (act p s) l && (lane s i.toNat l).val.toNat == r then lane s d.toNat l else lane s r l) ∧
      Retired ((lanesOf (act p s)).map fun l => (lane s i.toNat l).val.toNat) s t)

/-- What stops an instruction that names registers, whatever its operands hold: a poisoned guard in an active lane halts or traps with
class 5 code 0x001 (R374), and else a register at or above REGS raises class 2 code 0x031 with its number (R390). -/
def Sys2Proof.Claims.Stopped (p : Option Pfx) (named : List Nat) (i : Instr) : Prop :=
  ∀ s : State,
    (guardPoison p (me s) (fr s) ≠ 0 →
      exec i s = .next (raise { cls := 5, code := 0x001, pois := true, lanes := guardPoison p (me s) (fr s), info := 4 } s)) ∧
    ∀ r, guardPoison p (me s) (fr s) = 0 →
      (named ++ guardRegs p (me s)).find? (fun r => !regInside (launchOf s (me s)).regs r) = some r →
      exec i s = .next (raise { cls := 2, code := 0x031, info := BitVec.ofNat 32 r } s)

/-- The integer instructions of one to three sources, and those with immediates, meet the two causes.
That a guard consumes poison only in lanes of EXEC is the model's reading (log entry 29). -/
def Obligations.RegisterBounds : Prop :=
  ∀ (p : Option Pfx) (d a b i : BitVec 8) (k : BitVec 5),
    (∀ x ∈ Claims.unaryTable p d a, Claims.Stopped p [d.toNat, a.toNat] x.1) ∧
    (∀ x ∈ Claims.immediateTable p d a i k, Claims.Stopped p [d.toNat, a.toNat] x.1) ∧
    (∀ x ∈ Claims.binaryTable p d a b, Claims.Stopped p [d.toNat, a.toNat, b.toNat] x.1) ∧
    ∀ x ∈ Claims.ternaryTable p d a b, Claims.Stopped p [d.toNat, a.toNat, b.toNat, thirdReg p d.toNat] x.1

/-! ## Floating point (spec/08) -/

/-- Element j of lane l of a register in the format in force. -/
def Sys2Proof.Claims.el (s : State) (r l j : Nat) : Nat := (myFmt s).elem (lane s r l).val j

/-- A lane whose element j is a function of its number. -/
def Sys2Proof.Claims.elements (f : State → Nat → Nat → Nat × BitVec 5) (s : State) (l : Nat) : Word × BitVec 5 :=
  (myFmt s).each fun j => f s l j

/-- Instructions of two operands, by element (Table ISAF.2, R182, R183). -/
def Sys2Proof.Claims.fpBinaryTable (p : Option Pfx) (d a b : BitVec 8) : List (Instr × (State → Nat → Nat → Nat × BitVec 5)) :=
  [ (.fadd p d a b, fun s => fpAdd (myFmt s) (effRm p (me s)) (myFtz s)),
    (.fsub p d a b, fun s => fpSub (myFmt s) (effRm p (me s)) (myFtz s)),
    (.fmul p d a b, fun s => fpMul (myFmt s) (effRm p (me s)) (myFtz s)),
    (.fscale p d a b, fun s x y => fpScale (myFmt s) (effRm p (me s)) (myFtz s) x (signExt y (myFmt s).width)),
    (.fmin p d a b, fun s => fpMin true (myFtz s) (myFmt s)),
    (.fmax p d a b, fun s => fpMin false (myFtz s) (myFmt s)),
    (.fminn p d a b, fun s => fpMinNum true (myFtz s) (myFmt s)),
    (.fmaxn p d a b, fun s => fpMinNum false (myFtz s) (myFmt s)) ]

/-- FADD, FSUB, FMUL, FSCALE and the minima and maxima complete, by element, and so do FFMA and FDOT2 with the third source. -/
def Sys2Proof.Claims.FloatArithmetic : Prop :=
  ∀ (p : Option Pfx) (d a b : BitVec 8),
    let c := thirdReg p d.toNat
    (∀ x ∈ Claims.fpBinaryTable p d a b, WritesFloat x.1 p [d.toNat, a.toNat, b.toNat] d.toNat [a.toNat, b.toNat]
      (Claims.elements fun s l j => x.2 s (Claims.el s a.toNat l j) (Claims.el s b.toNat l j))) ∧
    WritesFloat (.ffma p d a b) p [d.toNat, a.toNat, b.toNat, c] d.toNat [a.toNat, b.toNat, c]
      (Claims.elements fun s l j => fpFma (myFmt s) (effRm p (me s)) (myFtz s) (Claims.el s a.toNat l j) (Claims.el s b.toNat l j)
        (Claims.el s c l j)) ∧
    WritesFloat (.fdot2 p d a b) p [d.toNat, a.toNat, b.toNat, c] d.toNat [a.toNat, b.toNat, c]
      (fun s l => fpDot2 (if modeEt (me s) = 6 then f16 else bf16) (effRm p (me s)) (myFtz s) (lane s a.toNat l).val
        (lane s b.toNat l).val (lane s c l).val)

/-- Instructions of one operand, by element (R187, R188); the approximations return a result that Table ISAF.3 allows, which
`Config.approx` picks. -/
def Sys2Proof.Claims.fpUnaryTable (p : Option Pfx) (d a : BitVec 8) : List (Instr × (State → Nat → Nat × BitVec 5)) :=
  [ (.frcp p d a, fun s => recipIn (myFmt s) (effRm p (me s)) (myFtz s)),
    (.fsqrt p d a, fun s => sqrtIn (myFmt s) (effRm p (me s)) (myFtz s)),
    (.frnd p d a, fun s => fpRound (effRm p (me s)) (myFtz s) (myFmt s)),
    (.frsq p d a, fun s => approxIn 0x61 (myFmt s) (myFtz s)),
    (.fexp2 p d a, fun s => approxIn 0x63 (myFmt s) (myFtz s)),
    (.flog2 p d a, fun s => approxIn 0x64 (myFmt s) (myFtz s)),
    (.fsin p d a, fun s => approxIn 0x65 (myFmt s) (myFtz s)),
    (.fcos p d a, fun s => approxIn 0x66 (myFmt s) (myFtz s)),
    (.ftanh p d a, fun s => approxIn 0x67 (myFmt s) (myFtz s)) ]

/-- The functions of one operand complete. -/
def Sys2Proof.Claims.FloatFunctions : Prop :=
  ∀ (p : Option Pfx) (d a : BitVec 8), ∀ x ∈ Claims.fpUnaryTable p d a,
    WritesFloat x.1 p [d.toNat, a.toNat] d.toNat [a.toNat] (Claims.elements fun s l j => x.2 s (Claims.el s a.toNat l j))

/-- The relations of the compares on two operands after flushing; `true`: a quiet NaN raises NV too (R184). -/
def Sys2Proof.Claims.relations (p : Option Pfx) (d a b : BitVec 8) : List (Instr × Bool × (Fmt → Nat → Nat → Bool)) :=
  [ (.fcmpeq p d a b, false, fun f x y => f.ordered x y && f.sameZero x == f.sameZero y),
    (.fcmplt p d a b, true, fun f x y => f.ordered x y && decide (f.sameZero x < f.sameZero y)),
    (.fcmple p d a b, true, fun f x y => f.ordered x y && decide (f.sameZero x ≤ f.sameZero y)),
    (.fcmpun p d a b, false, fun f x y => !f.ordered x y) ]

/-- The flag of one compared pair of elements. -/
def Sys2Proof.Claims.compareFlag (any : Bool) (f : Fmt) (x y : Nat) : BitVec 5 :=
  if some x == f.reserved || some y == f.reserved then 0
  else if (any && (f.isNaN x || f.isNaN y)) || f.isSignalling x || f.isSignalling y then flagNV
  else 0

/-- The four compares and FCLASS complete: 1 where the relation holds of every element, else 0. -/
def Sys2Proof.Claims.FloatCompares : Prop :=
  ∀ (p : Option Pfx) (d a b : BitVec 8),
    let flush := fun (s : State) (r l j : Nat) => (myFmt s).flushIn (myFtz s) (Claims.el s r l j)
    (∀ x ∈ Claims.relations p d a b, WritesFloat x.1 p [d.toNat, a.toNat, b.toNat] d.toNat [a.toNat, b.toNat] fun s l =>
      (if ((List.range (myFmt s).count).all fun j => x.2.2 (myFmt s) (flush s a.toNat l j) (flush s b.toNat l j)) then 1 else 0,
       (myFmt s).flags fun j => Claims.compareFlag x.2.1 (myFmt s) (flush s a.toNat l j) (flush s b.toNat l j))) ∧
    WritesOne (.fclass p d a) p [d.toNat, a.toNat] d.toNat fun s l =>
      from2 (lane s a.toNat l) (lane s d.toNat l) fun _ m =>
        if ((List.range (myFmt s).count).all fun j => m.getLsbD ((myFmt s).classOf (Claims.el s a.toNat l j))) then 1 else 0

/-- Every floating-point instruction of the format in force completes by element, with its flags.
Which result the six approximations give within Table ISAF.3 is a free value (log entry 15). -/
def Obligations.FloatOps : Prop :=
  Claims.FloatArithmetic ∧ Claims.FloatFunctions ∧ Claims.FloatCompares

/-- The conversions between FP32, FP16 and BF16, and between floats and integers, complete (R190). -/
def Sys2Proof.Claims.Conversions : Prop :=
  ∀ (p : Option Pfx) (d a : BitVec 8) (k : BitVec 3),
    let rm := k.toNat
    let x := fun (s : State) (l : Nat) => (lane s a.toNat l).val
    let narrow := fun (dst : Fmt) (s : State) (l : Nat) =>
      convPair fun j => convert fp32 dst rm (myFtz s) (lane s (if j == 0 then a.toNat else a.toNat + 1) l).val.toNat
    let across := fun (src dst : Fmt) (s : State) (l : Nat) => convPair fun j => convert src dst rm (myFtz s) (sixteen (x s l) j)
    let one := fun (r : Nat × BitVec 5) => (BitVec.ofNat 32 r.1, r.2)
    WritesFloat (.cvtf p d a k 0) p [d.toNat, a.toNat, a.toNat + 1] d.toNat [a.toNat, a.toNat + 1] (narrow bf16) ∧
    WritesFloat (.cvtf p d a k 1) p [d.toNat, a.toNat, a.toNat + 1] d.toNat [a.toNat, a.toNat + 1] (narrow f16) ∧
    WritesFloat (.cvtf p d a k 2) p [d.toNat, a.toNat] d.toNat [a.toNat] (across bf16 f16) ∧
    WritesFloat (.cvtf p d a k 3) p [d.toNat, a.toNat] d.toNat [a.toNat] (across f16 bf16) ∧
    WritesFloat (.cvtfi p d a k 0) p [d.toNat, a.toNat] d.toNat [a.toNat]
      (fun s l => one (floatToInt fp32 (-(2 ^ 31 : Nat)) ((2 ^ 31 : Nat) - 1) 32 rm (x s l).toNat)) ∧
    WritesFloat (.cvtfi p d a k 1) p [d.toNat, a.toNat] d.toNat [a.toNat]
      (fun s l => one (floatToInt fp32 0 ((2 ^ 32 : Nat) - 1) 32 rm (x s l).toNat)) ∧
    WritesFloat (.cvtfi p d a k 2) p [d.toNat, a.toNat] d.toNat [a.toNat]
      (fun s l => convPair fun j => floatToInt bf16 (-32768) 32767 16 rm (sixteen (x s l) j)) ∧
    WritesFloat (.cvtfi p d a k 3) p [d.toNat, a.toNat] d.toNat [a.toNat]
      (fun s l => convPair fun j => floatToInt f16 (-32768) 32767 16 rm (sixteen (x s l) j)) ∧
    WritesFloat (.cvtif p d a k 0) p [d.toNat, a.toNat] d.toNat [a.toNat] (fun s l => one (fp32.round rm (Val.ofInt (x s l).toInt))) ∧
    WritesFloat (.cvtif p d a k 1) p [d.toNat, a.toNat] d.toNat [a.toNat] (fun s l => one (fp32.round rm (Val.ofInt (x s l).toNat))) ∧
    WritesFloat (.cvtif p d a k 2) p [d.toNat, a.toNat] d.toNat [a.toNat]
      (fun s l => convPair fun j => bf16.round rm (Val.ofInt (signExt (sixteen (x s l) j) 16))) ∧
    WritesFloat (.cvtif p d a k 3) p [d.toNat, a.toNat] d.toNat [a.toNat]
      (fun s l => convPair fun j => f16.round rm (Val.ofInt (signExt (sixteen (x s l) j) 16)))

/-- CVTN packs a run of registers into one through a format slot, and CVTW widens one into a run, where the slot's format is one
that the variant takes; another format raises class 2 code 0x050, and a CVTN with a rounding mode other than 0 into a slot of
format 6 code 0x051 (R191 to R193, R394). -/
def Sys2Proof.Claims.SlotConversions : Prop :=
  ∀ (p : Option Pfx) (d a : BitVec 8) (n k : BitVec 3) (v : BitVec 2) (s : State), Issuing s →
    let f := slotOf s n
    let run := regRun a.toNat (runLen v)
    let out := regRun d.toNat (runLen v)
    let info := n.toNat + f.fmt * 16 + v.toNat * 256
    (Calm p (d.toNat :: run) s → variantTakes v f.fmt = true → (f.fmt = 6 → k = 0) →
      ∃ t, exec (.cvtn p d a n k v) s = .next t ∧
        Retired [d.toNat] (raiseFlags (raised p run (fun l => (0,
          (List.range (runLen v)).foldl (fun fl i => fl ||| (f.encode k.toNat (lane s (a.toNat + i) l).val.toNat).2) 0)) s) s) t ∧
        Wrote p s t d.toNat fun l =>
          if run.any (fun r => (lane s r l).poison) then poisoned
          else clean (BitVec.ofNat 32 (total ((List.range (runLen v)).map fun i =>
            (f.encode k.toNat (lane s (a.toNat + i) l).val.toNat).1 % 2 ^ runWidth v * 2 ^ (runWidth v * i))))) ∧
    (Calm p (d.toNat :: run) s → variantTakes v f.fmt = false →
      exec (.cvtn p d a n k v) s = .next (raise { cls := 2, code := 0x050, info := BitVec.ofNat 32 info } s)) ∧
    (Calm p (d.toNat :: run) s → variantTakes v f.fmt = true → f.fmt = 6 → k ≠ 0 →
      exec (.cvtn p d a n k v) s =
        .next (raise { cls := 2, code := 0x051, info := BitVec.ofNat 32 (info + k.toNat * 4096) } s)) ∧
    (Calm p (a.toNat :: out) s → variantTakes v f.fmt = false →
      exec (.cvtw p d a n k v) s = .next (raise { cls := 2, code := 0x050, info := BitVec.ofNat 32 info } s)) ∧
    (Calm p (a.toNat :: out) s → d.toNat + runLen v ≤ 256 → variantTakes v f.fmt = true →
      ∃ t, exec (.cvtw p d a n k v) s = .next t ∧
        Retired out (raiseFlags (raised p [a.toNat] (fun l => (0, (List.range (runLen v)).foldl (fun fl i =>
          fl ||| (widen f k.toNat (bitsOf (lane s a.toNat l).val.toNat (runWidth v * i) (runWidth v))).2) 0)) s) s) t ∧
        ∀ i, i < runLen v → Wrote p s t (d.toNat + i) fun l =>
          from1 (lane s a.toNat l) fun x => BitVec.ofNat 32 (widen f k.toNat (bitsOf x.toNat (runWidth v * i) (runWidth v))).1)

/-- Every conversion completes: between floats, between floats and integers, and through format slots.
NV for a NaN converted to an integer follows log entry 27, NV for a signalling NaN converted to a float format log entry 141. -/
def Obligations.FormatConversions : Prop :=
  Claims.Conversions ∧ Claims.SlotConversions

/-! ## Cross-lane instructions (spec/08) -/

/-- The four shuffles: a lane takes the value of the lane that its source selects, or keeps its own A where that lane is not active
or out of range; a poisoned selector gives the poison pattern (R195). -/
def Sys2Proof.Claims.Shuffles : Prop :=
  ∀ (p : Option Pfx) (d a b : BitVec 8),
    let v := fun (src : Nat → Nat → Option Nat) (s : State) (l : Nat) =>
      if (lane s b.toNat l).poison then poisoned
      else match src l ((lane s b.toNat l).val.toNat % 32) with
        | some k => if inMask (act p s) k then lane s a.toNat k else lane s a.toNat l
        | none => lane s a.toNat l
    let named := [d.toNat, a.toNat, b.toNat]
    WritesOne (.shfl p d a b) p named d.toNat (v fun _ n => some n) ∧
    WritesOne (.shflup p d a b) p named d.toNat (v fun l n => if n ≤ l then some (l - n) else none) ∧
    WritesOne (.shfldn p d a b) p named d.toNat (v fun l n => if l + n < 32 then some (l + n) else none) ∧
    WritesOne (.shflx p d a b) p named d.toNat (v fun l n => some (l ^^^ n))

/-- The lanes of a set whose bit 0 of a register is 1. -/
def Sys2Proof.Claims.ayes (s : State) (p : Option Pfx) (r : Nat) : Word := maskOf fun l => inMask (act p s) l && (lane s r l).val.getLsbD 0

/-- VALL, VANY, BALLOT and MATCH over the active lanes, poisoned in every lane where a source lane is; and ELECT, the number of
the lowest active lane (R196). -/
def Sys2Proof.Claims.Votes : Prop :=
  ∀ (p : Option Pfx) (d a : BitVec 8),
    let v := fun (f : State → Nat → Word) (s : State) (l : Nat) =>
      if poisonMask (regOf (me s) a.toNat) (act p s) = 0 then clean (f s l) else poisoned
    let named := [d.toNat, a.toNat]
    WritesOne (.vall p d a) p named d.toNat (v fun s _ => if Claims.ayes s p a.toNat = act p s then 1 else 0) ∧
    WritesOne (.vany p d a) p named d.toNat (v fun s _ => if Claims.ayes s p a.toNat = 0 then 0 else 1) ∧
    WritesOne (.ballot p d a) p named d.toNat (v fun s _ => Claims.ayes s p a.toNat) ∧
    WritesOne (.matchv p d a) p named d.toNat (v fun s l =>
      maskOf fun k => inMask (act p s) k && (lane s a.toNat k).val == (lane s a.toNat l).val) ∧
    WritesOne (.elect p d) p [d.toNat] d.toNat (fun s _ => clean (BitVec.ofNat 32 (lowestLane (act p s))))

/-- The five reductions and SCAN complete: every lane takes the reduction of the active lanes (R197), or of the active lanes up to
or below it (R198), with the flags of the floating-point ones. -/
def Sys2Proof.Claims.Reductions : Prop :=
  ∀ (p : Option Pfx) (d a : BitVec 8) (e : BitVec 1) (q : BitVec 2),
    let one := fun (op : RedOp) (i : Instr) =>
      WritesRaising i p [d.toNat, a.toNat] d.toNat
        (fun s => if poisonMask (regOf (me s) a.toNat) (act p s) != 0#32 || act p s == 0#32 then 0
          else (reduce (me s) op (regOf (me s) a.toNat) (act p s)).2)
        fun s _ => if poisonMask (regOf (me s) a.toNat) (act p s) = 0 then
          clean (reduce (me s) op (regOf (me s) a.toNat) (act p s)).1 else poisoned
    let upTo := fun (s : State) (l : Nat) => maskOf fun k => inMask (act p s) k && (decide (k < l) || (e == 0 && k == l))
    let op : RedOp := if q = 0 then .add else if q = 1 then .min else if q = 2 then .max else .or
    one .add (.redadd p d a) ∧ one .min (.redmin p d a) ∧ one .max (.redmax p d a) ∧ one .and (.redand p d a) ∧
    one .or (.redor p d a) ∧
    WritesRaising (.scan p d a e q) p [d.toNat, a.toNat] d.toNat
      (fun s => ((lanesOf (act p s)).filter fun l => poisonMask (regOf (me s) a.toNat) (upTo s l) == 0#32).foldl
        (fun fl l => fl ||| (reduce (me s) op (regOf (me s) a.toNat) (upTo s l)).2) 0)
      fun s l => if poisonMask (regOf (me s) a.toNat) (upTo s l) = 0 then
        clean (reduce (me s) op (regOf (me s) a.toNat) (upTo s l)).1 else poisoned

/-- Every cross-lane instruction completes over the active lanes. -/
def Obligations.CrossLane : Prop :=
  Claims.Shuffles ∧ Claims.Votes ∧ Claims.Reductions

/-! ## Memory (spec/09) -/

/-- The address of a lane in the plain forms (R201): the pair plus the immediate in units of the size. -/
def Sys2Proof.Claims.laneAddr (p : Option Pfx) (a o : BitVec 8) (size : Nat) (s : State) (l : Nat) : Nat :=
  (addrAt (me s) a.toNat l (immSigned p o * size)).toNat

/-- The machine address of a lane's access where it goes to memory. -/
def Sys2Proof.Claims.AtMemory (s : State) (need : Need) (atomic : Bool) (va a : Nat) : Prop :=
  spotOf s (me s) va need atomic = .ok (.mem a)

/-- The plain and read-only loads: bytes, registers, extension (Table ISAM.2). -/
def Sys2Proof.Claims.loadTable (p : Option Pfx) (d a o : BitVec 8) : List (Instr × Nat × Nat × (Nat → Word)) :=
  [ (.ldb p d a o, 1, 1, fun v => BitVec.ofNat 32 v), (.ldbs p d a o, 1, 1, fun v => (BitVec.ofNat 8 v).signExtend 32),
    (.ldh p d a o, 2, 1, fun v => BitVec.ofNat 32 v), (.ldhs p d a o, 2, 1, fun v => (BitVec.ofNat 16 v).signExtend 32),
    (.ldw p d a o, 4, 1, fun v => BitVec.ofNat 32 v), (.ldd p d a o, 8, 2, fun v => BitVec.ofNat 32 v),
    (.ldq p d a o, 16, 4, fun v => BitVec.ofNat 32 v), (.ldwr p d a o, 4, 1, fun v => BitVec.ofNat 32 v),
    (.ldqr p d a o, 16, 4, fun v => BitVec.ofNat 32 v) ]

/-- Every plain load issues: it is counted in CNT.LD, its destinations keep their values until its reply, the reply will write the
bytes that the core finds at each active lane's address, and no byte of memory changes; with no active lane it makes no access.
A load through a window from a tile that an array has queued or is working on waits (R276); that it waits at its issue is the model's choice (log entry 51).
The bytes are taken at issue (log entry 9). -/
def Obligations.Loads : Prop :=
  ∀ (p : Option Pfx) (d a o : BitVec 8), ∀ x ∈ Claims.loadTable p d a o, ∀ s, Issuing s →
    let addr := Claims.laneAddr p a o x.2.1 s
    let named := regRun d.toNat x.2.2.1 ++ [a.toNat, a.toNat + 1]
    (act p s = 0 → Calm p named s →
      ∃ t, exec x.1 s = .next t ∧ Retired (regRun d.toNat x.2.2.1) s t ∧
        ∀ r ∈ regRun d.toNat x.2.2.1, r < 256 → Wrote p s t r fun _ => {}) ∧
    (act p s ≠ 0 → (me s).cntLd < 128 → Reaches p named a.toNat addr x.2.1 .read false s →
      ∃ t, exec x.1 s = .next t ∧ Accessed { me s with cntLd := (me s).cntLd + 1 } s t ∧
        (s.wcb = [] → HomeKept s t) ∧
        (isRedundant s (me s) = false → Settled s →
          InFlight d.toNat x.2.2.1 (act p s) (zer p s) (fun i l =>
            match spotOf s (me s) (addr l) .read false with
            | .ok sp => loadedFrom s sp x.2.1 x.2.2.2 i
            | _ => {}) t)) ∧
    let places := windowPlaces s (me s) (act p s) addr .read
    (act p s ≠ 0 → (me s).cntLd < 128 → accessCauses p s (act p s) a.toNat named addr x.2.1 .read false = [] →
      tilesFree s places x.2.1 = false → exec x.1 s = .next (waitFor (.tiles places x.2.1) s))

/-- A core that holds no copy of a line, and no buffered bytes, finds there what memory holds. -/
def Sys2Proof.Claims.UncachedReads : Prop :=
  ∀ (s : State) (core a n : Nat) (k : LineKind), n ≤ 4 → 0 < n → a % 4 + n ≤ 4 → s.wcb = [] → l1Find s core a = none → inBlock a = false →
    (coreRead s core a n k).2 = (s.mem.read a n, s.mem.readBad a n)

/-- A core finds the bytes it wrote, and finds elsewhere what it found before (R62, R204, R462); what it wrote stays with it. -/
def Sys2Proof.Claims.CoreWrites : Prop :=
  ∀ (s : State) (core a : Nat) (k : LineKind) (bs : List Byte), Settled s →
    0 < bs.length → a % 4 + bs.length ≤ 4 → inBlock a = false →
    let t := coreWrite s core a k bs false
    (coreRead t core a bs.length k).2.1 = bs ∧ (bs.length = 4 → (coreRead t core a 4 k).2.2 = false) ∧
    (∀ x, x / 4 ≠ a / 4 → seen t core x = seen s core x) ∧ HomeKept s t ∧
    ∀ other x, other ≠ core → seen t other x = seen s other x

/-- The plain stores: bytes and registers. -/
def Sys2Proof.Claims.storeTable (p : Option Pfx) (d a o : BitVec 8) : List (Instr × Nat × Nat) :=
  [ (.stb p d a o, 1, 1), (.sth p d a o, 2, 1), (.stw p d a o, 4, 1), (.std p d a o, 8, 2), (.stq p d a o, 16, 4) ]

/-- Every plain store issues and is counted in CNT.ST.  Where its lanes go to memory, home memory is left alone (scope core); the
core finds lane l's bytes at lane l's address unless a higher lane touches their words (R202), and finds every word that no
lane touches as it was.
A store through a window to a tile that an array has queued or is working on waits (R60); that it waits at its issue is the model's choice (log entry 51).
The store takes effect at issue (log entry 9). -/
def Obligations.Stores : Prop :=
  ∀ (p : Option Pfx) (d a o : BitVec 8), ∀ x ∈ Claims.storeTable p d a o, ∀ s, Issuing s →
    let addr := Claims.laneAddr p a o x.2.1 s
    let named := regRun d.toNat x.2.2 ++ [a.toNat, a.toNat + 1]
    let on := fun l => l < 32 ∧ inMask (act p s) l = true
    (act p s = 0 → Calm p named s → ∃ t, exec x.1 s = .next t ∧ Retired [] s t) ∧
    (act p s ≠ 0 → (me s).cntSt < 128 → Reaches p named a.toNat addr x.2.1 .write false s →
      gateFull s (me s) (x.2.1 * laneCount (act p s)) = false →
      exec x.1 s = .next (advance (storeEffect (act p s) addr d.toNat x.2.1 1 s)) ∧
      (isRedundant s (me s) = false → Settled s →
        (∀ l, on l → ∃ m, Claims.AtMemory s .write false (addr l) m ∧ m % x.2.1 = 0 ∧ inBlock m = false) →
        let t := advance (storeEffect (act p s) addr d.toNat x.2.1 1 s)
        Accessed { me s with cntSt := (me s).cntSt + 1 } s t ∧ HomeKept s t ∧
        (∀ b, (∀ l m, on l → Claims.AtMemory s .write false (addr l) m → Apart m x.2.1 b 1) →
          seen t (me s).core b = seen s (me s).core b) ∧
        ∀ l m, on l → Claims.AtMemory s .write false (addr l) m →
          (∀ k n, on k → l < k → Claims.AtMemory s .write false (addr k) n → Apart n x.2.1 m x.2.1) →
          ∀ i, i < x.2.1 →
            let y := lane s (d.toNat + i / 4) l
            if y.poison then (seen t (me s).core (m + i)).2 = true
            else (seen t (me s).core (m + i)).1 = [BitVec.ofNat 8 (y.val.toNat / 256 ^ (i % 4))])) ∧
    let places := windowPlaces s (me s) (act p s) addr .write
    (act p s ≠ 0 → (me s).cntSt < 128 → accessCauses p s (act p s) a.toNat named addr x.2.1 .write false = [] →
      tilesFree s places x.2.1 = false → exec x.1 s = .next (waitFor (.tiles places x.2.1) s))

/-- LDACQ and STREL with no active lane go on; a release at an LDACQ or a STREL waits for the warp's earlier accesses (R126, R211). -/
def Sys2Proof.Claims.OrderedWaits : Prop :=
  ∀ (p : Option Pfx) (d a : BitVec 8) (c q : BitVec 3) (s : State), Issuing s →
    let addr := Claims.laneAddr p a 0 0 s
    (act p s = 0 → Calm p [d.toNat, a.toNat, a.toNat + 1] s →
      (∃ t, exec (.ldacq p d a c q) s = .next t ∧ Retired [d.toNat] s t ∧ Wrote p s t d.toNat fun _ => {}) ∧
      ∃ t, exec (.strel p d a c q) s = .next t ∧ Retired [] s t) ∧
    (act p s ≠ 0 → 2 ≤ q.toNat → holds s (me s) (.drained (decide (4 ≤ c.toNat))) = false →
      (tilesFree s (windowPlaces s (me s) (act p s) addr .read) 4 = true →
        exec (.ldacq p d a c q) s = .next (waitDrained c.toNat s)) ∧
      (tilesFree s (windowPlaces s (me s) (act p s) addr .write) 4 = true →
        gateFull s (me s) (4 * laneCount (act p s)) = false → exec (.strel p d a c q) s = .next (waitDrained c.toNat s)))

/-- LDACQ issues as a load whose later accesses wait for it when its order acquires (R210, R211): below quad scope it reads as a
plain load does, and at quad scope or wider it reads what home memory holds, not a clean copy. -/
def Sys2Proof.Claims.AcquiringLoad : Prop :=
  ∀ (p : Option Pfx) (d a : BitVec 8) (c q : BitVec 3) (s : State), Issuing s → act p s ≠ 0 →
    let addr := Claims.laneAddr p a 0 0 s
    let on := fun l => l < 32 ∧ inMask (act p s) l = true
    (2 ≤ q.toNat → holds s (me s) (.drained (decide (4 ≤ c.toNat))) = true) → (2 ≤ q.toNat → 2 ≤ c.toNat → mustCompare s = false) →
    (me s).cntLd < 128 → Reaches p [d.toNat, a.toNat, a.toNat + 1] a.toNat addr 4 .read false s →
    ∃ t, exec (.ldacq p d a c q) s = .next t ∧ Accessed { me s with cntLd := (me s).cntLd + 1 } s t ∧
      (q.toNat = 1 ∨ 3 ≤ q.toNat → (fr t).acquire = [s.nextId]) ∧
      t.ops.map (·.id) = s.ops.map (·.id) ++ [s.nextId] ∧
      (isRedundant s (me s) = false → Settled s →
        (c.toNat < 2 → InFlight d.toNat 1 (act p s) (zer p s) (fun i l =>
          match spotOf s (me s) (addr l) .read false with
          | .ok sp => loadedFrom s sp 4 (BitVec.ofNat 32) i
          | _ => {}) t) ∧
        (2 ≤ c.toNat → q.toNat < 2 →
          (∀ l, on l → ∃ m, Claims.AtMemory s .read false (addr l) m ∧ inBlock m = false ∧
            ∀ x, l1Find s (me s).core m = some x → x.kind = .norm ∧ x.dirty = 0) →
          HomeKept s t ∧ InFlight d.toNat 1 (act p s) (zer p s) (fun _ l =>
            match spotOf s (me s) (addr l) .read false with
            | .ok (.mem m) => if s.mem.readBad m 4 then poisoned else clean (wordIn (s.mem.read m 4) 0)
            | _ => {}) t))

/-- STREL issues as a store at its scope, after the write-backs of its release; at quad scope or wider home memory then holds each
lane's word, unless a higher lane stores there too, and below quad scope it stores as STW does (R62, R202, R210, R211). -/
def Sys2Proof.Claims.ReleasingStore : Prop :=
  ∀ (p : Option Pfx) (d a : BitVec 8) (c q : BitVec 3) (s : State), Issuing s → act p s ≠ 0 →
    let addr := Claims.laneAddr p a 0 0 s
    let on := fun l => l < 32 ∧ inMask (act p s) l = true
    let released := if 2 ≤ q.toNat then releaseActs s (me s).core c.toNat else s
    let t := advance (acquireAfter q.toNat c.toNat released.nextId (storeEffect (act p s) addr d.toNat 4 c.toNat released))
    (2 ≤ q.toNat → holds s (me s) (.drained (decide (4 ≤ c.toNat))) = true) → (2 ≤ q.toNat → 2 ≤ c.toNat → mustCompare s = false) →
    (me s).cntSt < 128 → gateFull s (me s) (4 * laneCount (act p s)) = false →
    Reaches p [d.toNat, a.toNat, a.toNat + 1] a.toNat addr 4 .write false s →
    exec (.strel p d a c q) s = .next t ∧
    (c.toNat < 2 → storeEffect (act p s) addr d.toNat 4 c.toNat released = storeEffect (act p s) addr d.toNat 4 1 released) ∧
    (isRedundant s (me s) = false → 2 ≤ c.toNat → s.wcb = [] → s.mem.wf = true → (2 ≤ q.toNat → ∀ x ∈ s.l1, x.dirty = 0) →
      (∀ l, on l → ∃ m, Claims.AtMemory s .write false (addr l) m ∧ m % 4 = 0 ∧ inBlock m = false) →
      Accessed { me s with cntSt := (me s).cntSt + 1 } s t ∧
      (q.toNat < 2 → ∀ b, (∀ l m, on l → Claims.AtMemory s .write false (addr l) m → Apart m 4 b 1) →
        t.mem.get b = s.mem.get b ∧ t.mem.bad b = s.mem.bad b) ∧
      ∀ l m, on l → Claims.AtMemory s .write false (addr l) m →
        (∀ k n, on k → l < k → Claims.AtMemory s .write false (addr k) n → Apart n 4 m 4) →
        t.mem.readBad m 4 = (lane s d.toNat l).poison ∧
        ((lane s d.toNat l).poison = false → ofBytes (t.mem.read m 4) = (lane s d.toNat l).val.toNat))

/-- A store at quad scope or wider puts its bytes at home (R62): the home holds them, and nothing else there changes. -/
def Sys2Proof.Claims.ThroughWrites : Prop :=
  ∀ (s : State) (core a : Nat) (bs : List Byte) (w : Warp) (k : LineKind) (scope : Nat), s.wcb = [] → s.mem.wf = true →
    inBlock a = false → isRedundant s w = false → 2 ≤ scope → w.core = core →
    let t := writeSpot s w (.mem a) bs false k scope
    t.mem.read a bs.length = bs ∧ (∀ x, x < a ∨ a + bs.length ≤ x → t.mem.get x = s.mem.get x) ∧
    (∀ x, t.mem.bad x = true → s.mem.bad x = true) ∧ t.mem.wf = true ∧
    ∀ e ∈ t.sharers, e.1 ≠ lineBase a

/-- What a core finds in memory: what memory holds where it has no copy, what it wrote itself, and at home what a wider store put there. -/
def Obligations.MemoryView : Prop :=
  Claims.UncachedReads ∧ Claims.CoreWrites ∧ Claims.ThroughWrites

/-- STNT issues, counted in CNT.ST (R208): with the buffer empty and lanes that do not fill their one line, its words are in the
core's write-combining buffer and home memory is as it was. -/
def Sys2Proof.Claims.NonTemporal : Prop :=
  ∀ (p : Option Pfx) (d a o : BitVec 8) (s : State), Issuing s →
    let addr := Claims.laneAddr p a o 4 s
    let named := [d.toNat, a.toNat, a.toNat + 1]
    let on := fun l => l < 32 ∧ inMask (act p s) l = true
    (act p s = 0 → Calm p named s → ∃ t, exec (.stnt p d a o) s = .next t ∧ Retired [] s t) ∧
    (act p s ≠ 0 → (me s).cntSt < 128 → Reaches p named a.toNat addr 4 .write false s →
      gateFull s (me s) (4 * laneCount (act p s)) = false →
      (∀ l, on l → ∃ m, Claims.AtMemory s .write false (addr l) m) →
      ∃ t, exec (.stnt p d a o) s = .next t ∧ (fr t).pc = nextPc s ∧ (me t).cntSt = (me s).cntSt + 1 ∧
        (∀ r, regOf (me t) r = regOf (me s) r) ∧
        (isRedundant s (me s) = false → Accessed { me s with cntSt := (me s).cntSt + 1 } s t ∧
          ∀ base, s.wcb = [] → laneCount (act p s) < 32 →
            (∀ l m, on l → Claims.AtMemory s .write false (addr l) m → lineBase m = base ∧ m % 4 = 0 ∧ inBlock m = false) →
            HomeKept s t ∧ ∃ x, t.wcb = [x] ∧ x.core = (me s).core ∧ x.base = base ∧
              ∀ l m, on l → Claims.AtMemory s .write false (addr l) m →
                (∀ k n, on k → l < k → Claims.AtMemory s .write false (addr k) n → Apart n 4 m 4) →
                x.data.readBad (m % 128) 4 = (lane s d.toNat l).poison ∧
                ((lane s d.toNat l).poison = false → ofBytes (x.data.read (m % 128) 4) = (lane s d.toNat l).val.toNat)))

/-- PREF goes on whatever it meets, with no register and no byte of home memory changed; the line of each active lane that a page
gives is wholly in the L1 afterwards at level 0 (R209).
That a lane whose address is poisoned requests nothing is the model's choice (log entry 149). -/
def Sys2Proof.Claims.Prefetches : Prop :=
  ∀ (p : Option Pfx) (a o : BitVec 8) (s : State), Issuing s →
    (∃ t, exec (.prefHome p a o) s = .next t ∧ Accessed (me s) s t ∧ HomeKept s t) ∧
    ∃ t, exec (.prefL1 p a o) s = .next t ∧ Accessed (me s) s t ∧ HomeKept s t ∧
      (Calm p [a.toNat, a.toNat + 1] s → Clean (act p s) [a.toNat, a.toNat + 1] s →
        ∀ l m, l < 32 → inMask (act p s) l = true → Claims.laneAddr p a o 4 s l < aperture →
          Claims.AtMemory s .read false (Claims.laneAddr p a o 4 s l) m →
          ∃ x, l1Find t (me s).core m = some x ∧ x.present = allBytes)

/-- FENCE (R211, Table ISAM.4): a release waits for the warp's earlier accesses; that over, FENCE holds the fragment's later accesses
until the loads in flight have returned when it acquires, leaves the core's NORM lines clean when it releases at quad scope or
wider, and without clean bytes when it acquires there. -/
def Sys2Proof.Claims.Fences : Prop :=
  ∀ (c q : BitVec 3) (s : State), Issuing s →
    let core := (me s).core
    (2 ≤ q.toNat → holds s (me s) (.drained (decide (4 ≤ c.toNat))) = false →
      exec (.fence c q) s = .next (waitDrained c.toNat s)) ∧
    ((2 ≤ q.toNat → holds s (me s) (.drained (decide (4 ≤ c.toNat))) = true) → (2 ≤ q.toNat → 2 ≤ c.toNat → mustCompare s = false) →
      ∃ t, exec (.fence c q) s = .next t ∧ Accessed (me s) s t ∧
        (q = 0 → t.l1 = s.l1 ∧ (s.wcb = [] → HomeKept s t)) ∧
        (q.toNat = 1 ∨ 3 ≤ q.toNat → (fr t).acquire = ((opsOf s (me s)).filter fun o => o.ctr == .ld).map (·.id)) ∧
        (4 ≤ c.toNat → ∀ x ∈ t.wcb, x.core ≠ core) ∧
        (2 ≤ c.toNat → 2 ≤ q.toNat → ∀ x ∈ t.l1, x.core = core → x.kind = .norm → x.dirty = 0) ∧
        (2 ≤ c.toNat → q.toNat = 1 ∨ 3 ≤ q.toNat → ∀ x ∈ t.l1, x.core = core → x.kind = .norm → x.dirty ≠ 0 ∧ x.present = x.dirty))

/-- LDACQ, STREL, STNT, PREF and FENCE issue with the order that they state.
That the accesses after an acquire fence wait for the earlier loads is the model's choice (log entry 45).
Every access takes effect at issue: log entry 9; the empty lane set of an ordered access: 180. -/
def Obligations.OrderedAndOther : Prop :=
  Claims.OrderedWaits ∧ Claims.AcquiringLoad ∧ Claims.ReleasingStore ∧ Claims.NonTemporal ∧ Claims.Prefetches ∧ Claims.Fences

/-- LDM and STM issue over a run of up to 32 registers (R214): row i, lane l is at B + 128 i + 4 l.  LDM's reply will write what the
core finds there; after STM the core finds there what the registers hold, and every word that the run does not touch as it was.
With EXEC = 0 they make no access (R126); a B that is no multiple of 128 raises class 2 code 0x020 in the lowest lane of EXEC.
Effects at issue: log entry 9; STM checks all lines first: log entry 34; that the lanes of a misaligned B's record are the lowest lane of EXEC: log entry 32. -/
def Obligations.RegisterRuns : Prop :=
  ∀ (d a : BitVec 8) (n : BitVec 5) (s : State), Issuing s →
    let b := (scalarPair (me s) (fr s) a.toNat).toNat
    let k := n.toNat + 1
    let at' := fun (i l : Nat) => b + 128 * i + 4 * l
    let on := fun (i l : Nat) => i < k ∧ l < 32 ∧ inMask (fr s).exec l = true
    let rows := fun (need : Need) => ∀ i, i < k → ∃ sp, spotOf s (me s) (b + 128 * i) need false = .ok sp
    let free := fun (need : Need) => tilesFree s (runPlaces s (me s) (fr s).exec b k need) 4 = true
    Inside (regRun d.toNat k ++ [a.toNat, a.toNat + 1]) s →
    ((fr s).exec = 0 →
      (∃ t, exec (.ldm d a n) s = .next t ∧ Retired (regRun d.toNat k) s t ∧ ∀ r, regOf (me t) r = regOf (me s) r) ∧
      ∃ t, exec (.stm d a n) s = .next t ∧ Retired [] s t) ∧
    ((fr s).exec ≠ 0 → scalarPoison (me s) (fr s) [a.toNat, a.toNat + 1] = 0 → b % 128 ≠ 0 →
      let c : Cause := { cls := 2, code := 0x020, res := true, lanes := BitVec.ofNat 32 (2 ^ lowestLane (fr s).exec)
                         addr := BitVec.ofNat 64 b, info := 128 }
      ((me s).cntLd < 128 → rows .read → exec (.ldm d a n) s = .next (raise c s)) ∧
      ((me s).cntSt < 128 → rows .write → exec (.stm d a n) s = .next (raise c s))) ∧
    ((fr s).exec ≠ 0 → scalarPoison (me s) (fr s) [a.toNat, a.toNat + 1] = 0 → b % 128 = 0 →
      ((me s).cntLd < 128 → rows .read → free .read →
        ∃ t, exec (.ldm d a n) s = .next t ∧ Accessed { me s with cntLd := (me s).cntLd + 1 } s t ∧
          (isRedundant s (me s) = false → Settled s →
            (∀ i l, on i l → ∃ m, Claims.AtMemory s .read false (at' i l) m) →
            HomeKept s t ∧ InFlight d.toNat k (fr s).exec 0 (fun i l =>
              match spotOf s (me s) (at' i l) .read false with
              | .ok (.mem m) => seenWord s (me s).core m
              | _ => {}) t)) ∧
      ((me s).cntSt < 128 → rows .write → free .write → gateFull s (me s) (4 * k * laneCount (fr s).exec) = false →
        ∃ t, exec (.stm d a n) s = .next t ∧ (fr t).pc = nextPc s ∧ (me t).cntSt = (me s).cntSt + 1 ∧
          (∀ r, (∀ i l, on i l → ∃ m, Claims.AtMemory s .write false (at' i l) m) → regOf (me t) r = regOf (me s) r) ∧
          (isRedundant s (me s) = false → Settled s →
            (∀ i l, on i l → ∃ m, Claims.AtMemory s .write false (at' i l) m ∧ m % 4 = 0 ∧ inBlock m = false) →
            Accessed { me s with cntSt := (me s).cntSt + 1 } s t ∧ HomeKept s t ∧
            (∀ x, (∀ i l m, on i l → Claims.AtMemory s .write false (at' i l) m → Apart m 4 x 1) →
              seen t (me s).core x = seen s (me s).core x) ∧
            ∀ i l m, on i l → Claims.AtMemory s .write false (at' i l) m →
              (∀ j k n, on j k → (j, k) ≠ (i, l) → Claims.AtMemory s .write false (at' j k) n → Apart n 4 m 4) →
              let y := lane s (d.toNat + i) l
              if y.poison then (seen t (me s).core m).2 = true
              else ∀ j, j < 4 → (seen t (me s).core (m + j)).1 = [BitVec.ofNat 8 (y.val.toNat / 256 ^ j)])))

/-- The scratchpad loads and stores (R213): word i of lane l is at the team's allocation plus the offset plus 4 i; a load writes
its registers at once, a store puts its words there, the highest lane's last, and changes no other byte.
An offset past the 4 MiB part wraps in the model (log entry 33). -/
def Obligations.ScratchAccess : Prop :=
  ∀ (p : Option Pfx) (d a o : BitVec 8) (s : State), Issuing s →
    let off := fun (n l : Nat) => (offAt (me s) a.toNat l (immSigned p o * (4 * n : Nat)))
    let word := fun (n l i : Nat) => scrAddr (me s).core (((teamOf s (me s)).scrBase + ((dwordOf (off n l)).toNat + 4 * i)) % 0x400000)
    let ok := fun (n : Nat) => Calm p (regRun d.toNat n ++ [a.toNat]) s ∧ Clean (act p s) [a.toNat] s ∧
      ∀ l, l < 32 → inMask (act p s) l = true → (dwordOf (off n l)).toNat % (4 * n) = 0
    let load := fun (i : Instr) (n : Nat) => ok n → ∃ t, exec i s = .next t ∧ Retired (regRun d.toNat n) s t ∧
      ∀ j, j < n → d.toNat + n ≤ 256 → Wrote p s t (d.toNat + j) fun l => s.mem.lane (word n l j)
    let store := fun (i : Instr) (n : Nat) => ok n → ∃ t, exec i s = .next t ∧ Retired [] { s with mem := t.mem } t ∧
      (∀ x, (∀ l j, l < 32 → inMask (act p s) l = true → j < n → Apart (word n l j) 4 x 1) →
        t.mem.get x = s.mem.get x ∧ t.mem.bad x = s.mem.bad x) ∧
      ∀ l j, l < 32 → inMask (act p s) l = true → j < n → s.mem.wf = true → (teamOf s (me s)).scrBase % 4 = 0 →
        (∀ k i, k < 32 → inMask (act p s) k = true → i < n → (l < k ∨ (l = k ∧ j < i)) → word n k i ≠ word n l j) →
        t.mem.lane (word n l j) = if (lane s (d.toNat + j) l).poison then poisoned else clean (lane s (d.toNat + j) l).val
    load (.lds p d a o) 1 ∧ load (.ldsq p d a o) 4 ∧ store (.sts p d a o) 1 ∧ store (.stsq p d a o) 4

/-! ### Atomics -/

/-- The atomics on memory (Table ISAM.5): bytes of the word, registers of a third source, and the new value that lane l makes of the
old one. -/
def Sys2Proof.Claims.atomicTable (p : Option Pfx) (d a : BitVec 8) (c q : BitVec 3) :
    List (Instr × Nat × List Nat × (State → Nat → Nat → Nat)) :=
  let b := fun (s : State) (l : Nat) => (lane s d.toNat l).val.toNat
  let e := thirdReg p d.toNat
  let pair := fun (s : State) (r l : Nat) => (lane s r l).val.toNat + 2 ^ 32 * (lane s (r + 1) l).val.toNat
  [ (.aadd p d a c q, 4, [], fun s l m => elemOp (myEt s) (· + ·) m (b s l)),
    (.amin p d a c q, 4, [], fun s l m => elemOp (myEt s) min m (b s l)),
    (.amax p d a c q, 4, [], fun s l m => elemOp (myEt s) max m (b s l)),
    (.aand p d a c q, 4, [], fun s l m => m &&& b s l),
    (.aor p d a c q, 4, [], fun s l m => m ||| b s l),
    (.axor p d a c q, 4, [], fun s l m => m ^^^ b s l),
    (.axchg p d a c q, 4, [], fun s l _ => b s l),
    (.ainc p d a c q, 4, [], fun s l m => if b s l ≤ m then 0 else m + 1),
    (.acas p d a c q, 4, [e], fun s l m => if m = b s l then (lane s e l).val.toNat else m),
    (.afadd p d a c q, 4, [], fun s l m => atomicSum fp32 m (b s l)),
    (.afadd2 p d a c q, 4, [], fun s l m => atomicSum2 (if modeEt (me s) = 6 then f16 else bf16) m (b s l)),
    (.aadd64 p d a c q, 8, [], fun s l m => (m + pair s d.toNat l) % 2 ^ 64),
    (.acas64 p d a c q, 8, [e, e + 1], fun s l m => if m = pair s d.toNat l then pair s e l else m) ]

/-- The state in which an ordered access of scope c and order q acts: after the release's write-backs (R211). -/
def Sys2Proof.Claims.released (c q : BitVec 3) (s : State) : State :=
  if 2 ≤ q.toNat then releaseActs s (me s).core c.toNat else s

/-- A release has nothing to wait for, and no comparison of a redundant launch (R211, R44). -/
def Sys2Proof.Claims.Ordered (c q : BitVec 3) (s : State) : Prop :=
  isRedundant s (me s) = false ∧ (2 ≤ q.toNat → holds s (me s) (.drained (decide (4 ≤ c.toNat))) = true)

/-- Every atomic on memory issues, counted in CNT.LD: its lanes act one after another from the lowest (R215), each making of the old
value its new one; the reply will write the old values.  With no active lane it makes no access.
The atomics are performed at issue (log entry 9); one with no active lane orders nothing (log entry 180). -/
def Obligations.Atomics : Prop :=
  ∀ (p : Option Pfx) (d a : BitVec 8) (c q : BitVec 3), ∀ x ∈ Claims.atomicTable p d a c q, ∀ s, Issuing s →
    let n := x.2.1 / 4
    let srcs := regRun d.toNat n ++ x.2.2.1
    let named := srcs ++ [a.toNat, a.toNat + 1]
    let addr := Claims.laneAddr p a 0 0 s
    let seq := atomicLanes (fillPages (Claims.released c q s) (me s) (act p s) addr) (me s) (act p s) addr x.2.1 c.toNat (x.2.2.2 s)
      fun l => srcs.any fun r => (lane s r l).poison
    (act p s = 0 → Calm p named s → ∃ t, exec x.1 s = .next t ∧ Retired (regRun d.toNat n) s t) ∧
    (act p s ≠ 0 → (me s).cntLd < 128 → Claims.Ordered c q s → Reaches p named a.toNat addr x.2.1 .write true s →
      ∃ t, exec x.1 s = .next t ∧ Accessed { me s with cntLd := (me s).cntLd + 1 } s t ∧ t.mem = seq.1.mem ∧
        InFlight d.toNat n (act p s) (zer p s) (fun i l => (look seq.2 l []).getD i {}) t ∧
        (q.toNat = 1 ∨ 3 ≤ q.toNat → (fr t).acquire = [s.nextId]) ∧
        (c.toNat < 2 → s.wcb = [] → HomeKept s t))

/-- One lane's atomic at quad scope or wider: the home's word becomes what the operation makes of it, the lane receives the old word,
poison of the word or of an operand poisons both, and no other byte of home memory changes (R215, R216, R373). -/
def Obligations.AtomicLane : Prop :=
  ∀ (s : State) (w : Warp) (va a size scope : Nat) (g : Nat → Nat) (bad : Bool), 2 ≤ scope → size = 4 ∨ size = 8 → a % size = 0 →
    Settled s → s.mem.wf = true → spotOf s w va .write true = .ok (.mem a) → inBlock a = false →
    (∀ x, l1Find s w.core a = some x → x.dirty = 0) → g (ofBytes (s.mem.read a size)) < 256 ^ size →
    let r := atomicLane s w va size scope g bad
    let old := ofBytes (s.mem.read a size)
    (s.mem.readBad a size = false → bad = false →
      ofBytes (r.1.mem.read a size) = g old ∧ r.1.mem.readBad a size = false ∧
      r.2 = (List.range (size / 4)).map fun i => clean (BitVec.ofNat 32 (old / 2 ^ (32 * i)))) ∧
    (s.mem.readBad a size = true ∨ bad = true →
      r.1.mem.readBad a size = true ∧ r.2 = List.replicate (size / 4) poisoned) ∧
    (∀ b, Apart a size b 1 → r.1.mem.get b = s.mem.get b ∧ r.1.mem.bad b = s.mem.bad b) ∧ r.1.mem.wf = true

/-- The scratchpad atomics: registers of a third source, and the new value that lane l makes of the old one. -/
def Sys2Proof.Claims.scratchTable (p : Option Pfx) (d a : BitVec 8) (c q : BitVec 3) : List (Instr × List Nat × (State → Nat → Nat → Nat)) :=
  let b := fun (s : State) (l : Nat) => (lane s d.toNat l).val.toNat
  let e := thirdReg p d.toNat
  [ (.sadd p d a c q, [], fun s l m => elemOp (myEt s) (· + ·) m (b s l)),
    (.scas p d a c q, [e], fun s l m => if m = b s l then (lane s e l).val.toNat else m),
    (.sxchg p d a c q, [], fun s l _ => b s l) ]

/-- The scratchpad atomics of the lanes of a set in ascending order, from a state. -/
def Sys2Proof.Claims.scratchSeq (s : State) (w : Warp) (m : Word) (off : Nat → Nat) (g : Nat → Nat → Nat) (bad : Nat → Bool) :
    State × List (Nat × Lane) :=
  (lanesOf m).foldl (fun acc l =>
    let r := scratchAtomicLane acc.1 w (off l) (g l) (bad l)
    (r.1, (l, r.2) :: acc.2)) (s, [])

/-- Every scratchpad atomic completes at once, lane after lane, each active lane of D taking the old word; a relaxed one changes
nothing else but those words. -/
def Obligations.ScratchAtomics : Prop :=
  ∀ (p : Option Pfx) (d a : BitVec 8) (c q : BitVec 3), ∀ x ∈ Claims.scratchTable p d a c q, ∀ s, Issuing s → act p s ≠ 0 →
    let srcs := d.toNat :: x.2.1
    let off := fun l => (lane s a.toNat l).val.toNat
    let seq := Claims.scratchSeq (Claims.released c q s) (me s) (act p s) off (x.2.2 s) fun l => srcs.any fun r => (lane s r l).poison
    Calm p (srcs ++ [a.toNat]) s → Clean (act p s) [a.toNat] s → Claims.Ordered c q s →
    (∀ l, l < 32 → inMask (act p s) l = true → off l % 4 = 0) →
    ∃ t, exec x.1 s = .next t ∧ (fr t).pc = nextPc s ∧ (Wrote p s t d.toNat fun l => look seq.2 l {}) ∧ t.mem = seq.1.mem ∧
      (q = 0 → Retired [d.toNat] { s with mem := t.mem } t) ∧
      (q = 0 → ∀ b, (∀ l, l < 32 → inMask (act p s) l = true → Apart (scratchAddr s (me s) (off l)) 4 b 1) →
        t.mem.get b = s.mem.get b ∧ t.mem.bad b = s.mem.bad b)

/-! ### Locks and exchanges -/

/-- The address of a lock word is sound: clean, aligned, and in memory at `place` (R392, R409, R415). -/
structure Sys2Proof.Claims.LockWord (a : BitVec 8) (place : Nat) (s : State) : Prop where
  lanes : (fr s).exec ≠ 0
  clean : scalarPoison (me s) (fr s) [a.toNat, a.toNat + 1] = 0
  inside : Inside [a.toNat, a.toNat + 1] s
  aligned : (scalarPair (me s) (fr s) a.toNat).toNat % 4 = 0
  spot : spotOf s (me s) (scalarPair (me s) (fr s) a.toNat).toNat .write true = .ok (.mem place)
  alone : isRedundant s (me s) = false

/-- Nothing stands between a LOCK and its reply: the fragment is the one of its number, no handler holds it and it does not stand halted, its
home is reached, no packet of its request is lost, and no earlier reply to it is on its way. -/
structure Sys2Proof.Claims.Answerable (place : Nat) (s : State) : Prop where
  warp : warpAt s (me s).core (me s).slot = s.cur.warp
  frag : indexWhere (fun f => f.id == (fr s).id) (me s).frags = s.cur.frag
  running : (me s).halted = false
  free : (fr s).held = false
  reached : homeReached s (launchOf s (me s)).world (me s).core place = true
  sound : opLost s s.nextId = false
  new : ∀ x ∈ s.waiters, x.core = (me s).core → x.slot = (me s).slot → x.frag ≠ (fr s).id

/-- The word at a lock's place as memory holds it. -/
def Sys2Proof.Claims.lockValue (place : Nat) (s : State) : Word := BitVec.ofNat 32 (ofBytes (s.mem.read place 4))

/-- No byte of memory has changed but those of the word. -/
def Sys2Proof.Claims.OthersKept (place : Nat) (s t : State) : Prop :=
  ∀ b, Apart place 4 b 1 → t.mem.get b = s.mem.get b ∧ t.mem.bad b = s.mem.bad b

/-- LOCK (R220, R370, R398): a free word becomes the warp's, and LOCK_HANDOVER_REPLY then sets the token and lets the fragment go on; of
a word that another holds it waits as a registered waiter, or without one where the slice's list is full; of its own it raises code 0x081,
of a poisoned one 0x082; without a route the request is on its way.
The word changes at issue (log entry 9); the fragment goes on with the reply (log entry 185). -/
def Sys2Proof.Claims.Locking : Prop :=
  ∀ (n : BitVec 3) (a : BitVec 8) (c : BitVec 3) (place : Nat) (s : State), Issuing s → Claims.LockWord a place s →
    Settled s → l1Find s (me s).core place = none → s.mem.wf = true → inBlock place = false → place % 4 = 0 → (me s).tokens.length = 8 →
    let va := scalarPair (me s) (fr s) a.toNat
    let mine := ownerValue s (me s).core (me s).slot
    let raised := fun (x : Cause) => ∃ u : State, u.warps = s.warps ∧ u.mem = s.mem ∧ exec (.lock n a c) s = .next (raise x u)
    let stays := fun (t : State) => (fr t).pc = (fr s).pc ∧ (me t).tokens = (me s).tokens ∧ ∀ r, regOf (me t) r = regOf (me s) r
    (homeReached s (launchOf s (me s)).world (me s).core place = false →
      ∃ t, exec (.lock n a c) s = .next t ∧ (fr t).wait = .lockSent place s.nextId va ∧ stays t ∧ t.mem = s.mem ∧ t.waiters = s.waiters) ∧
    (homeReached s (launchOf s (me s)).world (me s).core place = true →
      (s.mem.bad place = true → raised { cls := 2, code := 0x082, pois := true, addr := va, info := BitVec.ofNat 32 n.toNat }) ∧
      (s.mem.bad place = false → mine ≠ 0 →
        (Claims.lockValue place s = mine → raised { cls := 2, code := 0x081, addr := va, info := BitVec.ofNat 32 n.toNat }) ∧
        (Claims.lockValue place s ≠ 0 → Claims.lockValue place s ≠ mine → ∃ t, exec (.lock n a c) s = .next t ∧ stays t ∧ t.mem = s.mem ∧
          (256 ≤ sliceWaiters s place → (fr t).wait = .lockRetry place ∧ t.waiters = s.waiters) ∧
          (sliceWaiters s place < 256 → (fr t).wait = .lock place ∧ t.waiters = s.waiters ++ [
            { word := place, core := (me s).core, slot := (me s).slot, frag := (fr s).id, token := n.toNat, scope := c.toNat
              vaddr := va, granted := false, woken := false, id := s.nextId }])) ∧
        (Claims.lockValue place s = 0 → Claims.Answerable place s → ∃ t v, exec (.lock n a c) s = .next t ∧
          Claims.lockValue place t = mine ∧ Claims.OthersKept place s t ∧ (fr t).wait = .lock place ∧ stays t ∧
          exec (.lockHandoverReply (me s).core (me s).slot (fr s).id) t = .next v ∧ (fr v).pc = (fr s).pc + 4 ∧ (fr v).wait = .none ∧
          (me v).tokens = (me s).tokens.set n.toNat { addr := va, held := true, scope := c.toNat } ∧ v.mem = t.mem ∧
          ∀ r, regOf (me v) r = regOf (me s) r)))

/-- UNLOCK waits for the warp's earlier accesses, counts in CNT.ST, gives up the token and the word: to the oldest fragment registered on it,
or, with none, the word becomes 0.  A word found 0, or another warp's, leaves code 0x080 or 0x083 pending beside that; a poisoned word stays as it is
and raises code 0x082 (R211, R221, R370, R398).
The word changes at issue (log entry 9). -/
def Sys2Proof.Claims.Unlocking : Prop :=
  ∀ (n : BitVec 3) (a : BitVec 8) (c : BitVec 3) (place : Nat) (s : State), Issuing s → Claims.LockWord a place s →
    Settled s → l1Find s (me s).core place = none → (∀ x ∈ s.l1, x.dirty = 0) → s.mem.wf = true → homeTakes s place = true → place % 4 = 0 →
    (me s).tokens.length = 8 →
    let va := scalarPair (me s) (fr s) a.toNat
    let mine := ownerValue s (me s).core (me s).slot
    let waits := fun (x : Waiter) => x.word == place && !x.granted
    let found := Claims.lockValue place s
    (holds s (me s) (.drained (decide (4 ≤ c.toNat))) = false → exec (.unlock n a c) s = .next (waitDrained c.toNat s)) ∧
    (holds s (me s) (.drained (decide (4 ≤ c.toNat))) = true → (me s).cntSt < 128 →
      (s.mem.bad place = true → exec (.unlock n a c) s =
        .next (raise { cls := 2, code := 0x082, pois := true, addr := va, info := BitVec.ofNat 32 n.toNat } s)) ∧
      (s.mem.bad place = false → ∃ t, exec (.unlock n a c) s = .next t ∧ (fr t).pc = nextPc s ∧ (me t).cntSt = (me s).cntSt + 1 ∧
        (me t).tokens = (me s).tokens.set n.toNat { (me s).tokens.getD n.toNat {} with held := false, addr := 0 } ∧
        (∀ r, regOf (me t) r = regOf (me s) r) ∧ Claims.OthersKept place s t ∧
        (s.waiters.find? waits = none → Claims.lockValue place t = 0 ∧ t.waiters = s.waiters) ∧
        (∀ x, s.waiters.find? waits = some x → Claims.lockValue place t = ownerValue s x.core x.slot ∧
          t.waiters = updateFirst waits (fun y => { y with granted := true, woken := false }) s.waiters) ∧
        (found = mine → (me t).pending = (me s).pending) ∧
        (found ≠ mine → ∃ p, (me t).pending = (me s).pending ++ [p] ∧ p.cls = 2 ∧ p.code = (if found = 0 then 0x080 else 0x083) ∧
          p.addr = va ∧ p.pc = (fr s).pc ∧ p.frag = (fr s).frag)))

/-- LOCK and UNLOCK: with no lane in EXEC they make no access (R126); else the word is taken, waited for, handed on and given up.
The word changes at issue (log entry 9); the fragment goes on with the reply (log entry 185). -/
def Obligations.Locks : Prop :=
  (∀ (n : BitVec 3) (a : BitVec 8) (c : BitVec 3) (s : State), Issuing s → (fr s).exec = 0 →
    (∃ t, exec (.lock n a c) s = .next t ∧ Retired [] s t) ∧ ∃ t, exec (.unlock n a c) s = .next t ∧ Retired [] s t) ∧
  Claims.Locking ∧ Claims.Unlocking

/-- LOCK_HANDOVER_REPLY gives a fragment the lock that it took or was handed and lets it go on, but not while its warp stands halted or a handler
holds it; LOCK_RETRY and LOCK_WAITER_WAKE make fragments ready to perform their LOCK again (R220, R221).
The reply waits for the handler's ERET: log entry 171. -/
def Sys2Proof.Claims.LockEvents : Prop :=
  ∀ (core slot fid : Nat) (s : State),
    let i := warpAt s core slot
    let w := s.warps.getD i {}
    let j := indexWhere (fun f => f.id == fid) w.frags
    let answered := fun (y : Waiter) => y.core == core && y.slot == slot && y.frag == fid && y.granted && !opLost s y.id &&
      homeReached s (launchOf s w).world core y.word
    i < s.warps.length → j < w.frags.length →
    ((w.halted = true ∨ (w.frags.getD j {}).held = true) → exec (.lockHandoverReply core slot fid) s = .next s) ∧
    (∀ x, s.waiters.find? answered = some x → w.halted = false → (w.frags.getD j {}).held = false →
      isRedundant s w = false → w.tokens.length = 8 →
      ∃ t, exec (.lockHandoverReply core slot fid) s = .next t ∧
        ((t.warps.getD i {}).frags.getD j {}).pc = (w.frags.getD j {}).pc + 4 ∧
        ((t.warps.getD i {}).frags.getD j {}).wait = .none ∧
        (t.warps.getD i {}).tokens = w.tokens.set x.token { addr := x.vaddr, held := true, scope := x.scope } ∧
        ((∀ y ∈ s.l1, y.dirty = 0) → t.mem = s.mem) ∧ (∀ r, regOf (t.warps.getD i {}) r = regOf w r)) ∧
    (∀ a, (w.frags.getD j {}).wait = .lockRetry a →
      ∃ t, exec (.lockRetry core slot fid) s = .next t ∧ ((t.warps.getD i {}).frags.getD j {}).wait = .none ∧
        ((t.warps.getD i {}).frags.getD j {}).pc = (w.frags.getD j {}).pc ∧ { t with warps := s.warps } = s) ∧
    (∀ x, s.waiters = [x] → x.core = core → x.slot = slot → x.frag = fid → x.woken = true → x.granted = false →
      ∃ t, exec (.lockWaiterWake x.word) s = .next t ∧ ((t.warps.getD i {}).frags.getD j {}).wait = .none ∧
        { t with warps := s.warps } = { s with waiters := [] })

/-- XCHG waits with a snapshot of its sources, or raises code 0x061 with no partner there; XCHG_MATCH exchanges the runs of two warps that
wait for each other, each lane of the sender's EXEC and the receiver's FRAG, and lets both go on (R199, R397).  So an XCHG whose partner
already waits for it with the same ordinal and run length completes: both runs are exchanged and both fragments have gone on.
Code 0x061 at issue for a missing partner is the model's reading (log entry 35); one that names its own team finds no partner in itself (log entry 179). -/
def Obligations.Exchanges : Prop :=
  (∀ (d e : BitVec 8) (k n : BitVec 4) (s : State), Issuing s → Inside (regRun d.toNat (n.toNat + 1) ++ regRun e.toNat (n.toNat + 1)) s →
    (xchgPartner s (me s) k.toNat = none → exec (.xchg d e k n) s = .next (raise { cls := 2, code := 0x061 } s)) ∧
    ∀ i, xchgPartner s (me s) k.toNat = some i → ∃ t, exec (.xchg d e k n) s = .next t ∧ (fr t).wait = .xchg ∧ (fr t).pc = (fr s).pc ∧
      (∀ r, regOf (me t) r = regOf (me s) r) ∧ t.mem = s.mem ∧
      ∃ x, (me t).xchg = some x ∧ x.snapshot = (regRun e.toNat (n.toNat + 1)).map (regOf (me s)) ∧ x.dest = d.toNat ∧
        x.count = n.toNat + 1 ∧ x.exec = (fr s).exec) ∧
  (∀ (d e : BitVec 8) (k n : BitVec 4) (s : State) (j : Nat) (y : Xchg) (g : Frag), Issuing s →
    let count := n.toNat + 1
    let u := s.warps.getD j {}
    Inside (regRun d.toNat count ++ regRun e.toNat count) s → d.toNat + count ≤ 256 →
    warpAt s (me s).core (me s).slot = s.cur.warp → warpAt s u.core u.slot = j → j ≠ s.cur.warp →
    indexWhere (fun f => f.id == (fr s).id) (me s).frags = s.cur.frag → fragById u y.frag = some g →
    xchgPartner s (me s) k.toNat = some j → xchgPartner s u y.region = some s.cur.warp →
    u.xchg = some y → sentTo (me s) u.team = y.ordinal → y.count = count → y.snapshot.length = count →
    u.regs.length = 256 → y.dest + count ≤ 256 →
    ∃ t v, exec (.xchg d e k n) s = .next t ∧ exec (.xchgMatch (me s).core (me s).slot u.core u.slot) t = .next v ∧
      (fr v).pc = (fr s).pc + 4 ∧ (fr v).wait = .none ∧ (me v).xchg = none ∧
      fragById (v.warps.getD j {}) y.frag = some { g with pc := g.pc + 4, wait := .none } ∧ (v.warps.getD j {}).xchg = none ∧
      (∀ i l, i < count → l < 32 →
        lane v (d.toNat + i) l =
          (if inMask (y.exec &&& (fr s).frag) l then laneAt (y.snapshot.getD i []) l else lane s (d.toNat + i) l) ∧
        laneAt (regOf (v.warps.getD j {}) (y.dest + i)) l =
          if inMask ((fr s).exec &&& g.frag) l then lane s (e.toNat + i) l else laneAt (regOf u (y.dest + i)) l) ∧
      (∀ r, r < d.toNat ∨ d.toNat + count ≤ r → regOf (me v) r = regOf (me s) r) ∧
      (∀ r, r < y.dest ∨ y.dest + count ≤ r → regOf (v.warps.getD j {}) r = regOf u r) ∧ v.mem = s.mem) ∧
  ∀ (core slot core' slot' : Nat) (s : State) (x y : Xchg),
    let i := warpAt s core slot
    let j := warpAt s core' slot'
    let v := s.warps.getD i {}
    let u := s.warps.getD j {}
    let from' := fun (r : Row) (into : Word) (old : Row) (theirs : Word) (l : Nat) =>
      if inMask (theirs &&& into) l then laneAt r l else laneAt old l
    i < s.warps.length → j < s.warps.length → i ≠ j → v.xchg = some x → u.xchg = some y → xchgPartner s v x.region = some j →
    xchgPartner s u y.region = some i → x.ordinal = y.ordinal → x.count = y.count → x.snapshot.length = x.count →
    y.snapshot.length = y.count → v.regs.length = 256 → u.regs.length = 256 → x.dest + x.count ≤ 256 → y.dest + y.count ≤ 256 →
    ∃ t, exec (.xchgMatch core slot core' slot') s = .next t ∧ (t.warps.getD i {}).xchg = none ∧ (t.warps.getD j {}).xchg = none ∧
      (∀ k l, k < x.count → l < 32 →
        laneAt (regOf (t.warps.getD i {}) (x.dest + k)) l =
          from' (y.snapshot.getD k []) ((fragById v x.frag).getD {}).frag (regOf v (x.dest + k)) y.exec l ∧
        laneAt (regOf (t.warps.getD j {}) (y.dest + k)) l =
          from' (x.snapshot.getD k []) ((fragById u y.frag).getD {}).frag (regOf u (y.dest + k)) x.exec l) ∧
      (∀ r, r < x.dest ∨ x.dest + x.count ≤ r → regOf (t.warps.getD i {}) r = regOf v r) ∧
      (∀ r, r < y.dest ∨ y.dest + y.count ≤ r → regOf (t.warps.getD j {}) r = regOf u r) ∧
      { t with warps := s.warps } = s

/-- LOAD_REPLY writes the destinations under the lane set the access was issued with and lets CNT.LD fall; STORE_PERFORMED lets CNT.ST
fall; SCOREBOARD_RELEASE ends a hold whose latency has run out (R205, R124, R158). -/
def Sys2Proof.Claims.Replies : Prop :=
  (∀ (id : Nat) (o : Op) (s : State),
    let i := warpOfTeam s o.team o.wid
    let w := s.warps.getD i {}
    let rest := fun (t : State) => { t with warps := s.warps } = { s with ops := s.ops.filter fun x => x.id != id }
    i < s.warps.length → replyComes s o = true →
    (s.ops.find? (fun x => x.id == id && x.ctr == .ld) = some o → w.regs.length = 256 → (o.writes.map (·.1)).Nodup →
      ∃ t, exec (.loadReply id) s = .next t ∧ rest t ∧ (t.warps.getD i {}).cntLd = w.cntLd - 1 ∧
        (∀ d r l, (d, r) ∈ o.writes → d < 256 → l < 32 → laneAt (regOf (t.warps.getD i {}) d) l =
          if inMask o.active l then laneAt r l else if inMask o.zero l then {} else laneAt (regOf w d) l) ∧
        (∀ r, r ∉ o.writes.map (·.1) → regOf (t.warps.getD i {}) r = regOf w r) ∧
        (t.warps.getD i {}).frags = w.frags ∧ (t.warps.getD i {}).flags = w.flags ∧ (t.warps.getD i {}).mode = w.mode) ∧
    (s.ops.find? (fun x => x.id == id && x.ctr == .st) = some o → o.stnt = false → o.writes = [] →
      ∃ t, exec (.storePerformed id) s = .next t ∧ rest t ∧ (t.warps.getD i {}).cntSt = w.cntSt - 1 ∧
        (∀ r, regOf (t.warps.getD i {}) r = regOf w r) ∧ (t.warps.getD i {}).frags = w.frags)) ∧
  ∀ (core slot hold : Nat) (s : State), warpAt s core slot < s.warps.length → byLatency s hold = true →
    ∃ t, exec (.scoreboardRelease core slot hold) s = .next t ∧ { t with warps := s.warps } = s ∧
      t.warps = s.warps.set (warpAt s core slot) { s.warps.getD (warpAt s core slot) {} with
        holds := (s.warps.getD (warpAt s core slot) {}).holds.filter fun h => h.id != hold }

/-- Replies to loads, stores, locks and the end of a latency reach the warp that waits for them. -/
def Obligations.Completions : Prop :=
  Claims.LockEvents ∧ Claims.Replies

/-! ## Control (spec/06, spec/07) -/

/-- The target of a displacement: the instruction's address plus 4 times it (R116). -/
def Sys2Proof.Claims.target (p : Option Pfx) (s : State) {n : Nat} (x : BitVec n) : Pc := (fr s).pc + BitVec.ofInt 57 (4 * immSigned p x)

/-- BRC and BRZ, with their conditions on a lane. -/
def Sys2Proof.Claims.branchTable (p : Option Pfx) (c : BitVec 8) (h : BitVec 2) (x : BitVec 14) : List (Instr × (Word → Bool)) :=
  [(.brc p c h x, fun v => v.getLsbD 0), (.brz p c h x, fun v => v == 0)]

/-- NOP, BR, BRC, BRZ and BRX: where the fragment goes, with no register changed; where lanes part at a BRC or BRZ, the lanes that
take the branch form a new fragment at the target with a split whose JOIN the module's map gives (R125, R159 to R161). -/
def Obligations.Branches : Prop :=
  (∀ s, Issuing s → ∃ t, exec .nop s = .next t ∧ Retired [] s t) ∧
  (∀ (p : Option Pfx) (h : BitVec 2) (x : BitVec 22) (s : State), Issuing s →
    ∃ t, exec (.br p h x) s = .next t ∧ GoesTo (Claims.target p s x) [] s t) ∧
  (∀ (p : Option Pfx) (c : BitVec 8) (h : BitVec 2) (x : BitVec 14), ∀ b ∈ Claims.branchTable p c h x, ∀ s, Issuing s →
    Inside [c.toNat] s →
    let f := fr s
    let taken := maskOf fun l => inMask f.exec l && b.2 (lane s c.toNat l).val
    (h = 3 → scalarPoison (me s) f [c.toNat] = 0 → ∃ t, exec b.1 s = .next t ∧
      GoesTo (if f.exec ≠ 0 ∧ b.2 (scalarAt (me s) f c.toNat) = true then Claims.target p s x else nextPc s) [] s t) ∧
    (h ≠ 3 → Clean f.exec [c.toNat] s →
      (taken = 0 → ∃ t, exec b.1 s = .next t ∧ Retired [] s t) ∧
      (taken ≠ 0 → taken = f.exec → ∃ t, exec b.1 s = .next t ∧ GoesTo (Claims.target p s x) [] s t) ∧
      (taken ≠ 0 → taken ≠ f.exec → joinOf s f.pc = none → exec b.1 s = .next (raise { cls := 2, code := 0x002 } s)) ∧
      ∀ j, taken ≠ 0 → taken ≠ f.exec → joinOf s f.pc = some j → holds s (me s) .splitEntry = true →
        ∃ t, exec b.1 s = .next t ∧
          let mark : Split := { id := (me s).nextSplit, join := j, parent := f.id, favoured := if h = 1 then (me s).nextFrag else f.id }
          (fr t).pc = nextPc s ∧ (fr t).exec = f.exec &&& ~~~taken ∧ (fr t).frag = f.frag &&& ~~~taken ∧
          (fr t).splits = mark :: f.splits ∧
          (me t).frags.getLast? = some { id := (me s).nextFrag, pc := Claims.target p s x, exec := taken, frag := taken, splits := mark :: f.splits,
                                           handler := f.handler, acquire := f.acquire } ∧
          (me t).frags.length = (me s).frags.length + 1 ∧ (∀ r, regOf (me t) r = regOf (me s) r) ∧ HomeKept s t)) ∧
  ∀ (i : BitVec 8) (k : BitVec 14) (s : State), Issuing s → Inside [i.toNat] s →
    let e := scalarAt (me s) (fr s) i.toNat
    ((fr s).exec = 0 → ∃ t, exec (.brx i k) s = .next t ∧ Retired [] s t) ∧
    ((fr s).exec ≠ 0 → scalarPoison (me s) (fr s) [i.toNat] = 0 → (∀ x, (jumpTable s k.toNat)[e.toNat]? = some x → ∃ t, exec (.brx i k) s = .next t ∧ GoesTo ((fr s).pc + BitVec.ofInt 57 (4 * x)) [] s t) ∧
    ((jumpTable s k.toNat).length ≤ e.toNat → exec (.brx i k) s = .next (raise { cls := 2, code := 0x043, info := e } s)))

/-- The state with a link entry pushed (R162): with 32 entries on the core the oldest 8 leave it first, for the warp's spill region (R31).
Where in the region an entry lies: log entry 187. -/
def Sys2Proof.Claims.pushed (e : LinkEntry) (s : State) : State :=
  let s := if 32 ≤ (me s).onCore then spillOut s (me s) (oldestOnCore (me s) ((me s).onCore - 8)) else s
  setMe s { me s with
    link := e :: (me s).link
    onCore := if 32 ≤ (me s).onCore then (me s).onCore - 7 else (me s).onCore + 1
    spill := if 32 ≤ (me s).onCore then (me s).spill + 128 else (me s).spill }

/-- CALL and CALLI push the next address with v254:v255 of the lowest lane and go to the function; with EXEC = 0 what they read of
a register is open (log entry 13).  A full stack raises code 0x040, an entry without code for the role 0x042, and a spill page that cannot
be reached class 3 code 0x040 (R31, R95, R162, R393, R417). -/
def Sys2Proof.Claims.Pushes : Prop :=
  ∀ (s : State), Issuing s →
    let low := lowestLane (fr s).exec
    let e : LinkEntry :=
      { ret := nextPc s, sp := pairOf (lane s 254 low).val (lane s 255 low).val
        poisonLo := (lane s 254 low).poison, poisonHi := (lane s 255 low).poison }
    let world := (launchOf s (me s)).world
    let spills := ∃ x, pageFor s (me s).core world (me s).spill.toNat = .ok x
    let room := (me s).link.length < 4096 ∧ ((me s).onCore < 32 ∨ spills)
    (∀ (p : Option Pfx) (h : BitVec 2) (x : BitVec 22),
      ((fr s).exec ≠ 0 → room → ∃ t, exec (.call p h x) s = .next t ∧ GoesTo (Claims.target p s x) [] (Claims.pushed e s) t) ∧
      ((fr s).exec = 0 → room → ∃ t g, exec (.call p h x) s = .next t ∧ g.ret = nextPc s ∧
        GoesTo (Claims.target p s x) [] (Claims.pushed g s) t) ∧
      (4096 ≤ (me s).link.length → exec (.call p h x) s = .next (raise { cls := 2, code := 0x040, info := 4096 } s)) ∧
      ((me s).link.length < 4096 → 32 ≤ (me s).onCore → ¬ spills →
        exec (.call p h x) s = .next (raise { cls := 3, code := 0x040, res := true, addr := (me s).spill } s))) ∧
    (∀ a : BitVec 8, (fr s).exec = 0 → Inside [a.toNat] s → ∃ n : Nat,
      (entryCached s world n = false → ∃ t, exec (.calli a) s = .next t ∧ (fr t).wait = .entryMiss n ∧ (fr t).pc = (fr s).pc) ∧
      (entryCached s world n = true → ∀ y, room → entryCode s world n (roleCode (roleOf (me s) (fr s))) = some y →
        ∃ t g, exec (.calli a) s = .next t ∧ g.ret = nextPc s ∧ GoesTo (BitVec.ofNat 57 y) [] (Claims.pushed g s) t)) ∧
    ∀ a : BitVec 8, (fr s).exec ≠ 0 → Inside [a.toNat] s → scalarPoison (me s) (fr s) [a.toNat] = 0 →
      let n := scalarAt (me s) (fr s) a.toNat
      let code := entryCode s world n.toNat (roleCode (roleOf (me s) (fr s)))
      (entryCached s world n.toNat = false → ∃ t, exec (.calli a) s = .next t ∧ (fr t).wait = .entryMiss n.toNat ∧
        (fr t).pc = (fr s).pc ∧ { t with warps := s.warps } = s) ∧
      (entryCached s world n.toNat = true →
        (∀ y, room → code = some y → ∃ t, exec (.calli a) s = .next t ∧ GoesTo (BitVec.ofNat 57 y) [] (Claims.pushed e s) t) ∧
        (4096 ≤ (me s).link.length → exec (.calli a) s = .next (raise { cls := 2, code := 0x040, info := 4096 } s)) ∧
        ((me s).link.length < 4096 → code = none → exec (.calli a) s = .next (raise { cls := 2, code := 0x042, info := n } s)))

/-- RET pops, putting the pair back in the lanes of FRAG; an empty stack raises code 0x041; with the entries spilled it waits for their
return, or raises class 3 code 0x040 where their page cannot be reached (R162, R393, R417). -/
def Sys2Proof.Claims.Returns : Prop :=
  ∀ (s : State), Issuing s →
    let block := (me s).spill - BitVec.ofNat 64 (16 * min 8 (me s).link.length)
    let page := pageFor s (me s).core (launchOf s (me s)).world block.toNat
    ((me s).link = [] → exec .ret s = .next (raise { cls := 2, code := 0x041 } s)) ∧
    ∀ y rest, (me s).link = y :: rest →
      ((me s).onCore = 0 →
        ((∃ x, page = .ok x) → ∃ t, exec .ret s = .next t ∧ (fr t).wait = .linkRefill s.nextId ∧ (fr t).pc = (fr s).pc ∧
          { t with warps := s.warps, nextId := s.nextId } = s) ∧
        ((∀ x, page ≠ .ok x) →
          exec .ret s = .next (raise { cls := 3, code := 0x040, res := true, addr := block, info := 1 } s))) ∧
      ((me s).onCore ≠ 0 → ∃ t, exec .ret s = .next t ∧
        GoesTo y.ret [254, 255] (setMe s { me s with link := rest, onCore := (me s).onCore - 1 }) t ∧
        ∀ l, l < 32 →
          lane t 254 l = (if inMask (fr s).frag l then if y.poisonLo then poisoned else clean (loWord y.sp) else lane s 254 l) ∧
          lane t 255 l = if inMask (fr s).frag l then if y.poisonHi then poisoned else clean (hiWord y.sp) else lane s 255 l)

/-- CALL, CALLI and RET push and pop the link stack. -/
def Obligations.Calls : Prop :=
  Claims.Pushes ∧ Claims.Returns

/-- When every member of a split waits at its JOIN, the members fuse into one fragment past it, active in all their lanes, under the
identity of the fragment that split (R33, R163). -/
def Obligations.JoinFuses : Prop :=
  (∀ (w : Warp) (x : Split) (m : Frag) (ms : List Frag), (w.frags.filter fun f => inSplit x.id f) = m :: ms →
    (∀ f ∈ m :: ms, f.wait = .join x.id) → m.splits.find? (fun y => y.id == x.id) = some x →
    ∃ g, (closeSplit w x.id).frags = (w.frags.filter fun f => !inSplit x.id f) ++ [g] ∧ g.id = x.parent ∧ g.handler = m.handler ∧
      g.pc = m.pc + 4 ∧ g.exec = g.frag ∧ g.wait = .none ∧ (∀ l, g.frag.getLsbD l = (m :: ms).any fun f => f.frag.getLsbD l) ∧
      { closeSplit w x.id with frags := w.frags } = w) ∧
  ∀ (s : State), Issuing s →
    (∀ x rest, (fr s).splits = x :: rest → x.join = (fr s).pc →
      let u := issued (setFr s { fr s with wait := .join x.id })
      exec .join s = .next (checkLeave (setMe u (closeSplits (me u))) s.cur.warp)) ∧
    ((∀ x rest, (fr s).splits = x :: rest → x.join ≠ (fr s).pc) →
      ∃ t, exec .join s = .next t ∧ Retired [] (setFr s { fr s with exec := (fr s).frag }) t)

/-- EXITW ends the lanes of its fragment; YIELD and SLEEP go on and give up turns; SLEEP_EXPIRY ends the sleep; WARP_END ends a warp with
nothing left to do (R164, R165). -/
def Obligations.Exits : Prop :=
  (∀ (s : State), Issuing s → fragById (me s) (fr s).id = some (fr s) →
    ((fr s).handler = false → ∃ t, exec .exitw s = .next t ∧ (me t).exited = (me s).exited ||| (fr s).frag ∧
      (∀ r, regOf (me t) r = regOf (me s) r) ∧
      ((∀ x ∈ s.waiters, (me s).registered x = true → x.granted = false) → HomeKept s t)) ∧
    ((fr s).handler = true → ∃ t, exec .exitw s = .next t ∧ (me t).frags = [] ∧ (me t).exited = BitVec.allOnes 32) ∧
    (∃ t, exec .yield s = .next t ∧ Retired [] (setFr s { fr s with yielded := true }) t) ∧
    (∃ t, exec (.sleep 0) s = .next t ∧ Retired [] s t) ∧
    ∀ n : BitVec 16, n ≠ 0 → ∃ t, exec (.sleep n) s = .next t ∧ (fr t).wait = .sleep n.toNat ∧ (fr t).pc = nextPc s ∧
      (∀ r, regOf (me t) r = regOf (me s) r) ∧ HomeKept s t) ∧
  (∀ (core slot fid n : Nat) (s : State),
    let i := warpAt s core slot
    let w := s.warps.getD i {}
    let j := indexWhere (fun f => f.id == fid) w.frags
    i < s.warps.length → j < w.frags.length → (w.frags.getD j {}).wait = .sleep n →
    exec (.sleepExpiry core slot fid) s =
      .next { s with warps := s.warps.set i { w with frags := w.frags.set j { w.frags.getD j {} with wait := .none } } }) ∧
  ∀ (core slot : Nat) (s : State),
    let i := warpAt s core slot
    let w := s.warps.getD i {}
    i < s.warps.length → w.ended = false → w.halted = false → w.frags = [] → w.pending = [] → w.trap = none →
    w.cntLd = 0 → w.cntSt = 0 → w.cntCp = 0 → w.cntTl = 0 → barriersOf s (teamOf s w) = [] →
    (∃ v ∈ s.warps, v.team = w.team ∧ v.ended = false ∧ (v.core, v.slot) ≠ (core, slot)) →
    exec (.warpEnd core slot) s = .next { s with warps := s.warps.set i { w with ended := true } }

/-! ### Fetches ahead, refills -/

/-- A fetch touches the instruction caches, the TLBs, and the sharers and gateway copies of the line's home. -/
def Sys2Proof.Claims.fetched (s t : State) : Prop :=
  { t with ilines := s.ilines, tlb := s.tlb, sharers := s.sharers, gateways := s.gateways } = s

/-- IPREF goes on with nothing changed but the instruction caches, TLBs and walks: outside a travelling launch, of the lines that it names
each whose page a TLB holds and may be fetched is then in the I-cache, and each other is asked for in a walk; in a travelling launch it
does nothing.  DEMAND_FETCH of a sealed, executable page gives the core
the words that memory holds there; FETCH_AHEAD and TRANSLATION_WALK_COMPLETE fetch the lines asked for, and nothing for a core that pins a segment
(R166, R307, R410, R418, R419). -/
def Sys2Proof.Claims.Fetches : Prop :=
  (∀ (c : BitVec 8) (x : BitVec 14) (s : State), Issuing s → ∃ t, exec (.ipref c x) s = .next t ∧ (fr t).pc = nextPc s ∧
    (∀ r, regOf (me t) r = regOf (me s) r) ∧
    ((launchOf s (me s)).travelling = true → { t with warps := s.warps, teams := s.teams } = s) ∧
    ((launchOf s (me s)).travelling = false → pinOf s (me s).core = none → ∀ i, i < c.toNat →
      let world := (launchOf s (me s)).world
      let line := iLineBase (Claims.target none s x).toNat + 64 * i
      line < aperture → iPresent s (me s).core world line = false →
      (∀ e, (tlbFind s (me s).core world (line / 65536)).isSome = true → fetchPage s (me s).core world line = .ok e →
        iPresent t (me s).core world line = true) ∧
      (tlbFind s (me s).core world (line / 65536) = none →
        ∃ k ∈ t.walks, k.quad = quadOf (me s).core ∧ k.world = world ∧ k.page = line / 65536 ∧ ((me s).core, line) ∈ k.asked)) ∧
    { t with warps := s.warps, teams := s.teams, ilines := s.ilines, walks := s.walks, tlb := s.tlb, sharers := s.sharers, gateways := s.gateways } = s) ∧
  (∀ (core slot fid va : Nat) (f : Frag) (e : TlbEntry) (s : State),
    let w := s.warps.getD (warpAt s core slot) {}
    let world := (launchOf s w).world
    fragById w fid = some f → fetchDue s w f = true → mayFetch s w va = true → peek s core world f.pc.toNat = .absent va → va % 4 = 0 →
    fetchPage s core world va = .ok e →
    ∃ t, exec (.demandFetch core slot fid) s = .next t ∧ Claims.fetched s t ∧
      iWord t core world va = some (BitVec.ofNat 32 (ofBytes (s.mem.read (e.frame + va % 65536) 4)), s.mem.bad (e.frame + va % 65536))) ∧
  (∀ (core world line : Nat) (s : State), iPresent s core world line = false → line < aperture → pinOf s core = none →
    (∀ e, (tlbFind s core world (line / 65536)).isSome = true → fetchPage s core world line = .ok e →
      ∃ t, exec (.fetchAhead core world line) s = .next t ∧ iPresent t core world line = true ∧ Claims.fetched s t) ∧
    (tlbFind s core world (line / 65536) = none → ∃ t, exec (.fetchAhead core world line) s = .next t ∧ { t with walks := s.walks } = s ∧
      ∃ k ∈ t.walks, k.quad = quadOf core ∧ k.world = world ∧ k.page = line / 65536 ∧ (core, iLineBase line) ∈ k.asked)) ∧
  (∀ (core world line : Nat) (s : State), (pinOf s core).isSome = true → exec (.fetchAhead core world line) s = .next s) ∧
  ∀ (quad world page core line : Nat) (e : TlbEntry) (s : State), pinOf s core = none →
    s.walks = [{ quad := quad, world := world, page := page, asked := [(core, line)] }] → fetchPage s core world line = .ok e →
    ∃ t, exec (.translationWalkComplete quad world page) s = .next t ∧ t.walks = [] ∧ iPresent t core world line = true ∧
      Claims.fetched { s with walks := [] } t

/-- LINK_STACK_REFILL brings the newest spilled entries, at most 8, back to the core and the waiting RET issues again, where their home is reached; a
poisoned one, on its way out or in the block in memory, halts the warp with class 5 code 0x007 (which entries: log entry 187); ENTRY_CACHE_FILL gives the package the entries that waiting CALLIs named (R162, Table REL.3). -/
def Sys2Proof.Claims.Refills : Prop :=
  ∀ (core slot : Nat) (s : State),
    let i := warpAt s core slot
    let w := s.warps.getD i {}
    let n := min 8 w.link.length
    i < s.warps.length →
    (∀ f id, refilling w = some (f, id) →
      (refillComes s w id = false → exec (.linkStackRefill core slot) s = .next s) ∧
      (refillComes s w id = true → refillBad s w = false →
        let filled := { w with onCore := w.onCore + n, spill := w.spill - BitVec.ofNat 64 (16 * n) }
        exec (.linkStackRefill core slot) s =
          .next { s with warps := s.warps.set i (onFrag filled f.id fun f => { f with wait := .none }) }) ∧
      (refillComes s w id = true → ((∃ e ∈ w.link.take n, e.poisonLo = true ∨ e.poisonHi = true) ∨ ∃ k, k < n ∧ ∃ a,
          spillPlace s w (w.spill - BitVec.ofNat 64 (16 * n) + BitVec.ofNat 64 (16 * k)) = some a ∧ (homeMem s a).readBad a 16 = true) → ∃ r, exec (.linkStackRefill core slot) s = .next (haltWarp s i r) ∧
        r.cls = 5 ∧ r.code = 0x007 ∧ r.pois = true ∧ r.pc = f.pc ∧ r.frag = f.frag ∧ r.addr = w.spill - BitVec.ofNat 64 (16 * n))) ∧
    ∃ t, exec (.entryCacheFill core slot) s = .next t ∧ { t with warps := s.warps, entryCache := s.entryCache } = s ∧
      (∀ f ∈ w.frags, ∀ e, f.wait = .entryMiss e → entryCached t (launchOf s w).world e = true) ∧
      (∀ v e, entryCached s v e = true → entryCached t v e = true) ∧ (∀ j, j ≠ i → t.warps.getD j {} = s.warps.getD j {}) ∧
      { (t.warps.getD i {}) with frags := w.frags } = w ∧
      ∀ j, j < w.frags.length → (t.warps.getD i {}).frags.getD j {} =
        match (w.frags.getD j {}).wait with
        | .entryMiss _ => { w.frags.getD j {} with wait := .none }
        | _ => w.frags.getD j {}

/-- The instruction fetches, the link stack and the entry cache are filled as the fragments that wait for them need.
A walk inside its step: log entry 10; a refill as a request that may get no reply: log entry 187. -/
def Obligations.FetchesAndRefills : Prop :=
  Claims.Fetches ∧ Claims.Refills

/-! ## Traps and faults (spec/20) -/

/-- The record of a cause at the issuing instruction, and the address the handler returns to: the next instruction for class 1. -/
def Sys2Proof.Claims.recordAt (c : Cause) (s : State) : FaultRec := recordOf s (me s) (fr s).frag (fr s).pc c
def Sys2Proof.Claims.asked (c : Cause) (s : State) : State :=
  setMe s { me s with trap := some { frag := (fr s).id, record := Claims.recordAt c s, rpc := if c.next then nextPc s else (fr s).pc } }

/-- The issuing fragment is no handler, a handler at `pc` is in force, register writes and flags are settled, and the trap area takes
what Table FLT.3 puts there, which leaves state `u`. -/
structure Sys2Proof.Claims.CanEnter (c : Cause) (pc : Nat) (s u : State) : Prop where
  user : (fr s).handler = false
  own : fragById (me s) (fr s).id = some (fr s)
  code : handlerPc s (me s) = some pc
  quiet : (me s).holds = []
  cls : c.cls ≠ 5 ∧ c.cls ≠ 6
  area : areaWrite (Claims.asked c s) (me (Claims.asked c s)) (trapWrites (me (Claims.asked c s)) (fr s) (Claims.recordAt c s)
    (if c.next then nextPc s else (fr s).pc) (trapArea s (me s))) = .ok u

/-- `t` is `s` after a trap entry (R369): every fragment held and a handler fragment with all live lanes at the entry; MODE and FLAGS 0; the
record kept and logged; v0:v1 the trap area's address, v2 word 0 of the record, v3 zero, in every lane; no other register changed. -/
structure Sys2Proof.Claims.Entered (c : Cause) (pc : Nat) (s u t : State) : Prop where
  frags : (me t).frags = ((me s).frags.map fun f => { f with held := true }) ++
    [{ id := (me s).nextFrag, pc := BitVec.ofNat 57 pc, exec := liveLanes (me s), frag := liveLanes (me s), handler := true }]
  mode : (me t).mode = 0
  flags : (me t).flags = 0
  kept : (me t).kept = Claims.recordAt c s
  served : (me t).served = some (fr s).id
  args : ∀ l, l < 32 → lane t 0 l = clean (BitVec.ofNat 32 (trapArea s (me s))) ∧
    lane t 1 l = clean (BitVec.ofNat 32 (trapArea s (me s) / 2 ^ 32)) ∧
    lane t 2 l = clean ((Claims.recordAt c s).words.headD 0) ∧ lane t 3 l = clean 0
  regs : ∀ r, 4 ≤ r → regOf (me t) r = regOf (me s) r
  link : (me t).link = (me s).link ∧ (me t).tokens = (me s).tokens ∧ (me t).exited = (me s).exited
  store : t.mem = u.mem ∧ t.l1 = u.l1
  log : t.log = (logRecord s (Claims.recordAt c s)).log

/-- A precise fault enters the handler (R369), TRAP with class 1 and its number in INFO and the next instruction as resume address; with
no handler, or class 5 or 6, it halts the warp (a save request, class 0, never does), and in a handler it halts it with class 6 code 0x001
(R367, R371, R372).  Class 6 for class 5 in a handler follows log entry 30, when the area's home answers log entry 169. -/
def Obligations.TrapEntry : Prop :=
  ∀ (s : State), Issuing s →
    (∀ c pc u, Claims.CanEnter c pc s u → Claims.Entered c pc s u (raise c s)) ∧
    (∀ c, (fr s).handler = false → c.cls = 5 ∨ c.cls = 6 ∨ (c.cls ≠ 0 ∧ handlerPc s (me s) = none) → raise c s = haltWarp s s.cur.warp (Claims.recordAt c s)) ∧
    (∀ c, (fr s).handler = true → raise c s = haltWarp s s.cur.warp { Claims.recordAt c s with
      cls := 6, code := 0x001, res := false, info := (me s).kept.words.headD 0 }) ∧
    ∀ n : BitVec 16,
      let c : Cause := { cls := 1, code := 0, res := true, info := n.zeroExtend 32, next := true }
      exec (.trap n) s = .next (raise c (issued s)) ∧
      ∀ pc u, Claims.CanEnter c pc (issued s) u → ∃ t, exec (.trap n) s = .next t ∧ Claims.Entered c pc (issued s) u t

/-- What a halt does (R372): the warp's holds, pending faults and replies' writes are gone, its record stands in the trap area and in the log,
its tokens are released, the barriers that count its team are abandoned, and its task is faulted. -/
def Sys2Proof.Claims.HaltEffects : Prop :=
  ∀ (s : State) (i : Nat) (r : FaultRec), i < s.warps.length →
    (teamOf s (s.warps.getD i {})).task < s.tasks.length →
    let t := haltWarp s i r
    let w := s.warps.getD i {}
    (t.warps.getD i {}).halted = true ∧ warpReady t (t.warps.getD i {}) = false ∧ (t.warps.getD i {}).holds = [] ∧
    (t.warps.getD i {}).pending = [] ∧ (∀ o ∈ t.ops, o.team = w.team → o.wid = w.wid → o.writes = []) ∧
    (t.warps.getD i {}).xchg = none ∧ (t.warps.getD i {}).trap = none ∧
    (taskOf t (t.warps.getD i {})).faulted = true ∧ (∀ k ∈ (t.warps.getD i {}).tokens, k.held = false) ∧
    t.log = (logRecord s r).log ∧
    (∀ u, (launchOf s w).save ≠ 0 → areaWrite (silence s i) w [(trapArea s w, bytesOf r.words, false)] = .ok u →
      (∀ k ∈ w.tokens, k.held = false) → (∀ x ∈ s.waiters, w.registered x = true → x.granted = false) →
      t.mem = u.mem ∧ (barriersOf s (teamOf s w) = [] → t.l1 = u.l1)) ∧
    ((s.barriers.map (·.id)).Nodup → ∀ b ∈ t.barriers, b.task = (teamOf s w).task → (teamOf s w).id ∈ b.teams → b.abandoned = true)

/-- A halted warp never issues again: of a place of a team whose warps on the cores are all halted, those in a save block too, and none of whose
sleds awaits admission, every step leaves the warps halted, or ended and gone; and a core never gives its issue slot to a halted warp
(R372). -/
def Sys2Proof.Claims.HaltLasts : Prop :=
  (∀ (s t : State) (team wid : Nat), step s = .next t → team < s.nextId →
    (∀ v ∈ s.warps, v.team = team → v.wid = wid → v.halted = true) →
    (∀ x ∈ s.suspended, ∀ y ∈ x.teams, ∀ v ∈ y.warps, v.team = team → v.wid = wid → v.halted = true) →
    (∀ p ∈ s.pins, ∀ x ∈ p.queue, x.team ≠ team) →
    ∀ v ∈ t.warps, v.team = team → v.wid = wid → v.halted = true) ∧
  ∀ (s u : State) (core : Nat) (j : Instr), turnOf s core = .run j u →
    (∀ v ∈ s.warps, ∀ w ∈ s.warps, v.core = w.core → v.slot = w.slot → v.halted = w.halted) → (me u).halted = false

/-- A halt stops a warp for good, with its record kept, its locks and barriers given up and its task faulted. -/
def Obligations.Halts : Prop := Claims.HaltEffects ∧ Claims.HaltLasts

/-- ERET of a resumable record returns (R371): the served fragment takes the PC and EXEC of the trap area, the warp MODE, FLAGS and v0 to v3,
and the handler fragment is gone; for a record that cannot be resumed every lane exits.  It waits until register writes have settled; the return of a
save handler marks the warp as saved; of another, it takes the oldest fault that arose meanwhile (R300, R368, R406).
What the served fragment waited for is kept where the area's RPC is its own PC: log entry 39. -/
def Obligations.TrapReturns : Prop :=
  ∀ (s : State), Issuing s → (fr s).handler = true →
  ((me s).holds ≠ [] → ∃ t, exec .eret s = .next t ∧ (fr t).wait = .poll .quiet ∧ (fr t).pc = (fr s).pc ∧ { t with warps := s.warps } = s) ∧
  ∀ (u : State) (ws : List Lane), (me s).holds = [] → (me s).halted = false → (∀ f ∈ (me s).frags, ∀ d c x, f.wait ≠ .released d c x) →
    readArea (issued s) (me s) (trapArea (issued s) (me s)) = .ok (u, ws) →
    let word := fun (n : Nat) => (ws.getD n {}).val
    let saves := (me s).saving = true ∧ (me s).kept.cls = 0
    ((word 0).getLsbD 14 = true → (restored (me s) ws).frags ≠ [] → (saves → ∃ t, exec .eret s = .next t ∧ (me t).saved = true) ∧
      (¬ saves → (me s).pending ≠ [] → exec .eret s = .next (afterExit (takePending (returnFromTrap (issued s)) s.cur.warp))) ∧
      (saves ∨ (me s).pending = [] → ∃ t, exec .eret s = .next t ∧ (me t).mode = ((word 20).extractLsb' 0 20).zeroExtend 24 ∧ (me t).flags = (word 21).extractLsb' 0 5 ∧
        (me t).served = none ∧
        (∀ i l, i < 4 → l < 32 → lane t i l = ws.getD (128 + 32 * i + l) {}) ∧ (∀ r, 4 ≤ r → regOf (me t) r = regOf (me s) r) ∧
        (me t).frags = ((me s).frags.filter fun f => !f.handler).map fun f =>
          if some f.id = (me s).served then
            { f with exec := word 18 &&& f.frag, pc := (pairOf (word 16) (word 17)).extractLsb' 0 57, held := false,
                     wait := if (pairOf (word 16) (word 17)).extractLsb' 0 57 = f.pc then f.wait else .none }
          else { f with held := false })) ∧
    ((word 0).getLsbD 14 = false →
      ∃ t, exec .eret s = .next t ∧ (me t).frags = [] ∧ (me t).exited = BitVec.allOnes 32)

/-- TRAP_ENTRY enters a settled warp's fault; IMPRECISE_FAULT_TAKE takes the oldest pending fault and lets its counter fall;
an entry waits for settled registers.  REMOTE_TIMEOUT leaves code 0x030 pending for a lost access, whose counter stays raised till then, or a lost
LOCK; FAULT_LOG_ENABLE starts the log, and FAULT_LOG_ACK puts the oldest record in the ring and raises vector 0 when HEAD leaves TAIL
(R369, R368, R404, R416, R376).  The words of an imprecise record follow log entry 37, the kept counter 53, a lost LOCK 185, the order of the log 173. -/
def Obligations.FaultEvents : Prop :=
  (∀ (core slot : Nat) (s : State) (g : Frag) (p : Pending) (rest : List Pending),
    let i := warpAt s core slot
    let w := s.warps.getD i {}
    i < s.warps.length →
    (w.holds = [] → exec (.trapEntry core slot) s = .next (enterTrap s i)) ∧
    (w.halted = false → w.served = none → w.trap = none → (w.blocked = false ∨ w.departing = true) → w.pending = p :: rest →
      let r := pendingRecord s w p (servedBy w p.frag)
      let taken := (match p.ctr with
        | none => { w with pending := rest }
        | some c => { w with pending := rest }.onCtr c (· - 1))
      r.prec = false ∧ r.time = p.time ∧ r.cls = p.cls ∧ r.code = p.code ∧
      (servedBy w p.frag = none ∨ fatal s w r = true →
        exec (.impreciseFaultTake core slot) s = .next (haltWarp { s with warps := s.warps.set i taken } i r)) ∧
      (servedBy w p.frag = some g → fatal s w r = false →
        (w.holds ≠ [] → exec (.impreciseFaultTake core slot) s = .next s) ∧
        (w.holds = [] → exec (.impreciseFaultTake core slot) s = .next (enterTrap { s with
          warps := s.warps.set i { taken with trap := some { frag := g.id, record := r, rpc := g.pc } } } i))))) ∧
  (∀ (id : Nat) (o : Op) (s : State),
    let i := warpOfTeam s o.team o.wid
    let w := s.warps.getD i {}
    s.ops.find? (fun x => x.id == id) = some o → o.homes ≠ [] → s.wcb = [] → i < s.warps.length → w.halted = false →
    exec (.remoteTimeout id) s = .next { s with
      ops := s.ops.filter fun x => x.id != id
      warps := s.warps.set i { w with
        holds := w.holds.filter fun h => some h.id != o.hold
        pending := w.pending ++ [{ cls := 3, code := 0x030, res := false, pois := false, frag := o.frag, pc := o.pc, instr := o.instr
                                   pfxWord := o.pfxWord, ctr := some o.ctr, lanes := o.active, addr := o.addr, time := s.now }] } }) ∧
  (∀ (id i fid word : Nat) (va : DWord) (s : State),
    let w := s.warps.getD i {}
    s.ops.find? (fun x => x.id == id) = none → s.copies.find? (fun c => c.id == id) = none → lockAsker s id = some (i, fid, word, va) →
    refillAsker s id = none → i < s.warps.length → warpOfTeam s w.team w.wid = i → w.halted = false →
    ∃ t p, exec (.remoteTimeout id) s = .next t ∧ t.mem = s.mem ∧ (t.warps.getD i {}).pending = w.pending ++ [p] ∧
      p.cls = 3 ∧ p.code = 0x030 ∧ p.addr = va ∧ p.ctr = none ∧ p.time = s.now ∧ (t.warps.getD i {}).tokens = w.tokens) ∧
  (∀ (v : BitVec 32) (s : State), ∃ t, exec (.faultLogEnable v) s = .next t ∧ { t with log := s.log } = s ∧
    t.log.en = v.getLsbD 31 ∧ (v.getLsbD 31 = true → t.log.head = 0 ∧ t.log.tail = 0 ∧ t.log.waiting = []) ∧
    (s.log.en = true → t.log.log2 = s.log.log2)) ∧
  ∀ (s : State) (r : FaultRec) (rest : List FaultRec), s.log.waiting = r :: rest →
    let at' := s.log.base.toNat + 64 * (s.log.head.toNat % 2 ^ s.log.log2)
    (s.log.en = false ∨ bridgeReachable s = false → exec .faultLogAck s = .next (lostMore { s with log := { s.log with waiting := rest } })) ∧
    (s.log.en = true → bridgeReachable s = true → detectedBefore s r.time = true → exec .faultLogAck s = .next s) ∧
    (s.log.en = true → bridgeReachable s = true → detectedBefore s r.time = false → ∃ t, exec .faultLogAck s = .next t ∧
      t.log = { s.log with head := s.log.head + 1, waiting := rest } ∧ t.hostMem = s.hostMem.write at' (bytesOf r.words) false ∧
      t.out = s.out ++ [.write 0 at' (bytesOf r.words)] ++
        (if s.log.head = s.log.tail ∧ (msixVec s 0 0).masked = false then [.msix 0 0] else []) ∧
      (s.log.head = s.log.tail → (msixVec s 0 0).masked = true → (msixVec t 0 0).pending = true) ∧ t.mem = s.mem)

/-! ## Barriers, waits, handles (spec/10) -/

/-- Registers written under EXEC by a word that ignores the guard (R125, R224). -/
def Sys2Proof.Claims.WroteExec (s t : State) (d : Nat) (v : Word) : Prop :=
  ∀ l, l < 32 → lane t d l = if inMask (fr s).exec l then clean v
    else if effZ none (me s) && inMask (fr s).frag l then {} else lane s d l

/-- The barrier word's operand names barrier `x`, which the launch declares and which has not been abandoned; its earlier accesses
complete, and nothing to compare. -/
def Sys2Proof.Claims.AtBarrier (b : BitVec 8) (c : BitVec 3) (x : Barrier) (s : State) : Prop :=
  scalarPoison (me s) (fr s) [b.toNat] = 0 ∧ (scalarAt (me s) (fr s) b.toNat).toNat < declared (launchOf s (me s)) c.toNat ∧
  barrierAt s c.toNat (scalarAt (me s) (fr s) b.toNat).toNat = some x ∧ x.abandoned = false ∧
  holds s (me s) (.drained (decide (4 ≤ c.toNat))) = true

/-- BAR and BARARV arrive at the open phase, after a release at the scope; BAR and BARWT wait for its end, and a BARWT that has not arrived
goes on with status 0; the BAR of the last warp, with no byte pending, goes on with status 0; BAREXP raises the pending count of the
phase, or past its range raises class 4 code 0x120 and abandons the barrier.  At an abandoned barrier they go on, BAR and BARWT with status 1; an undeclared number raises code 0x072 (R225 to R228, R375, R425). -/
def Sys2Proof.Claims.Barriers : Prop :=
  ∀ (d b n : BitVec 8) (c : BitVec 3) (x : Barrier) (s : State), Issuing s → Inside [d.toNat, b.toNat, n.toNat] s →
    let r := releaseActs s (me s).core c.toNat
    (Claims.AtBarrier b c x s →
      (arrivedAt s x = false →
        exec (.bar d b c) s = .next (testBarrier (awaitPhase x d.toNat c.toNat (arrive x r)) x.id) ∧
        exec (.bararv b c) s = .next (testBarrier (advance (arrive x r)) x.id) ∧
        ∃ t, exec (.barwt d b c) s = .next t ∧ (fr t).pc = nextPc s ∧ Claims.WroteExec s t d.toNat 0 ∧ t.mem = s.mem) ∧
      (arrivedAt s x = true →
        exec (.bar d b c) s = .next (waitFor (.phaseOver x.id) s) ∧ exec (.bararv b c) s = .next (waitFor (.phaseOver x.id) s) ∧
        ∃ t, exec (.barwt d b c) s = .next t ∧ (fr t).wait = .barrier x.id d.toNat c.toNat ∧ (fr t).pc = (fr s).pc ∧ t.mem = s.mem) ∧
      (scalarPoison (me s) (fr s) [n.toNat, b.toNat] = 0 →
        let k := (scalarAt (me s) (fr s) n.toNat).toNat
        let past' := pendOut ((if arrivedAt s x then x.pendNx else x.pend) + k)
        (past' = false → exec (.barexp n b c) s = .next (addPend (advance s) x.id (arrivedAt s x) k)) ∧
        (past' = true → exec (.barexp n b c) s =
          .next (abandon (raise { cls := 4, code := 0x120, info := BitVec.ofNat 32 (scalarAt (me s) (fr s) b.toNat).toNat } s) x.id)))) ∧
    (Claims.AtBarrier b c x s → arrivedAt s x = false → s.barriers.find? (fun y => y.id == x.id) = some x → x.arrived + 1 = x.expect →
      x.pend = 0 → isRedundant s (me s) = false → flitLost s x.id = false → (x.scope = 5 → podReached s = true) → (me s).frags = [fr s] →
      (fr s).held = false → (me s).halted = false →
      ∃ t, exec (.bar d b c) s = .next t ∧ (fr t).pc = (fr s).pc + 4 ∧ (fr t).wait = .none ∧
        ∀ l, l < 32 → inMask (fr s).exec l = true → lane t d.toNat l = clean 0) ∧
    (barrierAt s c.toNat (scalarAt (me s) (fr s) b.toNat).toNat = some x → x.abandoned = true →
      scalarPoison (me s) (fr s) [n.toNat, b.toNat] = 0 → scalarPoison (me s) (fr s) [b.toNat] = 0 →
      (scalarAt (me s) (fr s) b.toNat).toNat < declared (launchOf s (me s)) c.toNat →
      holds s (me s) (.drained (decide (4 ≤ c.toNat))) = true →
      (∃ t, exec (.bar d b c) s = .next t ∧ (fr t).pc = nextPc s ∧ Claims.WroteExec s t d.toNat 1) ∧
      (∃ t, exec (.barwt d b c) s = .next t ∧ (fr t).pc = nextPc s ∧ Claims.WroteExec s t d.toNat 1) ∧
      exec (.bararv b c) s = .next (advance r) ∧ ∃ t, exec (.barexp n b c) s = .next t ∧ Retired [] s t) ∧
    (scalarPoison (me s) (fr s) [n.toNat, b.toNat] = 0 → scalarPoison (me s) (fr s) [b.toNat] = 0 →
      declared (launchOf s (me s)) c.toNat ≤ (scalarAt (me s) (fr s) b.toNat).toNat →
      ∀ i ∈ [Instr.bar d b c, .bararv b c, .barwt d b c, .barexp n b c], exec i s =
        .next (raise { cls := 2, code := 0x072, info := BitVec.ofNat 32 (scalarAt (me s) (fr s) b.toNat).toNat } s))

/-- A phase completes exactly when every expected warp has arrived and nothing is pending: the next phase opens with the next phase's
pending count, and every fragment that waits for it goes on past its instruction, one whose warp is in a handler only after its ERET
(R226, R227, R404; log entry 171). -/
def Sys2Proof.Claims.BarrierPhases : Prop :=
  ∀ (s : State) (x : Barrier), s.barriers.find? (fun y => y.id == x.id) = some x →
    (x.abandoned = true ∨ x.arrived ≠ x.expect ∨ x.arrived = 0 ∨ x.pend ≠ 0 ∨ flitLost s x.id = true ∨ (x.scope = 5 ∧ podReached s = false) →
      testBarrier s x.id = s) ∧
    (x.abandoned = false → x.arrived = x.expect → 0 < x.arrived → x.pend = 0 → comparesFirst s x = false → flitLost s x.id = false →
      (x.scope = 5 → podReached s = true) →
      let t := testBarrier s x.id
      t.barriers.find? (fun y => y.id == x.id) =
        some { x with arrived := 0, pend := x.pendNx, pendNx := 0, phaseNo := x.phaseNo + 1, marks := [] } ∧
      t.mem = s.mem ∧ t.warps.length = s.warps.length ∧
      ∀ i, i < s.warps.length → ∀ f, (s.warps.getD i {}).frags = [f] →
        (∀ d sc, f.wait = .barrier x.id d sc →
          ((s.warps.getD i {}).halted = true → t.warps.getD i {} = s.warps.getD i {}) ∧
          ((s.warps.getD i {}).halted = false → f.held = true → (t.warps.getD i {}).frags = [{ f with wait := .released d sc 0 }]) ∧
          ((s.warps.getD i {}).halted = false → f.held = false → d < 256 → (s.warps.getD i {}).regs.length = 256 →
            (t.warps.getD i {}).frags = [{ f with wait := .none, pc := f.pc + 4 }] ∧
            ∀ l, l < 32 → inMask f.exec l = true → laneAt (regOf (t.warps.getD i {}) d) l = clean 0)) ∧
        ((∀ d sc, f.wait ≠ .barrier x.id d sc) → t.warps.getD i {} = s.warps.getD i {}))

/-- Barriers: arrivals, waits, and the end of a phase. -/
def Obligations.BarrierArrivals : Prop :=
  Claims.Barriers ∧ Claims.BarrierPhases

/-- WAITC and WAITR go on once each counter is within its field, 63 being no limit, and wait otherwise (R29, R230). -/
def Obligations.CounterWaits : Prop :=
  ∀ (l k c n : BitVec 6) (a : BitVec 8) (s : State), Issuing s →
    let within' := fun (l k c n : Nat) => (l = 63 ∨ (me s).cntLd ≤ l) ∧ (k = 63 ∨ (me s).cntSt ≤ k) ∧ (c = 63 ∨ (me s).cntCp ≤ c) ∧
      (n = 63 ∨ (me s).cntTl ≤ n)
    (within' l.toNat k.toNat c.toNat n.toNat → ∃ t, exec (.waitc l k c n) s = .next t ∧ Retired [] s t) ∧
    (¬ within' l.toNat k.toNat c.toNat n.toNat →
      ∃ t, exec (.waitc l k c n) s = .next t ∧ (fr t).pc = (fr s).pc ∧
        (fr t).wait = .poll (.atMost l.toNat k.toNat c.toNat n.toNat) ∧ ∀ r, regOf (me t) r = regOf (me s) r) ∧
    ((fr s).exec = 0 → ∃ t, exec (.waitr a) s = .next t ∧ Retired [] s t) ∧
    ((fr s).exec ≠ 0 → Inside [a.toNat] s → scalarPoison (me s) (fr s) [a.toNat] = 0 →
      let v := (scalarAt (me s) (fr s) a.toNat).toNat
      (within' (bitsOf v 18 6) (bitsOf v 12 6) (bitsOf v 6 6) (bitsOf v 0 6) → ∃ t, exec (.waitr a) s = .next t ∧ Retired [] s t) ∧
      (¬ within' (bitsOf v 18 6) (bitsOf v 12 6) (bitsOf v 6 6) (bitsOf v 0 6) →
        ∃ t, exec (.waitr a) s = .next t ∧ (fr t).pc = (fr s).pc ∧
          (fr t).wait = .poll (.atMost (bitsOf v 18 6) (bitsOf v 12 6) (bitsOf v 6 6) (bitsOf v 0 6))))

/-- The handles of a team, both entries alike in a pair launch: HSET configures a handle that is not draining, releases a full one into the
other phase and fills a free one, or raises code 0x070, as event 4 where an entry reads STATE 3; a number at or above H, and a buffer past the scratchpad, raise code 0x071
(R231 to R233, R330, R396, Table ISAE.3). -/
def Sys2Proof.Claims.HandleStates : Prop :=
  ∀ (h b : BitVec 8) (z : BitVec 6) (s : State), Issuing s → Inside [h.toNat, b.toNat] s →
    scalarPoison (me s) (fr s) [h.toNat, b.toNat] = 0 → scalarPoison (me s) (fr s) [h.toNat] = 0 →
    let n := (scalarAt (me s) (fr s) h.toNat).toNat
    let o := (scalarAt (me s) (fr s) b.toNat).toNat
    let sides := if (launchOf s (me s)).pair then [false, true] else [false]
    let old := handleOf s (me s).team n
    let beyond : Cause := { cls := 2, code := 0x071, info := BitVec.ofNat 32 n }
    let event := fun (e : Nat) => if (∃ side ∈ sides, (old side).state = .corrupt) then 4 else e
    let set := fun (i : Instr) (g : Handle → Handle) => ∃ t, exec i s = .next t ∧ (fr t).pc = nextPc s ∧
      (∀ side ∈ sides, handleOf t (me s).team n side = g (old side)) ∧
      (∀ q side, q ≠ n ∨ side ∉ sides → handleOf t (me s).team q side = handleOf s (me s).team q side) ∧
      ∀ r, regOf (me t) r = regOf (me s) r
    (n < (launchOf s (me s)).handles → o + (z.toNat + 1) * 128 ≤ (declOf s (me s)).scratch →
      ((∀ side ∈ sides, (old side).state ≠ .draining) →
        set (.hsetFree h b z) (fun x => { x with state := .free, phase := false, base := o / 128 % 4096, size := z.toNat }) ∧
        set (.hsetFull h b z) fun x => { x with state := .full, phase := false, base := o / 128 % 4096, size := z.toNat }) ∧
      ((∃ side ∈ sides, (old side).state = .draining) → ∀ i ∈ [Instr.hsetFree h b z, .hsetFull h b z],
        exec i s = .next (waitFor (.undrained (me s).team n) s))) ∧
    ((launchOf s (me s)).handles ≤ n ∨ (declOf s (me s)).scratch < o + (z.toNat + 1) * 128 →
      exec (.hsetFree h b z) s = .next (raise beyond s) ∧ exec (.hsetFull h b z) s = .next (raise beyond s)) ∧
    (n < (launchOf s (me s)).handles →
      (holds s (me s) (.drained false) = true →
        ((∀ side ∈ sides, (old side).state = .full) → set (.hsetRel h) fun x => { x with state := .free, phase := !x.phase }) ∧
        ((∀ side ∈ sides, (old side).state = .free) → set (.hsetFill h) fun x => { x with state := .full })) ∧
      ((∃ side ∈ sides, (old side).state ≠ .full) → exec (.hsetRel h) s = .next (raise (eventCause s n (event 0)) s)) ∧
      ((∃ side ∈ sides, (old side).state ≠ .free) → exec (.hsetFill h) s = .next (raise (eventCause s n (event 1)) s))) ∧
    ((launchOf s (me s)).handles ≤ n → exec (.hsetRel h) s = .next (raise beyond s) ∧ exec (.hsetFill h) s = .next (raise beyond s))

/-- HWAIT goes on when the handle, or the ring's current handle in the ring's phase, holds the state in every entry, and waits otherwise; an
operand that names no handle of the team raises code 0x071; with EXEC = 0 it goes on.  RINGADV makes and advances ring values
(R234, R235, R330, R396). -/
def Sys2Proof.Claims.HandleWaits : Prop :=
  ∀ (h d : BitVec 8) (k f : BitVec 1) (m : BitVec 7) (s : State), Issuing s → Inside [h.toNat, d.toNat] s →
    scalarPoison (me s) (fr s) [h.toNat] = 0 →
    let v := scalarAt (me s) (fr s) h.toNat
    let g := ringOf s v
    let n := if k = 1 then g.cur else v.toNat
    let named := if k = 1 then g.ok = true else v.toNat < (launchOf s (me s)).handles
    let want : HState := if f = 1 then .full else .free
    let sides := if (launchOf s (me s)).pair then [false, true] else [false]
    let there := ∀ side ∈ sides, (handleOf s (me s).team n side).state = want ∧
      (k = 1 → (handleOf s (me s).team n side).phase = g.phase)
    ((fr s).exec = 0 → ∃ t, exec (.hwait h k f) s = .next t ∧ Retired [] s t) ∧
    ((fr s).exec ≠ 0 →
      (named → there → ∃ t, exec (.hwait h k f) s = .next t ∧ Retired [] s t) ∧
      (named → ¬ there → exec (.hwait h k f) s =
        .next (waitFor (.handle (me s).team n want (if k = 1 then some g.phase else none)) s)) ∧
      (¬ named → exec (.hwait h k f) s = .next (raise { cls := 2, code := 0x071, info := v } s))) ∧
    (∃ t, exec (.ringadvNew d h m) s = .next t ∧ Retired [d.toNat] s t ∧ Claims.WroteExec s t d.toNat (v + BitVec.ofNat 32 (m.toNat * 64))) ∧
    ∃ t, exec (.ringadv d h) s = .next t ∧ Retired [d.toNat] s t ∧ Claims.WroteExec s t d.toNat (ringNext v)

/-- What R234's ring value holds: the current handle is the first plus the index, and an advance past the last handle starts again in
the other phase. -/
def Sys2Proof.Claims.RingValues : Prop :=
  ∀ (s : State) (v : Word),
    let b := bitsOf v.toNat 0 6
    let c := bitsOf v.toNat 6 6 + 1
    let i := bitsOf v.toNat 12 6
    let g := ringOf s v
    let t := ringOf s (ringNext v)
    g.cur = b + i ∧ g.phase = v.getLsbD 18 ∧ (g.ok = true ↔ b + c ≤ (launchOf s (me s)).handles ∧ i < c) ∧
    (i + 1 < c → t.cur = g.cur + 1 ∧ t.phase = g.phase) ∧ (i + 1 = c → t.cur = b ∧ t.phase = !g.phase) ∧
    (ringNext v).extractLsb' 19 13 = v.extractLsb' 19 13 ∧ (g.ok = true → t.ok = true)

/-- Buffer handles and stage rings. -/
def Obligations.Handles : Prop :=
  Claims.HandleStates ∧ Claims.HandleWaits ∧ Claims.RingValues

/-! ## Copies (spec/10, spec/16) -/

/-- A copy from memory to the scratchpad whose operands are sound: clean registers inside the warp, a control word that asks for nothing
but the scratchpad (and a mask for COPYM), word-aligned addresses and length, a source that lies in a readable region, or below the
aperture for the system role, and a destination inside the scratchpad (R236, R423). -/
structure Sys2Proof.Claims.SoundFill (s : State) (kind : Nat) (d a b : BitVec 8) (r : CopyReq) : Prop where
  control : r.ctl % 65536 = 1
  mask : kind = 1 ∨ r.ctl < 65536
  inside : Inside ([d.toNat, a.toNat, a.toNat + 1] ++ regRun b.toNat (if kind = 2 then 4 else 2)) s
  clean : scalarPoison (me s) (fr s) ([d.toNat, a.toNat, a.toNat + 1] ++ regRun b.toNat (if kind = 2 then 4 else 2)) = 0
  length : r.len % 4 = 0 ∧ r.len ≤ 16777215
  aligned : (scalarAt (me s) (fr s) d.toNat).toNat % 4 = 0 ∧ (scalarPair (me s) (fr s) a.toNat).toNat % 4 = 0
  target : (scalarAt (me s) (fr s) d.toNat).toNat + r.span r.dp ≤ (declOf s (me s)).scratch
  source : (scalarPair (me s) (fr s) a.toNat).toNat + r.span r.sp ≤ aperture
  readable : r.span r.sp = 0 ∨ roleOf (me s) (fr s) = .system ∨ ∃ k, k < 16 ∧ ((launchOf s (me s)).region k).rights % 2 = 1 ∧
    inRegion (launchOf s (me s)) (teamOf s (me s)) (me s).wid k (scalarPair (me s) (fr s) a.toNat).toNat = true ∧
    (scalarPair (me s) (fr s) a.toNat).toNat + r.span r.sp ≤
      regionBase (launchOf s (me s)) (teamOf s (me s)) (me s).wid k + ((launchOf s (me s)).region k).len

/-- COPY, COPYM and COPYS queue their descriptor with the engine, counted in CNT.CP: a sound copy from memory to the scratchpad one with
its addresses, length, rows, pitches and mask, and any copy that meets no cause; in a redundant launch one bound for memory first waits for what is before it and for room in its gate
(log entries 44, 148); a full counter or queue makes them wait; what the
operands may not be raises its class 4 code (R236, R237, R239, R423). -/
def Obligations.Copies : Prop :=
  ∀ (d a b : BitVec 8), ∀ x ∈ [(Instr.copy d a b, 0), (.copym d a b, 1), (.copys d a b, 2)], ∀ s, Issuing s →
    let r := copyReq s x.2 d.toNat a.toNat b.toNat
    let v := fun n => (scalarAt (me s) (fr s) n).toNat
    let mine := (s.copies.filter fun c => c.core == (me s).core).length
    let queued := fun (c : Copy) (t : State) => GoesTo (nextPc s) []
      { setMe s { me s with cntCp := (me s).cntCp + 1 } with copies := s.copies ++ [c] } t ∧ t.copies = s.copies ++ [c]
    ((me s).cntCp < 64 → mine < 64 → Claims.SoundFill s x.2 d a b r →
      ∃ t c, exec x.1 s = .next t ∧ queued c t ∧ c.accepted = false ∧ c.merged = (x.2 == 1) ∧
        c.dst = .scratch (v d.toNat) ∧ c.src = .mem (scalarPair (me s) (fr s) a.toNat).toNat ∧ c.follower = false ∧
        c.len = (if x.2 = 2 ∧ v (b.toNat + 2) = 0 then 0 else v b.toNat) ∧ c.rows = (if x.2 = 2 then v (b.toNat + 2) else 1) ∧
        (x.2 = 2 → c.srcPitch = 16 * (v (b.toNat + 3) % 65536) ∧ c.dstPitch = 16 * (v (b.toNat + 3) / 65536)) ∧
        c.mask = BitVec.ofNat 16 (v (b.toNat + 1) / 65536) ∧ c.fill = none ∧ c.credit = none ∧
        c.core = (me s).core ∧ c.team = (me s).team ∧ c.wid = (me s).wid ∧
        c.after = ((opsOf s (me s)).filter fun o => o.ctr == .st).map (·.id)) ∧
    ((me s).cntCp < 64 → mine < 64 → copyCauses s r b.toNat = [] → isRedundant s (me s) = false →
      ∃ t, exec x.1 s = .next t ∧ queued (descriptor s r) t) ∧
    ((me s).cntCp < 64 → mine < 64 → copyCauses s r b.toNat = [] → isRedundant s (me s) = true →
      let full := gateNeed s r ≠ 0 ∧ gateFull s (me s) (min 65536 (gateNeed s r)) = true
      (∀ t, gatedWait (descriptor s r) s = some t → exec x.1 s = .next t) ∧
      (gatedWait (descriptor s r) s = none → full → exec x.1 s = .next (standAt 2 s)) ∧
      (gatedWait (descriptor s r) s = none → ¬ full → exec x.1 s = .next (enqueueCopy (descriptor s r) s))) ∧
    ((me s).cntCp = 64 → exec x.1 s = .next (waitFor (.counter .cp) s)) ∧
    ((me s).cntCp < 64 → 64 ≤ mine → exec x.1 s = .next (waitFor .copyQueue s)) ∧
    ∀ c, (me s).cntCp < 64 → mine < 64 → firstCause (copyCauses s r b.toNat) = some c → exec x.1 s = .next (raise c s)

/-- A copy that is accepted has read its source, once its warp's earlier stores are performed, and a COPYM asks the slices for the lines of
its source; a performed line holds the words read and is
counted; a copy with no line left is complete: FILL fills its free handle and CNT.CP falls; a merge entry that closes gives every
participant that its reply reaches its line, and is kept for the others (R237, R238, R240, R452).  A copy of a redundant launch signs its data.
Reading the whole source at acceptance is the model's choice (log entry 46), as is the one record that such a copy signs (log entry 44). -/
def Obligations.CopyEvents : Prop :=
  (∀ (id : Nat) (c : Copy) (m : Memory) (s : State), s.copies.find? (fun c => c.id == id && !c.accepted) = some c →
    queuedBefore s c = false → copyHeld s c c.src false (c.words.map (·.2.1)) .read = false → c.after = [] → unreached s c = none →
    (∀ x ∈ s.l1, x.dirty = 0) → readSource s c = .ok m →
    let taken := fun (data : Memory) (ord : Nat) => { s with
      copies := updateFirst (fun c => c.id == id) (fun y => { y with accepted := true, data := data, ord := ord, lines := c.dstLines }) s.copies }
    let asks := c.merged = true ∧ ∃ a, c.src = .mem a ∧ a < aperture
    (gated s c = false → ¬ asks → exec (.copyAccept id) s = .next (taken m c.ord)) ∧
    (gated s c = false → asks → exec (.copyAccept id) s = .next (requestLines (taken {} c.ord) c)) ∧
    (gated s c = true →
      let i := warpOfTeam s c.team c.wid
      let w := (s.warps.getD i {}).sign c.dst.start (c.len * c.rows) (m.read 0 (c.len * c.rows))
      exec (.copyAccept id) s = .next { taken m w.records with warps := s.warps.set i w })) ∧
  (∀ (id line : Nat) (c : Copy) (s : State), s.copies.find? (fun c => c.id == id && c.accepted && c.lines.contains line) = some c →
    lineReady s c line = true → lineLost s id line = false → lineDeny s c line = none → c.credit = none → gated s c = false →
    (∃ o, c.dst = .scratch o ∧ c.words ≠ [] ∧ ((teamById s c.team).scrBase + o + c.rows * (c.dstPitch + c.len) < 0x400000)) →
    c.rows = 1 → c.dst.start % 4 = 0 → (teamById s c.team).scrBase % 4 = 0 → s.mem.wf = true →
    ∃ t, exec (.copyLinePerformed id line) s = .next t ∧
      (∀ x ∈ c.lineWords line, t.mem.lane (scrAddr (sideCore c.core c.follower) ((teamById s c.team).scrBase + c.dst.start + x.2.2)) =
        c.data.lane x.1) ∧
      t.copies = updateFirst (fun c => c.id == id) (fun c => { c with lines := c.lines.filter (fun l => l != line) }) s.copies ∧
      t.warps = s.warps) ∧
  (∀ (id : Nat) (c : Copy) (s : State),
    let i := warpOfTeam s c.team c.wid
    s.copies.find? (fun c => c.id == id && c.accepted && c.lines.isEmpty && c.owed.isEmpty) = some c → i < s.warps.length →
    ∃ t, exec (.copyComplete id) s = .next t ∧ t.copies = s.copies.filter (fun x => x.id != id) ∧
      (t.warps.getD i {}).cntCp = (s.warps.getD i {}).cntCp - 1 ∧ t.mem = s.mem ∧
      (c.fill = none → t.handles = s.handles) ∧
      ∀ h, c.fill = some h → (handleOf s c.team h c.follower).state = .free → (handleOf t c.team h c.follower).state = .full) ∧
  ∀ (id : Nat) (m : Merge) (s : State), s.merges.find? (fun m => m.id == id) = some m →
    ((∀ c ∈ s.copies, m.waiting.contains c.id = true → c.hears s m.place = false) → (∃ c ∈ s.copies, m.waiting.contains c.id = true) →
      m.opened + 512 ≤ s.clk → ∃ t, exec (.mergeEntryClose id) s = .next t ∧ t.copies = s.copies ∧
        ∃ y ∈ t.merges, y.id = m.id ∧ y.waiting = m.waiting.filter fun i => s.copies.any fun c => c.id == i) ∧
    ((∀ c ∈ s.copies, m.waiting.contains c.id = true → c.hears s m.place = true) →
    exec (.mergeEntryClose id) s = .next (if m.opened + 512 ≤ s.clk ∨ m.full s = true then { s with
      merges := s.merges.filter fun y => y.id != id
      copies := s.copies.map fun c =>
        if m.waiting.contains c.id then { c.readLine (homeMem s m.place) m.line m.place with owed := c.owed.filter fun i => i != id }
        else c } else s))

/-! ## Tasks from the device (spec/10, spec/12) -/

/-- The device is enabled, the task table has a free slot, and the issuer's task is live and no 16 tasks deep: what a device-side task
asks of the machine (R241, R432). -/
structure Sys2Proof.Claims.TakesTasks (s : State) : Prop where
  device : (s.vdevs.getD (deviceAsker s).vdev {}).en = true
  world : (s.worlds.getD (deviceAsker s).world {}).en = true
  table : s.tasks.length = 512
  room : ∃ i, i < 512 ∧ (taskAt s i).state = .free
  depth : (deviceAsker s).ancestors.length ≤ 15

/-- LAUNCH and JOB hand their record or card to the task table after a release at package scope, and put the task word in D.  A record
that meets no status of Table ENGF.5, and a card that is sound with its ranges in the issuer's regions, is accepted: the word names a
slot that was free, which holds the task; JOB counts it in CNT.CP.  In a redundant launch both copies first stand at a comparison
point.  JOBWT waits for the task, and then goes on after an acquire at package scope (R241, R243, R44).  With EXEC = 0 the three go on.
The core's PRIV lines reach memory before the three let other tasks write or read it (log entry 184).
The slot taken and JOBWT's "older": log entries 70 and 71; one submission for both copies: log entry 43. -/
def Obligations.DeviceTasks : Prop :=
  ∀ (d a : BitVec 8) (s : State), Issuing s → (taskAt s (teamOf s (me s)).task).state ≠ .free →
    let r := evictPrivate (releaseActs s (me s).core 4) (me s).core
    let va := (scalarPair (me s) (fr s) a.toNat).toNat
    let word := scalarAt (me s) (fr s) a.toNat
    let asker := deviceAsker r
    let entered := fun (u : State) (w : Word) (body : Body) => ∃ slot, slot < 512 ∧ w = taskWord u slot ∧ w.getLsbD 31 = false ∧
      (taskAt s slot).state = .free ∧ (taskAt u slot).state ≠ .free ∧ (taskAt u slot).seq = (taskAt s slot).seq + 1 ∧
      (taskAt u slot).body = body ∧ (taskAt u slot).world = asker.world ∧ (taskAt u slot).vdev = asker.vdev ∧ u.warps = s.warps
    ((fr s).exec = 0 → ∀ i ∈ [Instr.launch d a, .job d a, .jobwt a], ∃ t, exec i s = .next t ∧ Retired [] s t) ∧
    ((fr s).exec ≠ 0 → Inside (d.toNat :: regRun a.toNat 2) s → scalarPoison (me s) (fr s) (regRun a.toNat 2) = 0 →
      holds s (me s) (.drained true) = true →
      (mustCompare s = true → exec (.launch d a) s = .next (standAt 6 s) ∧
        ((me s).cntCp < 64 → exec (.job d a) s = .next (standAt 6 s))) ∧
      (isRedundant s (me s) = false →
        (∀ u w, deviceLaunch r va = (u, w) → exec (.launch d a) s = .next (execAndGo [(d.toNat, splat w)] u)) ∧
        ((me s).cntCp < 64 → ∀ u w, deviceJob r va = (u, w) → exec (.job d a) s = .next (execAndGo [(d.toNat, splat w)]
          (if w.getLsbD 31 then u else setMe u { me u with cntCp := (me u).cntCp + 1 }))) ∧
        (Claims.TakesTasks r → ∀ bs x, deviceBytes r asker va 512 = some bs →
          resolve r bs (asker.adopt (launchAt bs)) = .ok x → x.jobs = [] →
          fixedStatuses r (grantsOf r asker.world) bs (asker.adopt (launchAt bs)) asker.world asker.vdev = [] →
          bodyStatuses r (grantsOf r asker.world) x.record (asker.adopt (launchAt x.record)) asker.world asker.vdev = [] →
          ∃ u w, exec (.launch d a) s = .next (execAndGo [(d.toNat, splat w)] u) ∧
            entered u w (.launch (asker.adopt (launchAt x.record)))) ∧
        ((me s).cntCp < 64 → Claims.TakesTasks r → ∀ bs, deviceBytes r asker va 64 = some bs → cardZeroBad bs = false →
          cardBad (cardAt bs) = false → inOwnRegion r (cardAt bs).dst.toNat (cardAt bs).len 2 = true →
          ((cardAt bs).kind = 1 ∨ inOwnRegion r (cardAt bs).src.toNat (cardAt bs).len 1 = true) →
          ∃ u w, exec (.job d a) s =
              .next (execAndGo [(d.toNat, splat w)] (setMe u { me u with cntCp := (me u).cntCp + 1 })) ∧
            entered u w (.job (cardAt bs))))) ∧
    ((fr s).exec ≠ 0 → Inside [a.toNat] s → scalarPoison (me s) (fr s) [a.toNat] = 0 →
      (taskOver s word = true → ∃ t, exec (.jobwt a) s = .next t ∧
        Retired [] { s with l1 := t.l1, mem := t.mem, sharers := t.sharers, gateways := t.gateways, waiters := t.waiters } t ∧
        (∀ x ∈ t.l1, x.core = (me s).core → x.kind ≠ .priv) ∧
        ((∀ x ∈ s.l1, x.core = (me s).core → x.kind = .priv → x.dirty = 0) → HomeKept s t)) ∧
      (taskOver s word = false → exec (.jobwt a) s = .next (waitFor (.task word) s)))

/-! ## The matrix array (spec/10) -/

/-- The tile instructions that enter the array's queue as they are, with what they put there and the causes of their issue. -/
def Sys2Proof.Claims.tileTable (s : State) (c a d e : BitVec 8) (n : BitVec 3) (r z p : BitVec 1) (m : BitVec 4) :
    List (Instr × TileKind × List Cause) :=
  let t := (scalarAt (me s) (fr s) c.toNat).toNat
  let on := fun (x : BitVec 1) => x == 1#1
  let f := fr s
  let dests := regRun d.toNat 2
  [ (.tmma c a n r z, .mma t a.toNat n.toNat (on r) (on z), multiplyCauses s c a n),
    (.tmmab c a n r z, .mmaB t a.toNat n.toNat (on r) (on z), multiplyCauses s c a n),
    (.tmmap c a n r z, .mmaPair t a.toNat n.toNat (on r) (on z), multiplyCauses s c a n ++ tmmapCauses s),
    (.taccz c m p, .zero t (m.toNat + 1) (on p), scalarCauses s [c.toNat] [c.toNat] ++ pairCauses s (on p)),
    (.taccld d c m p, .readAcc d.toNat t m.toNat (on p) f.exec (if effZ none (me s) then f.frag &&& ~~~f.exec else 0),
      scalarCauses s [c.toNat] (dests ++ [c.toNat]) ++ pairCauses s (on p)),
    (.taccst e c 0 p, .store none (scalarAt (me s) f e.toNat).toNat t (on p),
      scalarCauses s [e.toNat, c.toNat] [e.toNat, c.toNat] ++ pairCauses s (on p)),
    (.tbld e n 2 p z, .load none (scalarAt (me s) f e.toNat).toNat n.toNat (on p) (on z),
      scalarCauses s [e.toNat] [e.toNat] ++ (if (tileSlot s n).fmt == 7 then
        [{ cls := 2, code := 0x052, info := BitVec.ofNat 32 (n.toNat + (tileSlot s n).fmt * 256) }] else []) ++ pairCauses s (on p)),
    (.trel, .release false, []), (.trelArray, .release true, []) ]

/-- A tile instruction without cause enters the queue of the array that its team holds, counted in CNT.TL, and its fragment goes on; a full
counter, a releasing array or a full queue makes it wait; a cause is raised (R244, R254, R394, R395). -/
def Sys2Proof.Claims.TileIssue : Prop :=
  ∀ (c a d e : BitVec 8) (n : BitVec 3) (r z p : BitVec 1) (m : BitVec 4) (s : State) (x : Array), Issuing s →
    arrayOf s (me s).team = some x →
    ∀ i ∈ Claims.tileTable s c a d e n r z p m,
      ((me s).cntTl < 16 → x.releasing = false → x.queue.length < 8 → i.2.2 = [] →
        ∃ t, exec i.1 s = .next t ∧ (fr t).pc = nextPc s ∧ (me t).cntTl = (me s).cntTl + 1 ∧
          (∀ q, regOf (me t) q = regOf (me s) q) ∧ t.mem = s.mem ∧ (me t).flags = (me s).flags ∧
          ∃ y o, arrayOf t (me s).team = some y ∧ y.queue = x.queue ++ [o] ∧ o.kind = i.2.1 ∧ o.wid = (me s).wid ∧ o.pc = (fr s).pc) ∧
      ((me s).cntTl = 16 → exec i.1 s = .next (waitFor (.counter .tl) s)) ∧
      ((me s).cntTl < 16 → x.releasing = true → exec i.1 s = .next (waitFor .claim s)) ∧
      ((me s).cntTl < 16 → x.releasing = false → 8 ≤ x.queue.length → exec i.1 s = .next (waitFor .arrayQueue s)) ∧
      ∀ q, (me s).cntTl < 16 → x.releasing = false → x.queue.length < 8 → firstCause i.2.2 = some q → exec i.1 s = .next (raise q s)

/-- A TBLD of a handle or ring, full on the sides that it loads, makes it draining there at its issue, and a TACCST into a free handle or
ring with room for the tile names its buffer; a first tile instruction claims a free array; TREL without a claim only goes on
(R232, R233, R253, R254, R330). -/
def Sys2Proof.Claims.TileClaims : Prop :=
  ∀ (e c : BitVec 8) (n : BitVec 3) (p z ring : BitVec 1) (m : BitVec 4) (s : State), Issuing s → Inside [e.toNat, c.toNat] s →
    (p = 1 → (launchOf s (me s)).pair = true ∧ (teamOf s (me s)).pairBroken = false) →
    (me s).cntTl < 16 → (teamOf s (me s)).id = (me s).team →
    let on := fun (x : BitVec 1) => x == 1#1
    let v := scalarAt (me s) (fr s) e.toNat
    let nm := namedHandle s v (on ring)
    let place := (scalarAt (me s) (fr s) c.toNat).toNat
    (∀ x, arrayOf s (me s).team = some x → x.releasing = false → x.queue.length < 8 → nm.causes = [] →
      scalarPoison (me s) (fr s) [e.toNat] = 0 → scalarPoison (me s) (fr s) [e.toNat, c.toNat] = 0 →
      let sides := if p = 1 then [false, true] else [false]
      ((tileSlot s n).fmt ≠ 7 →
        (∀ side ∈ sides, (handleOf s (me s).team nm.h side).state = .full ∧
          (ring = 1 → (handleOf s (me s).team nm.h side).phase = (ringOf s v).phase)) →
        ∃ t, exec (.tbld e n (if ring = 1 then 1 else 0) p z) s = .next t ∧ (fr t).pc = nextPc s ∧
          (∀ side ∈ sides, (handleOf t (me s).team nm.h side).state = .draining) ∧
          ∃ y o, arrayOf t (me s).team = some y ∧ y.queue = x.queue ++ [o] ∧
            o.kind = .load (some nm.h) v.toNat n.toNat (on p) (on z)) ∧
      let y := handleOf s (me s).team nm.h (on p)
      (y.state = .free → tileBytes (launchOf s (me s)) ≤ (y.size + 1) * 128 →
        ∃ t, exec (.taccst e c (if ring = 1 then 2 else 1) p) s = .next t ∧ (fr t).pc = nextPc s ∧ t.handles = s.handles ∧
          ∃ a o, arrayOf t (me s).team = some a ∧ a.queue = x.queue ++ [o] ∧ o.kind = .store (some nm.h) (y.base * 128) place (on p))) ∧
    (arrayOf s (me s).team = none → scalarPoison (me s) (fr s) [c.toNat] = 0 →
      (claimFree s (teamOf s (me s)) = true →
        ∃ t y o, exec (.taccz c m p) s = .next t ∧ (fr t).pc = nextPc s ∧ arrayOf t (me s).team = some y ∧ y.queue = [o] ∧
          o.kind = .zero place (m.toNat + 1) (on p) ∧ y.core = (teamOf s (me s)).core) ∧
      (claimFree s (teamOf s (me s)) = false → exec (.taccz c m p) s = .next (waitFor .claim s))) ∧
    (arrayOf s (me s).team = none → (∃ t, exec .trel s = .next t ∧ Retired [] s t) ∧ ∃ t, exec .trelArray s = .next t ∧ Retired [] s t)

/-- Tile instructions claim an array and enter its queue. -/
def Obligations.TileQueue : Prop :=
  Claims.TileIssue ∧ Claims.TileClaims

/-- TMMA's tile: element (i, n) of the accumulators becomes one K-step of row i of A with row n of the bank on its old value (or on zero),
and nothing else of memory changes (R155, R156, R248). -/
def Obligations.TileProducts : Prop :=
  ∀ (m : Memory) (acc cols : Nat) (zf : Bool) (sa : Slot) (b : Bank) (rows : List Row), m.wf = true → acc % 4 = 0 →
    let t := mmaTile m acc cols zf sa b rows
    let at' := fun (i n : Nat) => acc + 4 * cols * i + 4 * n
    (∀ i n, i < 16 → n < cols → t.lane (at' i n) = kElem sa b.slot (if zf then {} else m.lane (at' i n))
      ((List.range b.kw).map fun k => (aElem (rows.getD i zeroRow) (codeBits sa.fmt) 0 k, bElem b n k))) ∧
    (∀ x, x < acc ∨ acc + 64 * cols ≤ x → t.get x = m.get x ∧ t.bad x = m.bad x) ∧ t.wf = true

/-- TBLD_LATCH and TILE_RETIRE perform the oldest instruction of an array and let CNT.TL fall; TMMA, TMMAB and TMMAP add their products, TACCZ zeroes
its tiles, TACCLD writes a row of its tile, TACCST moves its tile and fills its handle, TBLD frees its handle into the other phase, on both sides of a pair; an element that an operand
row struck by an error takes part in is poison; TMMAP_FOLLOWER_TIMEOUT breaks the pair and leaves code 0x310 pending
(R244, R246, R248, R251, R253, R427, R428).  Which row an error strikes: log entry 124; the follower's side after a time-out, its handle too: log entry 52;
an accumulator offset past its part wraps: log entry 33. -/
def Obligations.TileEvents : Prop :=
  ∀ (core half : Nat) (s : State) (a : Array) (o : TileOp) (rest : List TileOp),
    let i := warpOfTeam s a.team o.wid
    let l := (taskAt s (teamById s a.team).task).launch
    arrayAt s core half = some a → arrayOf s a.team = some a → a.queue = o :: rest → i < s.warps.length →
    (o.isLoad = false → ∃ t, exec (.tileRetire core half) s = .next t ∧ (t.warps.getD i {}).cntTl = (s.warps.getD i {}).cntTl - 1 ∧
      (o.kind ≠ .release true → ∃ y, arrayOf t a.team = some y ∧ y.queue = rest ∧ y.struck = []) ∧
      (o.kind = .release true → arrayOf t a.team = none) ∧
      (∀ c reg slot reuse zf, o.kind = .mma c reg slot reuse zf →
        t.mem = strike (mmaTile s.mem (accPlace s a false c) (tileCols l) zf (l.slots.getD slot {}) a.bank (aRows s a o.wid reg slot reuse))
          (accPlace s a false c) (a.struck.flatMap (struckTile (tileCols l)))) ∧
      (∀ c reg slot reuse zf, o.kind = .mmaB c reg slot reuse zf →
        t.mem = strike (mmaBatch s.mem (accPlace s a false c) l.half zf (l.slots.getD slot {}) a.bank (aRows s a o.wid reg slot reuse))
          (accPlace s a false c) (a.struck.flatMap (struckBatch l.half))) ∧
      (∀ c reg slot reuse zf, o.kind = .mmaPair c reg slot reuse zf →
        let side := fun (m : Memory) (x : Array) (acc : Nat) => strike (mmaTile m acc 64 zf (l.slots.getD slot {}) x.bank (aRows s a o.wid reg slot reuse))
          acc (x.struck.flatMap (struckTile 64))
        t.mem = side (side s.mem a (accPlace s a false c)) (followerOf s a.team) (accPlace s a true c)) ∧
      (∀ c k p, o.kind = .zero c k p → t.mem = (loadSides p).foldl (fun m side => m.clear (accPlace s a side c) (k * tileBytes l)) s.mem) ∧
      (∀ d c m p ex ze, o.kind = .readAcc d c m p ex ze → (s.warps.getD i {}).halted = false → (s.warps.getD i {}).regs.length = 256 →
        t.mem = s.mem ∧ ∀ j x, j < tileCols l / 32 → d + j < 256 → x < 32 → laneAt (regOf (t.warps.getD i {}) (d + j)) x =
          if inMask ex x then s.mem.lane (accPlace s a p c + 4 * tileCols l * m + 4 * (32 * j + x))
          else if inMask ze x then {} else laneAt (regOf (s.warps.getD i {}) (d + j)) x) ∧
      (∀ h off c p, o.kind = .store h off c p →
        t.mem = (moveWords s (accPlace s a p c) (scrAddr (sideCore a.core p) (((teamById s a.team).scrBase + off) % 0x400000)) (tileBytes l)).mem ∧
        ∀ x, h = some x → (handleOf s a.team x p).state = .free → (handleOf t a.team x p).state = .full)) ∧
    (o.isLoad = true → ∃ t, exec (.tbldLatch core half) s = .next t ∧ (t.warps.getD i {}).cntTl = (s.warps.getD i {}).cntTl - 1 ∧
      t.mem = s.mem ∧ (∃ y, arrayOf t a.team = some y ∧ y.queue = rest ∧ y.current = !a.current) ∧
      ∀ h off slot p wide, o.kind = .load (some h) off slot p wide → ∀ side ∈ loadSides p,
        handleOf t a.team h side = { handleOf s a.team h side with state := .free, phase := !(handleOf s a.team h side).phase }) ∧
    (half = 2 → o.isPair = true → exec (.tmmapFollowerTimeout core) s = .next (leavePending
      (countError (onTeam (retireTile s a o true) a.team fun t => { t with pairBroken := true })
        { structClass := 7, unit := core + 1, sub := 0, row := 0 } true 0) a.team o.wid
      { cls := 4, code := 0x310, res := true, pois := false, frag := o.frag, pc := o.pc, instr := o.instr, ctr := none
        info := some (BitVec.ofNat 32 (o.pc.toNat / 4)) }))

/-! ## Time, counters and debugging (spec/10, spec/18) -/

/-- CLOCK, PERF and TRAPRD write their registers under EXEC; SEGQ names the segment that holds the address, its epoch and its
replicas, or answers that none does, as always outside a travelling launch; BKPT
goes on, or stops its fragment where the device may be debugged; with no lane in EXEC the first four only go on (R256 to R260, R224). -/
def Sys2Proof.Claims.SystemInstructions : Prop :=
  ∀ (d a n : BitVec 8) (k : BitVec 4) (m : BitVec 16) (s : State), Issuing s →
    let quiet := fun (i : Instr) => (fr s).exec = 0 → ∃ t, exec i s = .next t ∧ Retired [] s t
    quiet (.clock d) ∧ quiet (.perf d n) ∧ quiet (.traprd d k) ∧ quiet (.segq d a) ∧
    ((fr s).exec ≠ 0 → Inside [d.toNat, d.toNat + 1, a.toNat, a.toNat + 1] s →
      (d.toNat < 255 → ∃ t, exec (.clock d) s = .next t ∧ Retired [d.toNat, d.toNat + 1] s t ∧
        Claims.WroteExec s t d.toNat (BitVec.ofNat 32 s.clk) ∧ Claims.WroteExec s t (d.toNat + 1) (BitVec.ofNat 32 (s.clk / 2 ^ 32))) ∧
      (∃ t, exec (.perf d n) s = .next t ∧ Retired [d.toNat] s t ∧
        Claims.WroteExec s t d.toNat ((teamOf s (me s)).perf.getD n.toNat 0)) ∧
      (∃ t, exec (.traprd d k) s = .next t ∧ Retired [d.toNat] s t ∧
        Claims.WroteExec s t d.toNat (if (fr s).handler then (me s).kept.words.getD k.toNat 0 else 0)) ∧
      (d.toNat < 255 → (launchOf s (me s)).travelling = false → scalarPoison (me s) (fr s) (regRun a.toNat 2) = 0 →
        ∃ t, exec (.segq d a) s = .next t ∧ Retired [d.toNat, d.toNat + 1] s t ∧ Claims.WroteExec s t d.toNat 0xFFFFFFFF ∧
          Claims.WroteExec s t (d.toNat + 1) 0) ∧
      (d.toNat < 255 → (launchOf s (me s)).travelling = true → scalarPoison (me s) (fr s) (regRun a.toNat 2) = 0 →
        ∀ u m, readMap s (me s) = .ok (u, m) →
          let k := m.segmentOf (scalarPair (me s) (fr s) a.toNat).toNat
          ∃ t, exec (.segq d a) s = .next t ∧ Retired [d.toNat, d.toNat + 1] u t ∧
            Claims.WroteExec u t d.toNat (match k with
              | none => 0xFFFFFFFF
              | some n => BitVec.ofNat 32 n) ∧
            Claims.WroteExec u t (d.toNat + 1) (match k with
              | none => 0
              | some n => BitVec.ofNat 32 (m.epoch.toNat % 65536 * 65536 + (m.entries.getD n { base := 0, len := 0, nrep := 0, cores := [] }).nrep % 16)))) ∧
    (s.dbgen.getLsbD (taskOf s (me s)).vdev = false → ∃ t, exec (.bkpt m) s = .next t ∧ Retired [] s t) ∧
    (s.dbgen.getLsbD (taskOf s (me s)).vdev = true →
      ∃ t, exec (.bkpt m) s = .next t ∧ (fr t).pc = nextPc s ∧ (∀ r, regOf (me t) r = regOf (me s) r) ∧ t.mem = s.mem ∧
        fragReady t (me t) (fr t) = false ∧ ∃ logged, (fr t).wait = .stopped logged)

/-- RESUME lets the stopped fragments of a warp go on and clears the warp's entry of the stop log; DBGEN_WRITE sets DBGEN (R360). -/
def Sys2Proof.Claims.DebugEvents : Prop :=
  ∀ (v : BitVec 32) (g : BitVec 64) (s : State), (∀ w ∈ s.warps, ∀ f ∈ w.frags, f.wait ≠ .stopped false) →
    let core := v.toNat / 65536 % 1024
    let slot := v.toNat % 64
    (∃ t, exec (.resume v) s = .next t ∧ { t with warps := s.warps, stopLog := s.stopLog } = s ∧
      (∀ w ∈ t.warps, w.core = core → w.slot = slot → ∀ f ∈ w.frags, ∀ b, f.wait ≠ .stopped b) ∧
      (∀ i, i < s.warps.length → ((s.warps.getD i {}).core, (s.warps.getD i {}).slot) ≠ (core, slot) →
        t.warps.getD i {} = s.warps.getD i {}) ∧
      ((∃ w ∈ s.warps, w.core = core ∧ w.slot = slot) → ∀ e ∈ t.stopLog, e.valid = true → (e.core, e.slot) ≠ (core, slot))) ∧
    ∃ t, exec (.dbgenWrite g) s = .next t ∧ t.dbgen = g ∧ t.mem = s.mem ∧ ∀ i r, regOf (t.warps.getD i {}) r = regOf (s.warps.getD i {}) r

/-- CLOCK, PERF, TRAPRD, SEGQ and BKPT, and the debug block that answers them. -/
def Obligations.SystemAndDebug : Prop :=
  Claims.SystemInstructions ∧ Claims.DebugEvents

/-! ## Host queues (spec/12) -/

/-- A queue, the state with it replaced, and the state past its packet: HEAD one further; the queue of a disabled device halts (R436). -/
def Sys2Proof.Claims.queueAt (s : State) (n : Nat) : Queue := s.queues.getD n {}
def Sys2Proof.Claims.withQueue (s : State) (n : Nat) (q : Queue) : State := { s with queues := s.queues.set n q }
def Sys2Proof.Claims.past (s : State) (n : Nat) : State :=
  let q := Claims.queueAt s n
  Claims.withQueue s n { q with
    head := q.head + 1, waiting := .none, status := if (s.vdevs.getD q.vdev {}).en then q.status else 0x05 }

/-- KICK and EN of a queue; what each kind of packet does at its turn: NOP, FENCE and SIGNAL are consumed, the last two once the queue's tasks
are over, a SIGNAL with its value at its word and its message sent; WAITEV once its word has come; LAUNCH and JOB when their task
is taken; none is served out of its turn; a lap word that never comes halts the queue; a vector unmasked sends what was pending (R283 to R286, R431).
What takes a turn: log entry 157. -/
def Obligations.QueuePackets : Prop :=
  (∀ (n : Nat) (s : State), n < 256 → s.queues.length = 256 →
    let q := Claims.queueAt s n
    (∀ x : BitVec 32, q.en = true → q.status = 0 →
      ((x - q.kick).toNat < 2 ^ 31 → exec (.kick n x) s = .next (Claims.withQueue s n { q with kick := x })) ∧
      (2 ^ 31 ≤ (x - q.kick).toNat → exec (.kick n x) s = .next s)) ∧
    (∀ v : BitVec 32, ∃ r, exec (.queueEnWrite n v) s = .next (Claims.withQueue s n r) ∧ r.en = v.getLsbD 31 ∧ r.qbase = q.qbase ∧
      r.ivec = q.ivec ∧ (q.en = true → r.vdev = q.vdev ∧ r.log2n = q.log2n) ∧
      (q.en = false → r.vdev = (v.extractLsb' 8 6).toNat ∧
        (4 ≤ (v.extractLsb' 0 5).toNat → (v.extractLsb' 0 5).toNat ≤ 16 → r.log2n = (v.extractLsb' 0 5).toNat)) ∧
      (v.getLsbD 31 = true → r.kick = 0 ∧ r.head = 0 ∧ r.status = 0) ∧
      (v.getLsbD 31 = false → r.kick = q.kick ∧ r.head = q.head ∧ r.status = q.status)) ∧
    (cfeTurn s ≠ some n → ∀ i ∈ [Instr.packetNop n, .packetFence n, .packetSignal n, .packetWaitev n, .packetLaunch n, .packetJob n],
      exec i s = .next s) ∧
    (∀ p body, readPacket s n = .packet p body → cfeTurn s = some n →
      let u : State := { s with lastQueue := n }
      let held := Claims.withQueue u n { q with waiting := .held }
      (p.kind = 0 → exec (.packetNop n) s = .next (Claims.past u n)) ∧
      (p.kind = 5 → exec (.packetFence n) s = .next (if queueClear s n then Claims.past u n else held)) ∧
      (p.kind = 4 → queueClear s n = false → exec (.packetSignal n) s = .next held) ∧
      (∀ a, p.kind = 4 → queueClear s n = true → frontPage s (q.world s) p.addr.toNat .write = some a → inBlock a = false →
        s.mem.wf = true → ∃ t, exec (.packetSignal n) s = .next t ∧ t.queues = (Claims.past u n).queues ∧
          t.mem.read a 8 = toBytes 8 p.value.toNat ∧ (∀ x, x < a ∨ a + 8 ≤ x → t.mem.get x = s.mem.get x) ∧
          (p.irq = false → t.out = s.out) ∧
          (p.irq = true → q.ivec < msixSize q.vdev → (msixVec s q.vdev q.ivec).masked = false → t.out = s.out ++ [.msix q.vdev q.ivec])) ∧
      (p.kind = 3 → exec (.packetWaitev n) s =
        .next (if p.value.toNat ≤ ofBytes (body.take 8) then Claims.past u n else Claims.withQueue u n { q with waiting := .event })) ∧
      (p.kind = 1 → (∀ v slot, acceptLaunch u (queueAsker u n p) body = .taken v slot → exec (.packetLaunch n) s = .next (consume v n)) ∧
        (acceptLaunch u (queueAsker u n p) body = .full → exec (.packetLaunch n) s = .next held)) ∧
      (p.kind = 2 → (∀ v slot, acceptHostJob u (queueAsker u n p) body = .taken v slot → exec (.packetJob n) s = .next (consume v n)) ∧
        (acceptHostJob u (queueAsker u n p) body = .full → exec (.packetJob n) s = .next held))) ∧
    (∀ p body, readPacket s n = .packet p body → p.kind = 3 → q.waiting = .event → exec (.waitevReread n) s =
      .next (if p.value.toNat ≤ ofBytes (body.take 8) then Claims.past s n else Claims.withQueue s n { q with waiting := .event })) ∧
    ∀ k, q.waiting = .lap k →
      (k < 64 → readPacket s n = .unmatched → exec (.lapReread n) s = .next (Claims.withQueue s n { q with waiting := .lap (k + 1) })) ∧
      (64 ≤ k → exec (.lapReread n) s = .next s) ∧
      (64 ≤ k → exec (.queueLapTimeout n) s = .next (Claims.withQueue s n { q with status := 0x01, waiting := .none }))) ∧
  ∀ (fn v : Nat) (s : State), v < msixSize fn →
    (∃ t, exec (.msixUnmask fn v) s = .next t ∧
      (msixVec t fn v).masked = false ∧ (msixVec t fn v).pending = false ∧
      (∀ f w, (f, w) ≠ (fn, v) → msixVec t f w = msixVec s f w) ∧
      t.out = (if (msixVec s fn v).pending then s.out ++ [.msix fn v] else s.out) ∧ { t with msix := s.msix, out := s.out } = s) ∧
    ∀ rest, (beforeStep s).inputs = .mask fn v :: rest → ∃ t, step s = .next t ∧ msixVec t fn v = { msixVec (beforeStep s) fn v with masked := true } ∧
      (∀ f w, (f, w) ≠ (fn, v) → msixVec t f w = msixVec (beforeStep s) f w) ∧ { t with msix := s.msix } = { beforeStep s with msix := s.msix, inputs := rest }

/-! ## Admission (spec/04) -/

/-- What a request's place in its ring gives: a ring that cannot be read stops; a valid request is taken, its status record written with
code 2 where it is malformed, its job begun otherwise, and HEAD advances; a job whose image breaks a rule writes the rejection;
one that passes seals its pages, appends its exports and extends the measurement (R72 to R76, R102, R380 to R382). -/
def Obligations.AdmissionRequests : Prop :=
  (∀ (w : Nat) (s : State),
    let d := s.worlds.getD w {}
    let stopped : State := { s with worlds := s.worlds.set w { d with ringStopped := true } }
    (aduSlot s w = .unread → exec (.aduKick w) s = .next stopped ∧ exec (.aduSlotReread w) s = .next stopped ∧
      exec (.aduRequestConsume w) s = .next stopped) ∧
    (aduSlot s w ≠ .unread → exec (.aduKick w) s = .next s ∧ exec (.aduSlotReread w) s = .next s) ∧
    ∀ head b, aduSlot s w = .valid head b →
      let u := takeRequest s w (head % 64) b
      ∃ t, exec (.aduRequestConsume w) s = .next t ∧ t.adu = u.adu ∧ t.pages = u.pages ∧
        (∀ a, frontPage u w (d.aring.toNat + 4) .write = some a → inBlock a = false → u.mem.wf = true →
          t.mem.read a 4 = toBytes 4 ((head + 1) % 2 ^ 32)) ∧
        (w, head % 64) ∉ t.tenantSlots) ∧
  (∀ (w slot : Nat) (b img : List Byte) (s : State),
    let addr := (dwordIn b 0).toNat
    let len := field b 8 0 32
    let status := (dwordIn b 0x18).toNat
    status % 32 = 0 → (frontPage s w status .write).isSome = true → addr % 65536 = 0 → len ≤ 0x4000000 → frontRead s w addr len = some img →
    (∀ c, malformedCode s w slot b (some img) = some c → takeRequest s w slot b = putStatus s w status [2, c]) ∧
    (∀ m, malformedCode s w slot b (some img) = none → sameModule s w (field b 0x0C 0 2) len (sha384 img) = some m →
      takeRequest s w slot b = putStatus s w status [0, m.modId, m.firstExport, m.exportCount]) ∧
    (malformedCode s w slot b (some img) = none → sameModule s w (field b 0x0C 0 2) len (sha384 img) = none →
      ∃ j, (takeRequest s w slot b).adu = s.adu ++ [j] ∧ j.world = w ∧ j.image = img ∧ j.digest = sha384 img ∧ j.status = status ∧
        (takeRequest s w slot b).mem = s.mem)) ∧
  ∀ (w : Nat) (j : AduJob) (s : State), s.adu.find? (fun x => x.world == w) = some j → aduServes s = true → w < s.worlds.length →
    (∀ r, checkRequest s j = .error r → ∃ t, exec (.admissionComplete w) s = .next t ∧ t.seals = s.seals ∧ t.entries = s.entries ∧
      t.worlds = s.worlds ∧ (∀ x ∈ t.adu, x.world ≠ w) ∧
      (∀ a, frontPage { s with adu := t.adu, pages := t.pages } w j.status .write = some a → inBlock a = false → s.mem.wf = true →
        t.mem.read a 32 = (rejectWords r).flatMap (toBytes 4))) ∧
    ∀ m found, checkRequest s j = .ok (m, found) → ∃ t, exec (.admissionComplete w) s = .next t ∧
      let first := (entriesOf s w).length
      let x := sealFor s j m first
      t.seals = s.seals ++ [x] ∧ t.entries = s.entries ++ (numbered m.exports).map (fun e => entryOf' j m x.modId (first + e.1) e.2) ∧
      (∀ f ∈ j.frames, pageState t f.2 = .sealed ∧ (ownerOf t f.2).sealed = true ∧
        { page := f.2, world := w, modId := x.modId, digest := j.digest } ∈ t.sealTable) ∧
      (t.worlds.getD w {}).nextMod = (s.worlds.getD w {}).nextMod + 1 ∧
      (t.worlds.getD w {}).meas = sha384 (digestBytes (s.worlds.getD w {}).meas ++ digestBytes j.digest) ∧
      ∀ y ∈ t.adu, y.world ≠ w

/-! ## Worlds and the security core (spec/19, spec/24) -/

/-- The mailbox holds a command that die 0's security core begins and whose checks it passes (R455). -/
def Sys2Proof.Claims.Commanded (op : Nat) (s : State) : Prop :=
  s.box.busy = true ∧ s.box.op.toNat = op ∧ s.box.started = false ∧ s.box.own = none ∧ serves s 0 = true ∧ boxCode s = 0 ∧ s.worlds.length = 64

/-- The commands of the mailbox: WORLD_SET writes the descriptor, a new world with generation 0 and fresh keys, an old one losing its
translations; MAP2 maps clean pages in order while the pool has them; UNMAP2 and INVAL take translations away, and the I-cache lines fetched
through them, and end once older accesses are over; TEARDOWN leaves a world nothing (R336 to R342, R420).
Which pages MAP2 takes is the model's choice (log entry 84). -/
def Obligations.MailboxCommands : Prop :=
  ∀ (s : State),
    let w := s.box.world.toNat
    let page := s.box.addr.toNat / 65536
    let count := s.box.count.toNat
    let within' := fun (p : Nat) => page ≤ p ∧ p < page + count
    let old := s.worlds.getD w {}
    (Claims.Commanded 1 s → ∃ t, exec .worldSet s = .next t ∧
      (let d := t.worlds.getD w {}
       d.en = true ∧ d.root = s.box.arg0 ∧ d.grants = s.box.arg1 ∧ d.ngrant = s.box.arg2.toNat % 8192 ∧ d.xhalf = s.box.arg2.getLsbD 13 ∧
       d.adapt = s.box.arg3 ∧ d.aring = s.box.arg4 ∧ d.ringStopped = false ∧
       (old.en = false → d.gen = 0 ∧ d.meas = 0 ∧ d.keys = some s.draws ∧ t.draws = s.draws + 1 ∧ t.box.busy = false ∧ t.box.code = 0) ∧
       (old.en = true → d.gen = old.gen ∧ d.meas = old.meas ∧ d.keys = old.keys ∧ (∀ e ∈ t.tlb, e.world ≠ w) ∧
         (accessesDone s w s.nextId = true → t.box.busy = false ∧ t.box.code = 0))) ∧
      (∀ v, v ≠ w → t.worlds.getD v {} = s.worlds.getD v {}) ∧ t.mem = s.mem ∧ t.warps = s.warps ∧ t.stage2 = s.stage2) ∧
    (Claims.Commanded 2 s → ∃ t ps, exec .map2 s = .next t ∧ t.stage2 = s.stage2 ++ ps ∧
      ps.map (fun e => (e.1, e.2.1)) = (List.range ps.length).map (fun i => (w, page + i)) ∧ ps.length ≤ count ∧
      (∀ e ∈ ps, (ownerOf t e.2.2).owner = w ∧ (ownerOf t e.2.2).clean = false) ∧
      (ps.length = count → t.box.busy = false ∧ t.box.code = 0) ∧
      (ps.length < count → t.box.busy = true ∧ takeClean t (s.box.arg0.toNat % 256) = none) ∧ t.mem = s.mem) ∧
    (Claims.Commanded 3 s → ∃ t, exec .unmap2 s = .next t ∧
      (∀ e, e ∈ t.stage2 ↔ e ∈ s.stage2 ∧ ¬ (e.1 = w ∧ within' e.2.1)) ∧
      (∀ y ∈ s.stage2, y.1 = w → within' y.2.1 →
        (∀ e ∈ t.tlb, e.world = w → e.frame / 65536 ≠ y.2.2) ∧ ∀ x ∈ t.ilines, x.store = false → x.frame ≠ y.2.2) ∧
      (accessesDone s w s.nextId = true → t.box.busy = false ∧ t.box.code = 0 ∧
        ∀ e ∈ s.stage2, e.1 = w → within' e.2.1 → e.2.2 ∈ t.scrub) ∧
      (accessesDone s w s.nextId = false → t.box.busy = true ∧ t.scrub = s.scrub)) ∧
    (Claims.Commanded 4 s → ∃ t, exec .inval s = .next t ∧
      (∀ e ∈ t.tlb, e.world = w → s.box.arg2.getLsbD 0 = false ∧ ¬ within' e.page) ∧
      (∀ x ∈ t.ilines, x.store = false → x.world = w → s.box.arg2.getLsbD 0 = false ∧ ¬ within' (x.base / 65536)) ∧
      (accessesDone s w s.nextId = true → t.box.busy = false ∧ t.box.code = 0) ∧
      { t with tlb := s.tlb, ilines := s.ilines, box := s.box } = s) ∧
    (Claims.Commanded 5 s → s.condemned = [] → ∃ t, exec .teardown s = .next t ∧ (t.worlds.getD w {}).en = false ∧
      (t.worlds.getD w {}).meas = 0 ∧ (∀ e ∈ t.tlb, e.world ≠ w) ∧ (∀ x ∈ t.ilines, x.world ≠ w) ∧ (∀ e ∈ t.stage2, e.1 ≠ w) ∧
      (∀ e ∈ t.entries, e.world ≠ w) ∧ (∀ m ∈ t.seals, m.world ≠ w) ∧ (∀ p ∈ framesOf s w, p ∈ t.scrub) ∧
      ((∀ p ∈ t.scrub, (ownerOf t p).owner ≠ w) → t.box.busy = false ∧ t.box.code = 0 ∧ (t.worlds.getD w {}).keys = none) ∧
      ((∃ p ∈ t.scrub, (ownerOf t p).owner = w) → t.box.busy = true))

/-- The Plough zeroes the oldest page of its die's queue and gives it to the pool; its failure and its restart; ownership mode begins with a
test or the security core's end and ends when the second stage is built; GENINC raises a base generation (R70, R340, R357, R453, R458).
The second stage that is built: log entry 86; a restart is one that succeeds: 92; GENINC's world number alone counts: 93; a mailbox command
under way when the security core fails: 158. -/
def Obligations.SecurityEvents : Prop :=
  ∀ (die p : Nat) (v : BitVec 32) (s : State), die < 32 →
    (die ∉ s.ploughDown → s.scrub.find? (fun q => pageDie q == die) = some p → p ∉ s.retiredPages → s.mem.wf = true →
      ∃ t, exec (.ploughPageClean die) s = .next t ∧
        (∀ a, p * 65536 ≤ a → a < (p + 1) * 65536 → t.mem.get a = 0 ∧ t.mem.bad a = false) ∧
        (∀ a, a < p * 65536 ∨ (p + 1) * 65536 ≤ a → t.mem.get a = s.mem.get a ∧ t.mem.bad a = s.mem.bad a) ∧
        (ownerOf t p).clean = true ∧ (ownerOf t p).sealed = false ∧ (∀ q, q ∈ t.scrub ↔ q ∈ s.scrub ∧ q ≠ p) ∧ t.mem.wf = true) ∧
    (die ∉ s.ploughDown → ∃ t, exec (.ploughTimeout die) s = .next t ∧ t.ploughDown = die :: s.ploughDown ∧ t.mem = s.mem ∧
      t.warps = s.warps) ∧
    (∃ t, exec (.ploughRestart die) s = .next t ∧ die ∉ t.ploughDown ∧ { t with ploughDown := s.ploughDown } = s) ∧
    (exec .testStart s = .next { s with ownership := true, tlb := [], walks := [], ilines := s.ilines.filter (·.store) }) ∧
    (s.ownership = true → s.secUp = true → ∃ t, exec .secondStageBuilt s = .next t ∧ t.ownership = false ∧
      (∀ e ∈ t.stage2, (ownerOf s e.2.2).owner = e.1 ∧ (ownerOf s e.2.2).clean = false) ∧
      (∀ e ∈ s.stage2, (ownerOf s e.2.2).owner = e.1 → (ownerOf s e.2.2).clean = false → e ∈ t.stage2) ∧
      (∀ p, pageState t p = .sealed ↔ ∃ m ∈ s.sealTable, m.page = p) ∧ t.tlb = [] ∧
      { t with ownership := s.ownership, stage2 := s.stage2, pages := s.pages, tlb := s.tlb, walks := s.walks, ilines := s.ilines } = s) ∧
    ((fwOf s .securityCore).failed = false → exec (.securityCoreRestart true) s = .next { s with secUp := true }) ∧
    ((fwOf s .securityCore).failed = true → exec (.securityCoreRestart true) s = .next s) ∧
    (∃ t, exec (.securityCoreRestart false) s = .next t ∧ t.secUp = false ∧ t.ownership = true ∧ t.tlb = [] ∧
      (s.session.port = 3 → t.session.held = false) ∧ (s.session.port ≠ 3 → t.session = s.session) ∧
      (∀ x ∈ t.ilines, x.store = true) ∧
      (s.box.busy = true → s.box.own = none → s.box.started = false → t.box.busy = false ∧ t.box.code = 0x0A) ∧
      (s.box.started = true → t.box = s.box) ∧ (s.spdm.session = true → t.spdm.session = false ∧ t.spdm.resynch = true) ∧
      t.mem = s.mem ∧ t.worlds = s.worlds) ∧
    (s.worlds.length = 64 → ∃ t, exec (.geninc v) s = .next t ∧
      (∀ w, t.worlds.getD w {} = if w = v.toNat % 64 then { s.worlds.getD w {} with gen := (s.worlds.getD w {}).gen + 1 }
        else s.worlds.getD w {}) ∧ { t with worlds := s.worlds } = s)

/-! ## Registers and host accesses (spec/12, spec/13, spec/25) -/

/-- The host's registers: a virtual device's two words, its disabling and the loss of every virtual function, which ends every task of theirs, halts their
queues and leaves their worlds to be torn down; the words of the register space
that act as events of their own; what a virtual function reads; windows onto the group; accesses to device memory; the port of a package that is no
bridge (R281, R346, R350, R351, R435 to R437). -/
def Obligations.HostAccesses : Prop :=
  (∀ (v : Nat) (x : BitVec 32) (s : State), v < 64 → s.vdevs.length = 64 →
    let d := s.vdevs.getD v {}
    let q := (x.extractLsb' 8 16).toNat
    let w := (x.extractLsb' 24 6).toNat
    let quantum := max 140 q
    let on := x.getLsbD 31
    (∃ t, exec (.vdevRegWrite v true x) s = .next t ∧ { t with vdevs := s.vdevs } = s ∧
      t.vdevs.getD v {} = if x.extractLsb' 21 11 = 0 then d
        else { d with ncore := (x.extractLsb' 21 11).toNat, core0 := (x.extractLsb' 0 10).toNat }) ∧
    (q = 0 → exec (.vdevRegWrite v false x) s = .next s) ∧
    (q ≠ 0 → on = true → d.en = false → (s.worlds.getD w {}).en = false → exec (.vdevRegWrite v false x) s = .next s) ∧
    (q ≠ 0 → on = true → d.en = true ∨ (s.worlds.getD w {}).en = true → ∃ t, exec (.vdevRegWrite v false x) s = .next t ∧
      { t with vdevs := s.vdevs } = s ∧ (t.vdevs.getD v {}).en = true ∧ (t.vdevs.getD v {}).quantum = quantum ∧
      (t.vdevs.getD v {}).weight = (x.extractLsb' 0 8).toNat ∧ (t.vdevs.getD v {}).worldReg = w ∧
      (t.vdevs.getD v {}).world = if d.en then d.world else w) ∧
    (q ≠ 0 → on = false → ∃ t, exec (.vdevRegWrite v false x) s = .next t ∧ (t.vdevs.getD v {}).en = false ∧
      (t.vdevs.getD v {}).world = w ∧ { t with vdevs := s.vdevs, queues := s.queues } = s) ∧
    (d.en = true → ∃ t, exec (.vdevDisable v) s = .next t ∧ (t.vdevs.getD v {}).en = false ∧
      (∀ n, n < s.queues.length → (s.queues.getD n {}).en = true → (s.queues.getD n {}).vdev = v → (s.queues.getD n {}).status = 0 →
        (s.queues.getD n {}).waiting = .none → (t.queues.getD n {}).status = 0x05) ∧
      { t with vdevs := s.vdevs, queues := s.queues } = s) ∧
    ∃ t, exec .vfEnableClear s = .next t ∧ (∀ k, 0 < k → k < 64 → (t.vdevs.getD k {}).en = false) ∧
      (∀ i, i < 512 → (taskAt s i).vdev ≠ 0 → (taskAt t i).state = .free) ∧
      (∀ u ∈ t.teams, u.task < 512 → (taskAt s u.task).vdev ≠ 0 → (taskAt s u.task).state = .placing ∨ (taskAt s u.task).state = .running →
        ∃ c, (taskAt s u.task).body = .job c) ∧
      (∀ n, n < s.queues.length → (s.queues.getD n {}).en = true → (s.queues.getD n {}).vdev ≠ 0 → (s.queues.getD n {}).status = 0 →
        (t.queues.getD n {}).status = 0x05) ∧
      ∀ k w, 0 < k → k < 64 → w < 64 → (s.vdevs.getD k {}).en = true → (s.vdevs.getD k {}).world = w → (s.worlds.getD w {}).en = true →
        ¬ ((s.vdevs.getD 0 {}).en = true ∧ (s.vdevs.getD 0 {}).world = w) → w ∈ t.condemned) ∧
  (∀ (w : Nat) (s : State), s.box.own = none → s.box.busy = false → s.secUp = true → condemnedWorld s = some w →
    ∃ t, exec .teardown s = .next t ∧ (t.worlds.getD w {}).en = false ∧ w ∉ t.condemned ∧ (∀ e ∈ t.stage2, e.1 ≠ w) ∧ (∀ e ∈ t.tlb, e.world ≠ w) ∧
      ∀ p ∈ framesOf s w, p ∈ t.scrub) ∧
  (∀ (fn off : Nat) (x : BitVec 32) (a : HostAccess) (s : State), s.pod.bridge = false →
    exec (.registerWrite fn off x) s = .next s ∧ exec (.hostMemoryAccess a) s = .next s) ∧
  (∀ (n : Nat) (x : BitVec 32) (s : State), s.pod.bridge = true →
    let same := fun (fn off : Nat) (i : Instr) => ∃ t, exec (.registerWrite fn off x) s = .next t ∧ exec i s = .next t
    (n < 256 → same 0 (32 * n + 0x08) (.queueEnWrite n x) ∧ same 0 (32 * n + 0x0C) (.kick n x) ∧
      ∀ fn, fn ≠ 0 → (s.queues.getD n {}).vdev = fn → same fn (32 * n + 0x0C) (.kick n x)) ∧
    (n < 64 → same 0 (0x2000 + 8 * n) (.vdevRegWrite n false x) ∧ same 0 (0x2004 + 8 * n) (.vdevRegWrite n true x) ∧
      same 0 (0x5000 + 8 * n) (.aduKick n)) ∧
    same 0 0x2208 (.resume x) ∧ same 0 0x4008 (.geninc x) ∧ same 0 0x3418 (.faultLogEnable x) ∧ same 0 0x3400 (.sessionLockWrite 0 x) ∧
    ∀ fn, fn ≠ 0 → (∀ k, k < 256 → n ≠ 32 * k + 0x0C) → n ≠ 0x2000 → n % 4 = 0 → exec (.registerWrite fn n x) s = .next s) ∧
  (∀ (m off : Nat) (x : BitVec 32) (s : State), s.pod.bridge = true → m < 8 → off < 0x10000 →
    let k := s.pod.bridgeIdx + m
    let answer := fun (w : Word) => (.next { s with out := s.out ++ [.data 0 (toBytes 4 w.toNat)] } : Out)
    (isMember s k = true → k = s.pod.podIdx →
      exec (.hostWindowAccess m off true x) s = exec (.registerWrite 0 off x) s ∧ (∃ t, exec (.hostWindowAccess m off true x) s = .next t) ∧
      exec (.hostWindowAccess m off false x) s = answer (spaceWord s 0 off)) ∧
    (isMember s k = true → k ≠ s.pod.podIdx → ∀ b,
      exec (.hostWindowAccess m off b x) s = .next { s with out := s.out ++ [.forward m off b x] }) ∧
    (isMember s k = false → exec (.hostWindowAccess m off true x) s = .next s ∧ exec (.hostWindowAccess m off false x) s = answer 0)) ∧
  (∀ (m off : Nat) (x : BitVec 32) (s : State), s.pod.bridge = false → s.pod.valid = true → s.pod.bridgeIdx + m = s.pod.podIdx → m < 8 →
    off < 0x10000 → exec (.hostWindowAccess m off true x) s = .next (writeSpace s off x) ∧
      exec (.hostWindowAccess m off false x) s = .next { s with out := s.out ++ [.data 0 (toBytes 4 (spaceWord s 0 off).toNat)] }) ∧
  (∀ (fn n off : Nat) (s : State), n < 256 → off < 32 → off % 4 = 0 →
    let q := Claims.queueAt s n
    functionWord s 0 (32 * n + off) = q.word off ∧
    (fn ≠ 0 → functionWord s fn (32 * n + off) = if q.vdev = fn ∧ off ∈ [0x0C, 0x10, 0x14, 0x18] then q.word off else 0) ∧
    (fn ≠ 0 → functionWord s fn (0x2000 + 4 * off) = 0)) ∧
  ∀ (a : HostAccess) (s : State), s.pod.bridge = true →
    (mayReach s a.fn a.world = false → exec (.hostMemoryAccess a) s = .next { s with out := s.out ++ [.failed a.fn] }) ∧
    (mayReach s a.fn a.world = true →
      (∀ ps, bytePlaces s a.world a.addr (hostSpan a.op) (hostNeed a.op) = some ps → hostHeld s ps = true →
        exec (.hostMemoryAccess a) s = .next s) ∧
      (∀ n ps, a.op = .read n → bytePlaces s a.world a.addr n .read = some ps → hostHeld s ps = false →
        exec (.hostMemoryAccess a) s = .next { s with out := s.out ++ [.data a.fn (hostBytes s ps)] }) ∧
      (∀ bs ps, a.op = .write bs → bytePlaces s a.world a.addr bs.length .write = some ps → hostHeld s ps = false →
        exec (.hostMemoryAccess a) s = .next (hostStore s a ps bs) ∧
        ∀ b x, bs = [b] → ps = [x] → inBlock x = false → s.mem.wf = true →
          (hostStore s a ps bs).mem.get x = b ∧ ∀ y, y ≠ x → (hostStore s a ps bs).mem.get y = s.mem.get y) ∧
      ∀ op wide y z ps, a.op = .atomic op wide y z → bytePlaces s a.world a.addr (if wide then 8 else 4) .write = some ps → hostHeld s ps = false →
        a.addr % (if wide then 8 else 4) = 0 → (homeMem s (ps.headD 0)).readBad (ps.headD 0) (if wide then 8 else 4) = false →
        let m := 2 ^ (if wide then 64 else 32)
        let before := ofBytes (hostBytes s ps)
        let after := match op with
          | .fetchAdd => (before + y.toNat) % m
          | .swap => y.toNat % m
          | .compareSwap => if before = z.toNat % m then y.toNat % m else before % m
        ∃ t, exec (.hostMemoryAccess a) s = .next t ∧ t.out = s.out ++ [.data a.fn (hostBytes s ps)] ∧
          { t with out := s.out } = hostStore s a ps (toBytes (if wide then 8 else 4) after))

/-! ## Management, firmware, attestation (spec/13, spec/19, spec/25) -/

/-- The session is released, and nothing else has changed. -/
def Sys2Proof.Claims.Released (s t : State) : Prop :=
  t.session.held = false ∧ t.session.port = 0 ∧ t.session.tag = 0 ∧ { t with session := s.session } = s

/-- The session lock: taken when free, renewed and released by its holder, else RESULT of the port reads 1; of two requests in one clock the lower
port number has it (which writes share a clock with which: log entry 186); its ends; the lifetime records,
counted each second, committed, and read; READ_STATE for the holder alone (R361 to R364, R459).
A reset masks MSI-X vectors again: log entry 156. -/
def Sys2Proof.Claims.SessionCommands : Prop :=
  ∀ (port : Nat) (v : BitVec 32) (x : LifeSample) (s : State),
    let mine := s.session.held = true ∧ s.session.port = port
    let turned : State := { s with session := { s.session with result := s.session.result.set port 1 } }
    (port < 4 → v.getLsbD 31 = true → s.session.held = false ∨ s.session.port = port →
      ∃ t, exec (.sessionLockWrite port v) s = .next t ∧ t.session.held = true ∧ t.session.port = port ∧
        t.session.tag = v.extractLsb' 0 16 ∧ t.session.result = s.session.result.set port 0 ∧ { t with session := s.session } = s ∧
        (s.session.held = false → t.session.takenAt = s.clk)) ∧
    (port < 4 → v.getLsbD 31 = true → s.session.held = true → port < s.session.port → s.session.takenAt = s.clk →
      ∃ t, exec (.sessionLockWrite port v) s = .next t ∧ t.session.held = true ∧ t.session.port = port ∧
        t.session.tag = v.extractLsb' 0 16 ∧ t.session.result = (s.session.result.set s.session.port 1).set port 0 ∧
        { t with session := s.session } = s) ∧
    (port < 4 → v.getLsbD 31 = true → s.session.held = true → s.session.port < port ∨ (port < s.session.port ∧ s.session.takenAt ≠ s.clk) →
      exec (.sessionLockWrite port v) s = .next turned) ∧
    (port < 4 → v.getLsbD 31 = false → mine → ∃ t, exec (.sessionLockWrite port v) s = .next t ∧ Claims.Released s t) ∧
    (port < 4 → v.getLsbD 31 = false → ¬ mine → exec (.sessionLockWrite port v) s = .next turned) ∧
    (s.session.held = true → ∃ t, exec .sessionTimeout s = .next t ∧ Claims.Released s t) ∧
    (∃ t u, exec .functionLevelReset s = .next t ∧ exec .hotReset s = .next u ∧ u.session = t.session ∧
      (mine → port = 0 → Claims.Released s { t with msix := s.msix }) ∧ (s.session.port ≠ 0 → { t with msix := s.msix } = s) ∧
      ∀ fn v, (fn = 0 → (msixVec t fn v).masked = true) ∧ (fn ≠ 0 → msixVec t fn v = msixVec s fn v) ∧ (msixVec u fn v).masked = true) ∧
    (mine → port = 1 ∨ port = 2 → ∃ t, exec (.mctpEndpointLoss port) s = .next t ∧ Claims.Released s t) ∧
    (manages s = true → exec (.readLife port) s = .next { s with out := s.out ++ [.words port s.life.words] }) ∧
    (manages s = true → mine → ∀ i off,
      exec (.readState port (.taskSlot i)) s = .next { s with out := s.out ++ [.words port (taskAt s i).words] } ∧
      exec (.readState port (.register off)) s = .next { s with out := s.out ++ [.words port [(spaceWord s port off).toNat]] }) ∧
    (manages s = true → ¬ mine → ∀ i, exec (.readState port i) s =
      .next { s with out := s.out ++ [.result port 1], session := { s.session with result := s.session.result.set port 1 } }) ∧
    (s.life.power.length = 16 → s.life.heat.length = 16 → ∃ t, exec (.lifetimeAccumulate x) s = .next t ∧ { t with life := s.life } = s ∧
      t.life.seconds = s.life.seconds + 1 ∧
      (∀ i, t.life.power.getD i 0 = s.life.power.getD i 0 + if i = min 15 (x.watts / 400) then 1 else 0) ∧
      (∀ i, t.life.heat.getD i 0 = s.life.heat.getD i 0 + if i = min 15 ((x.degrees - 20).toNat / 8) then 1 else 0) ∧
      t.life.coldResets = s.life.coldResets ∧ t.life.corrected = s.life.corrected) ∧
    exec .lifetimeCommit s = .next { s with lifeSaved := s.life, sitesSaved := s.sites } ∧
    exec .orderlyShutdown s = .next { s with lifeSaved := s.life, sitesSaved := s.sites }

/-- Firmware: the holder stages an image that passes the checks; activation starts the moves of the staged units, and the front end stops; the
last unit's move switches the set in one step; a failure to start moves every unit back; a unit on neither image has failed
(R347, R349, R456, R457). -/
def Sys2Proof.Claims.FirmwareMoves : Prop :=
  (∀ (port : Nat) (i : FwImage) (s : State), manages s = true →
    (holdsSession s port = false → exec (.stageFw port i) s = .next { s with out := s.out ++ [.result port 1] } ∧
      exec (.activateFw port) s = .next { s with out := s.out ++ [.result port 1] }) ∧
    (stageCode s port i ≠ 0 → exec (.stageFw port i) s = .next { s with out := s.out ++ [.result port (stageCode s port i)] }) ∧
    (∀ u, stageCode s port i = 0 → i.target = some u → s.fw.any (fun x => x.1 == u) = true →
      ∃ t, exec (.stageFw port i) s = .next t ∧ (fwOf t u).staged = some (i.digest, i.svn) ∧ (fwOf t u).digest = (fwOf s u).digest ∧
        (∀ v, v ≠ u → fwOf t v = fwOf s v) ∧ t.out = s.out ++ [.result port 0] ∧ { t with fw := s.fw, out := s.out } = s) ∧
    (holdsSession s port = true → activationPending s = false → stagedUnits s ≠ [] → exec (.activateFw port) s =
      .next { s with activation := some { port := port, back := false, left := stagedUnits s }, fwStop := true })) ∧
  ∀ (u : FwUnit) (a : Activation) (s : State), s.activation = some a → u ∈ a.left → s.fw.any (fun x => x.1 == u) = true →
    let rest := a.left.filter fun x => x != u
    (a.back = false →
      (rest ≠ [] → ∃ t, exec (.fwUnitMove u .onNew) s = .next t ∧ t.activation = some { a with left := rest } ∧ (fwOf t u).moved = true ∧
        (∀ v, v ≠ u → fwOf t v = fwOf s v) ∧ t.out = s.out) ∧
      (rest = [] → ∃ t, exec (.fwUnitMove u .onNew) s = .next t ∧ t.activation = none ∧ t.fwStop = false ∧
        t.out = s.out ++ [.result a.port 0] ∧
        ∀ v d n, v = u ∨ (fwOf s v).moved = true → (fwOf s v).staged = some (d, n) →
          (fwOf t v).digest = d ∧ (fwOf t v).svn = n ∧ (fwOf t v).staged = none) ∧
      ∃ t, exec (.fwUnitMove u .failedNew) s = .next t ∧ { t with activation := s.activation } = s ∧
        ∃ b, t.activation = some b ∧ b.port = a.port ∧ b.back = true ∧ u ∈ b.left ∧ ∀ v, (fwOf s v).moved = true → v ∈ b.left) ∧
    (a.back = true → rest = [] → ∃ t, exec (.fwUnitMove u .backOnOld) s = .next t ∧ t.activation = none ∧ t.fwStop = false ∧
      (fwOf t u).moved = false ∧ (fwOf t u).digest = (fwOf s u).digest ∧ t.out = s.out ++ [.result a.port 7]) ∧
    ∃ t, exec (.fwUnitMove u .onNeither) s = .next t ∧ t.activation = none ∧ (fwOf t u).failed = true ∧
      t.out = s.out ++ [.result a.port 8] ∧ (u = .securityCore → t.secUp = false ∧ t.ownership = true ∧ (s.session.port = 3 → t.session.held = false) ∧
        exec (.securityCoreRestart true) t = .next t)

/-- The commands of the management ports complete.
The lock's reading after a release, READ_STATE without it and the order of two writes: log entry 125; the packing of the lifetime records and
their bins: 126; the order of the moves and the codes after a failed one: 130. -/
def Obligations.ManagementCommands : Prop := Claims.SessionCommands ∧ Claims.FirmwareMoves

/-- A request that the responder answers, as R458's checks find it. -/
structure Sys2Proof.Claims.Answers (r : SpdmReq) (s : State) : Prop where
  up : responds s = true
  settled' : s.spdm.resynch = false
  listed : r.supported = true
  parses : r.wellFormed = true
  version : r.version = 0x13
  session : r.secured = true → s.spdm.session = true ∨ s.spdm.keyed = true

/-- Each request of SPDM is answered where its order allows it, by its response code and payload; a signed response carries a nonce and a
signature after its body; the answer to a request inside a session is sealed with its keys; out of order it is an UnexpectedRequest, a message outside
R348 an UnsupportedRequest, and after the end of a session every first one a RequestResynch (R348, R458).
The codes are DMTF SPDM 1.3's (log entry 25). -/
def Obligations.SpdmResponses : Prop :=
  ∀ (r : SpdmReq) (s : State),
    let ten : List Instr := [.getVersion r, .getCapabilities r, .negotiateAlgorithms r, .getDigests r, .getCertificate r, .challenge r,
      .getMeasurements r, .keyExchange r, .finish r, .endSession r]
    let sends := fun (i : Instr) (p : Spdm) (code : Nat) (bs : List Byte) =>
      exec i s = .next { s with spdm := p, out := s.out ++ [.spdm code bs] }
    let signs := fun (i : Instr) (p : Spdm) (code : Nat) (body : List Byte) =>
      ∃ nonce sig, exec i s = .next { s with spdm := p, draws := s.draws + 2, out := s.out ++ [.spdm code (body ++ nonce ++ sig)] }
    (responds s = true → s.spdm.resynch = true → ∀ i ∈ ten, exec i s = .next { s with spdm := {}, out := s.out ++ [.spdmError 0x43] }) ∧
    (responds s = true → s.spdm.resynch = false → r.supported = false → ∀ i ∈ ten, exec i s = .next { s with out := s.out ++ [.spdmError 0x07] }) ∧
    (Claims.Answers r s → r.secured = false →
      sends (.getVersion r) { phase := .version } 0x04 [0x13] ∧
      (s.spdm.phase = .version → sends (.getCapabilities r) { s.spdm with phase := .capabilities } 0x61 Config.spdmCapabilities) ∧
      (s.spdm.phase = .capabilities → (∀ x ∈ spdmAlgs, x ∈ r.algs) →
        sends (.negotiateAlgorithms r) { s.spdm with phase := .algorithms, algs := spdmAlgs } 0x63 (Config.spdmAlgorithms [0, 1, 2, 3])) ∧
      (s.spdm.phase = .algorithms →
        sends (.getDigests r) s.spdm 0x01 (digestBytes (sha384 (chainOf s 0)) ++ digestBytes (sha384 (chainOf s 1))) ∧
        (r.slot ≤ 1 →
          sends (.getCertificate r) s.spdm 0x02 (((chainOf s r.slot).drop r.offset).take r.length) ∧
          signs (.challenge r) s.spdm 0x03 (digestBytes (sha384 (chainOf s r.slot))) ∧
          ∃ nonce sig, exec (.keyExchange r) s = .next { s with
            spdm := { s.spdm with keyed := true, secret := some (s.draws, r.payload) }, draws := s.draws + 3
            out := s.out ++ [.spdm 0x64 (Config.ecdheShare s.draws ++ nonce ++ sig)] }) ∧
        ∀ bs, measuredBytes s r.index = some bs → signs (.getMeasurements r) s.spdm 0x60 bs) ∧
      (s.spdm.phase ≠ .algorithms → ∀ i ∈ ten.drop 3 |>.take 5, exec i s = .next { s with out := s.out ++ [.spdmError 0x04] }) ∧
      (s.spdm.keyed = true → sends (.finish r) { s.spdm with keyed := false, session := true } 0x65 []) ∧
      (s.spdm.session = true → sends (.endSession r) { phase := .start, resynch := true } 0x6C [])) ∧
    (Claims.Answers r s → r.secured = true → ∀ k x, s.spdm.secret = some k → measuredBytes s r.index = some x → s.spdm.phase = .algorithms →
      ∃ (u : State) (bytes nonce sig : List Byte), exec (.getMeasurements r) s = .next { u with out := s.out ++ [.secured bytes] } ∧ u.spdm = s.spdm ∧
        bytes = Config.sessionSeal k.1 k.2 (0x60 :: (x ++ nonce ++ sig)))

/-! ## Resets, training, errors (spec/13, spec/20, spec/25) -/

/-- A cold reset leaves the reset state but for what outlasts it, with the pending list applied; a loss of power loses what was not committed;
dies and links that train, link k on die 2k, enter service until the deadline (R15, R20 to R22, R352, R365, R445, R447, R454).
Memory reads as zero then: log entry 7; which lifetime counts stay: 127; the tray's configuration: 128; what is too late, and FULL: 129. -/
def Obligations.Resets : Prop :=
  (∀ (s : State), ∃ t, exec .coldReset s = .next t ∧
    t.warps = [] ∧ t.teams = [] ∧ t.tasks = State.reset.tasks ∧ t.mem = {} ∧ t.queues = State.reset.queues ∧ t.vdevs = State.reset.vdevs ∧
    t.worlds = State.reset.worlds ∧ t.ownership = true ∧ t.fast = false ∧ t.pod = State.reset.pod ∧ t.session = {} ∧ t.now = 0 ∧ t.stage2 = [] ∧
    t.cfg = (s.retire ++ s.unlisted).foldl applyRetire s.cfg ∧ t.unlisted = [] ∧ (∀ r ∈ t.retire, r.action = 4 ∧ r.applied = true) ∧
    (∀ r ∈ s.retire ++ s.unlisted, r.action = 5 → r.unit ∈ t.diesOut) ∧ t.life = { s.life with coldResets := min 0xFFFFFFFF (s.life.coldResets + 1) } ∧
    t.retiredPages = s.retiredPages ∧ t.hostMem = s.hostMem ∧ t.out = s.out ∧
    (∀ u, (fwOf t u).failed = (s.fw.any (fun x => x.1 == u) && (imageBad (fwOf s u) || imageBad (fwOf s .securityCore)))) ∧
    t.secUp = !imageBad (fwOf s .securityCore)) ∧
  (∀ (c : Config) (core k : Nat), (look c.core core {}).present = true →
    (look (dropCore c core).core core {}).present = false ∧ (dropCore c core).cores = c.cores - 1 ∧
    (k ≠ core → look (dropCore c core).core k {} = look c.core k {})) ∧
  (∀ (s : State), ∃ t, exec .powerLoss s = .next t ∧ t.warps = [] ∧ t.mem = {} ∧ t.life = s.lifeSaved ∧ t.sites = s.sitesSaved ∧
    t.cfg = s.cfg ∧ t.retire = s.retire ∧ t.secUp = false ∧ ∀ n, readPacket t n = .idle) ∧
  (∀ (die : Nat) (s : State), die < 32 →
    (s.deadlinePast = true ∨ die ∈ s.diesOut → exec (.dieTrained die) s = .next s) ∧
    (s.deadlinePast = false → die ∉ s.diesOut → ∃ t, exec (.dieTrained die) s = .next t ∧ t.pod.dies = s.pod.dies ||| 1#32 <<< die ∧
      t.pod.valid = true ∧ (s.pod.valid = true → t.pod.route = s.pod.route ∧ t.pod.podIdx = s.pod.podIdx) ∧
      (s.pod.full = false → t.pod.full = true → t.pod.dies = 0xFFFFFFFF#32 ∧ t.fast = true) ∧
      { t with pod := s.pod, fast := s.fast } = s)) ∧
  (∀ (k far : Nat) (s : State), serves s (2 * k) = false → exec (.linkTrained k far) s = .next s) ∧
  (∀ (k far : Nat) (s : State), k < 16 → s.deadlinePast = false → s.pod.valid = true → serves s (2 * k) = true →
    ((s.pod.route.getD far 0).getLsbD k = false → exec (.linkTrained k far) s = .next s) ∧
    ((s.pod.route.getD far 0).getLsbD k = true → ∃ t, exec (.linkTrained k far) s = .next t ∧
      t.pod.linkUp = s.pod.linkUp ||| 1#16 <<< k ∧ t.pod.dies = s.pod.dies ∧ t.mem = s.mem ∧
      ((∀ b ∈ s.barriers, b.scope ≠ 5) → { t with pod := s.pod, fast := s.fast } = s))) ∧
  ∀ (s : State), s.deadlinePast = false → ∃ t, exec .trainingDeadline s = .next t ∧ t.deadlinePast = true ∧
    t.fast = (s.fast || s.pod.dies.getLsbD 0) ∧ t.pod.dies = s.pod.dies ∧ t.pod.valid = true ∧
    ∀ k, k < 16 → t.pod.linkUp.getLsbD k = (s.pod.linkUp.getLsbD k && serves s (2 * k))

/-- What Table REL.4 does about a lasting fault of a site; `page`: the machine page of an HBM row (R446). -/
def Sys2Proof.Claims.ActedOn (x : Site) (page : Nat) (t : State) : Prop :=
  let entry := fun (p : Retire → Prop) => ∃ e ∈ t.retire ++ t.unlisted, p e
  match x.structClass with
  | 0 => page ∈ t.retiredPages
  | 4 => entry fun e => e.unit = x.unit ∧ (e.action = 2 ∨ e.action = 1 ∧ e.lane = x.sub)
  | 5 | 6 | 7 | 8 => entry fun e => e.unit = x.unit ∧ (e.action = 2 ∨ e.action = 3 ∧ e.sclass = x.structClass ∧ e.detail = x.row)
  | 10 | 15 => entry fun e => e.unit = x.unit ∧ e.action = 2
  | 11 => (x.unit, x.sub) ∈ t.sparePorts ∨ (x.unit / 64, x.unit % 64) ∈ t.downPorts ∨ portJoined (x.unit / 64, x.unit % 64) = false
  | 12 => x.unit < 16 → t.pod.linkUp.getLsbD x.unit = false
  | 13 => (x.unit % 64 < 8 → ∀ k, k < 4 → entry fun e => e.unit = x.unit / 64 * 32 + x.unit % 64 * 4 + k ∧ e.action = 2) ∧
    (8 ≤ x.unit % 64 → x.unit % 64 < 28 → entry fun e => e.unit = x.unit / 64 ∧ e.action = 5)
  | 14 => True
  | _ => x ∈ t.retiredWays

/-- What an uncorrectable error does to its structure (Table REL.2), by class: to HBM words (of a write of part of a half-line, those that it does not
cover), to a slice's 64 bits, an L1 line, the warp that met it, the tile instruction that an array performs, or a Plough's page.
Which words of a slice are dirty is a free value (log entry 17); what an array's error strikes: log entry 124; the halt of a warp: log entry 38. -/
def Sys2Proof.Claims.Uncorrected (r : ErrorReport) (s t : State) : Prop :=
  let c := r.site.structClass
  let same := t.mem = s.mem ∧ t.warps = s.warps ∧ t.l1 = s.l1
  (c = 0 → (∀ a, t.mem.get a = s.mem.get a) ∧ t.warps = s.warps ∧ t.l1 = s.l1 ∧
    (r.write = false → ∀ a, t.mem.bad a = (s.mem.bad a || (wordsTouched r.addr r.len).contains (wordBase a))) ∧
    (r.write = true → ∀ a, t.mem.bad a = (s.mem.bad a || a / 64 == r.addr / 64 &&
      !(decide (r.addr ≤ wordBase a) && decide (wordBase a + 4 ≤ r.addr + r.len))))) ∧
  (c = 1 → (∀ a, t.mem.get a = s.mem.get a) ∧ t.warps = s.warps ∧ t.l1 = s.l1 ∧
    ∀ a, t.mem.bad a = (s.mem.bad a || a / 8 == r.addr / 8 && Config.sliceDirty (2 * s.tick + a / 4 % 2))) ∧
  (c ∈ [2, 8, 9, 11, 12, 13, 15] → same) ∧
  (c = 3 → t.mem = s.mem ∧ t.warps = s.warps ∧ ∀ x, l1Find s r.core r.addr = some x →
    (x.dirty = 0 → l1Find t r.core r.addr = none) ∧
    (x.dirty &&& byteMask (wordBase (r.addr % 128)) 4 ≠ 0 → ∃ y, l1Find t r.core r.addr = some y ∧ y.data.bad (r.addr % 128) = true)) ∧
  (∀ code, (c, code) ∈ [(4, 0x002), (5, 0x003), (6, 0x004), (10, 0x006)] →
    let i := warpAt s r.core r.slot
    let w := s.warps.getD i {}
    t.mem = s.mem ∧ t.l1 = s.l1 ∧ (i < s.warps.length → w.halted = false → w.ended = false →
      ∃ p, t.warps = s.warps.set i { w with pending := w.pending ++ [p] } ∧ p.cls = 5 ∧ p.code = code ∧ p.pois = true ∧ p.time = s.now ∧
        p.info = some (BitVec.ofNat 32 c))) ∧
  (c = 7 → same ∧ ∀ a ∈ s.arrays, a.core = r.core → (a.half = 2 ∨ a.half = r.half) → performing s a = true →
    { a with struck := a.struck ++ [{ latch := r.latch, row := if r.latch || a.half == 2 then r.site.row else r.site.row % 32 }] } ∈ t.arrays) ∧
  (c = 14 → r.addr / 65536 ∈ t.retiredPages ∧ r.addr / 65536 ∉ t.scrub)

/-- A detected error is counted at its site, once or, uncorrectable, three times, and a site with three counts in 24 hours is acted on; an
uncorrectable one does what its class says, and an I-cache line or TLB entry in error is dropped; a packet whose tag fails is sent again, three times, and then lost; links retrain, and come back or go
down (R443 to R446, R450, R451).
What an error of a bank, a column or a half-line strikes: log entry 124; whether a struck slice word is dirty: 17; the time and the PC of a class 5 fault: 38. -/
def Obligations.ErrorEvents : Prop :=
  (∀ (r : ErrorReport) (s : State), r.site.structClass < 16 → ∃ t, exec (.structureError r) s = .next t ∧
    let before := ((s.sites.find? fun y => y.site == r.site).map (·.times)).getD []
    let times := (List.replicate (if r.corrected then 1 else 3) (poweredTime s) ++ before).take 3
    (∃ y, t.sites.find? (fun y => y.site == r.site) = some y ∧ y.times = times) ∧
    (times.length = 3 → times.headD 0 - times.getD 2 0 ≤ 86400000000000 → Claims.ActedOn r.site (r.addr / 65536) t) ∧
    (r.corrected = true → t.mem = s.mem ∧ t.warps = s.warps ∧ t.l1 = s.l1) ∧
    (r.corrected = false → Claims.Uncorrected r s t) ∧
    (r.site.structClass = 8 → ∀ x ∈ t.ilines, ¬ (x.core = r.core ∧ x.base = iLineBase r.addr)) ∧
    (r.site.structClass = 9 → ∀ e ∈ t.tlb, ¬ (e.page = r.addr / 65536 ∧ e.unit = if e.quad then quadOf r.core else r.core))) ∧
  (∀ (p : PacketId) (s : State), inFlight s p = true →
    let n := ((s.resends.find? fun x => x.1 == p).map (·.2)).getD 0
    ∃ t, exec (.packetTagFailure p) s = .next t ∧ t.mem = s.mem ∧ t.warps = s.warps ∧
      (n < 3 → t.resends.find? (fun x => x.1 == p) = some (p, n + 1) ∧ t.lost = s.lost) ∧
      (3 ≤ n → t.resends.find? (fun x => x.1 == p) = none ∧ t.lost = p :: s.lost)) ∧
  ∀ (l : LinkId) (s : State),
    (l ∉ s.retraining → exec (.linkRetrain l) s = .next { s with retraining := l :: s.retraining }) ∧
    (l ∈ s.retraining → exec (.linkRetrain l) s = .next s ∧
      (∃ t, exec (.linkRetrainDone l true) s = .next t ∧ l ∉ t.retraining ∧ { t with retraining := s.retraining } = s) ∧
      ∃ t, exec (.linkRetrainDone l false) s = .next t ∧ l ∉ t.retraining ∧ (∀ k, l = .serac k → k < 16 → t.pod.linkUp.getLsbD k = false) ∧
        ∀ die port, l = .diePort die port → portJoined (die, port) = true → (die, port) ∈ t.downPorts)

/-! ## Placing, ending and moving work (spec/12, spec/06) -/

/-- The ends of tasks: a launch whose teams have all ended, no copy or job of theirs under way, leaves its slot free with its sequence number; a job
that runs is performed, in one step (log entry 56), and leaves it; of a fill of one word, the word at its place is the pattern (R242, R279). -/
def Sys2Proof.Claims.TaskEnds : Prop :=
  ∀ (slot : Nat) (s : State), slot < 512 → s.tasks.length = 512 →
    let k := taskAt s slot
    let freed := fun (t : State) => (taskAt t slot).state = .free ∧ (taskAt t slot).seq = k.seq
    (∀ l, k.body = .launch l → k.state = .running → k.ended = l.grid → (∀ t ∈ s.teams, t.task ≠ slot) → engineWork s slot = false →
      ∃ t, exec (.taskComplete slot) s = .next t ∧ freed t ∧ (∀ b ∈ t.barriers, b.task ≠ slot) ∧ t.mem = s.mem ∧ t.warps = s.warps) ∧
    (∀ l, k.body = .launch l → k.ended ≠ l.grid ∨ engineWork s slot = true → exec (.taskComplete slot) s = .next s) ∧
    ∀ c, k.body = .job c → k.state = .running →
      (∀ u, jobMoves slot c s (jobPieces c) s = .ok u → k.coldEntry = none →
        ∃ t, exec (.jobComplete slot) s = .next t ∧ freed t ∧ t.mem = u.mem ∧
          ∀ a, c.kind = 1 → c.len = 4 → jobSpot s k.world c.dst.toNat .write = .ok a → inBlock a = false → s.mem.wf = true → a % 4 = 0 →
            t.mem.lane a = clean (loWord c.src)) ∧
      ∀ u d va, jobMoves slot c s (jobPieces c) s = .error (u, d, va) → exec (.jobComplete slot) s = .next (failJob u slot d va)

/-- A team is placed on an eligible core of most free warp-registers, its warps at their start (R26, R292, R293); the others stay as they are
but for the places of their storage, which move where the needs are free in no one run (log entry 57). -/
def Sys2Proof.Claims.TeamStarts : Prop :=
  ∀ (slot index : Nat) (g f : Nat → Bool) (s t : State), (taskAt s slot).launch.redundant = false → (∀ u ∈ s.teams, u.id < s.nextId) →
    placeTeam s slot index g f false [] = some t →
    ∃ c x us, t.teams = us ++ [x] ∧ us.length = s.teams.length ∧ (runsFree s (taskAt s slot).launch c = true → us = s.teams) ∧
      (∀ i, ∃ r a b, us.getD i {} = { s.teams.getD i {} with regBase := r, scrBase := a, accBase := b }) ∧
      x.task = slot ∧ x.index = index ∧ x.core = c ∧ x.id = s.nextId ∧ g c = true ∧ f c = true ∧
      eligible s (taskAt s slot) c = true ∧
      (∀ d, d < 1024 → g d = true → f d = true → eligible s (taskAt s slot) d = true → freeRegs s d ≤ freeRegs s c) ∧
      t.warps.length = s.warps.length + (taskAt s slot).launch.warps ∧
      ∀ i, i < (taskAt s slot).launch.warps →
        let w := t.warps.getD (s.warps.length + i) {}
        w.team = x.id ∧ w.wid = i ∧ w.core = c ∧ w.flags = 0 ∧ w.cntLd = 0 ∧ w.link = [] ∧ w.dirty = 0 ∧
        (∀ r, r < 254 → regOf w r = zeroRow) ∧ w.frags.length = 1 ∧ (w.frags.headD {}).exec = BitVec.allOnes 32

/-- TEAM_PLACE lets the ready task whose turn it is leave the ready state, a job to run, a launch to be placed, and does what the die's distributor
finds to do; a quantum that nobody outbids begins anew; messages give their range to the receiver, or back to the sender, who held it meanwhile; a die with no room of
its own sends the upper half of a range to one that advertises some (R290, R296, R299, R440; what an advertisement names: log entry 155; what a
waiting team needs of a resident one: 189; delivery and confirmation in one step: 83; whose turn it is: 153). -/
def Sys2Proof.Claims.WorkMoves : Prop :=
  (∀ (die : Nat) (s : State),
    let b := beginTask s die
    (∀ t, distribute b die = some t → exec (.teamPlace die) s = .next t) ∧
    (distribute b die = none → exec (.teamPlace die) s = .next b) ∧
    (∀ i, turnTask s die = some i → i < s.tasks.length →
      (taskAt b i).state = (match (taskAt s i).body with
        | .job _ => .running
        | .launch _ => .placing)) ∧
    ∀ source, source < 32 → source ≠ die → (∀ d, d < 32 → d ≠ source → awaiting s d = [] ∧ rangedTasks s d = []) →
      exec (.dieAdvertise die) s = .next (sendWork s source die)) ∧
  (∀ (source target i : Nat) (r : TeamRange) (s : State), movableGroup s source target = none → i < s.tasks.length →
    movableRange s source target = some (i, r) → r.lo < r.hi →
    ∃ m, (sendWork s source target).messages = s.messages ++ [m] ∧ m.task = i ∧ m.source = source ∧ m.target = target ∧
      ∃ mid, m.range = some (mid, r.hi) ∧ r.hi - mid = (r.hi - r.lo + 1) / 2 ∧
        { r with lo := mid } ∈ (taskAt (sendWork s source target) i).ranges ∧
        sentRange (sendWork s source target) i { r with lo := mid } = true) ∧
  (∀ (team : Nat) (x : Team) (s : State), s.teams.find? (fun t => t.id == team && !t.ended) = some x → (s.teams.map (·.id)).Nodup →
    (x.launch s).travelling = false → (∀ u ∈ groupOf s x, savingTeam s u.id = false) →
    ((∀ u ∈ groupOf s x, outbid s u = false) → ∃ t, exec (.quantumExpiry team) s = .next t ∧
      t.teams = s.teams.map (fun u => if (groupOf s x).contains u then { u with since := s.now } else u) ∧ t.warps = s.warps ∧ t.mem = s.mem) ∧
    ((∀ u ∈ groupOf s x, mayPreempt s u = true) → (∃ u ∈ groupOf s x, outbid s u = true) →
      exec (.quantumExpiry team) s = .next (saveGroup ((groupOf s x).foldl (fun s u => blockTeam s u.id) s) (groupOf s x)))) ∧
  ∀ (id : Nat) (m : Message) (s : State), s.messages.find? (fun m => m.id == id) = some m → m.task < s.tasks.length →
    let given := fun (i : Instr) (die : Nat) => ∃ t, exec i s = .next t ∧ (∀ x ∈ t.messages, x.id ≠ id) ∧
      (∀ lo hi, m.range = some (lo, hi) → (∃ r ∈ (taskAt s m.task).ranges, r.lo = lo ∧ r.hi = hi) →
        { die := die, lo := lo, hi := hi } ∈ (taskAt t m.task).ranges ∧ (taskAt t m.task).ranges.length = (taskAt s m.task).ranges.length) ∧
      (m.range = none → ∀ x ∈ t.suspended, x.task = m.task → (∃ y ∈ x.teams, m.team = some y.team.id) → x.die = die)
    given (.migrationMessage id) m.target ∧ given (.migrationConfirmTimeout id) m.source

/-- Both copies at one point with equal signatures: copy 0's gated writes that the signatures cover are performed and both fragments go on where they
stand, copy 1's only after copy 0's access where copy 0 makes it for both (which of the team's warps are compared there, and how far: log
entry 42; which fragment a failure names: 74; an access made for both: 43); a difference, a lone halt
and a wait of 10 ms fail the pair (R44, R448). -/
def Sys2Proof.Claims.Comparisons : Prop :=
  ∀ (team w : Nat) (a b : Team) (f g : Frag) (s : State), copiesOf s team = some (a, b) →
    (∀ v, lonely s a b = some v → exec (.comparisonPoint team) s =
      .next (failPair s a b v ((anyFrag (warpIn s a.id v)).point.getD 0) 0x002 (anyFrag (warpIn s a.id v)))) ∧
    (lonely s a b = none → (teamOver s a.id && teamOver s b.id) = false → fullPair s a b = none → standing s a b = some (w, f, g) →
      (differing s a b [w] = none → (warpIn s a.id w).sig = (warpIn s b.id w).sig ∧
        (warpOfTeam s a.id w < s.warps.length → (∀ x ∈ a.gate, x.wid < (a.launch s).warps) →
          ∃ t, exec (.comparisonPoint team) s = .next t ∧
            t.mem = ((a.gate.filter fun x => decide (x.ord ≤ commonRecords s a b x.wid)).foldl (releaseWrite a b) s).mem ∧
            (∀ x ∈ (teamById t a.id).gate, x.wid < (a.launch s).warps → commonRecords s a b x.wid < x.ord) ∧
            (∀ r, regOf (warpIn t a.id w) r = regOf (warpIn s a.id w) r) ∧
            (a.id ≠ b.id → warpOfTeam s b.id w < s.warps.length →
              (warpIn t a.id w).frags = (onFrag (warpIn s a.id w) f.id fun y => { y with wait := .none, compared := true }).frags ∧
              (warpIn t b.id w).frags = if 4 ≤ f.point.getD 0 then (warpIn s b.id w).frags
                else (onFrag (warpIn s b.id w) g.id fun y => { y with wait := .none, compared := true }).frags))) ∧
      ∀ v, differing s a b [w] = some v → exec (.comparisonPoint team) s = .next (failPair s a b w (f.point.getD 0) 0x001 f)) ∧
    (comparable s a b = true → exec (.redundantWaitTimeout team) s = .next s) ∧
    ∀ v k, comparable s a b = false → alone s a b = some (v, k) → ∃ x, exec (.redundantWaitTimeout team) s =
      .next (failPair s a b v k 0x003 x)

/-- Work is placed, moved, compared and ended as its rules say. -/
def Obligations.WorkEvents : Prop := Claims.TaskEnds ∧ Claims.TeamStarts ∧ Claims.WorkMoves ∧ Claims.Comparisons

/-- A travelling launch: the next replica takes its core; the next team enters as a sled at the entry, all lanes active; a sled is steered to the replica
of least depth, accepted by a free queue entry or the ring, moved from the ring into the queue, and admitted as a warp with the
state it carries; a segment in overflow gains a replica; a lost sled ends its team, one that a ring cannot give too, and a control block out of bounds
ends the launch (R307, R312 to R317, R439).  A replica pinned at once, and its depth: log entry 81; the times of the watch and of a lost sled: 82; which
sled a ring has lost: 78; the order of arrival: 182; what sets a ring up: 183. -/
def Obligations.TravelEvents : Prop :=
  (∀ (task : Nat) (m : SegMap) (s : State), mapOf s task = some m → task < s.tasks.length → (taskAt s task).launch.travelling = true →
    (taskAt s task).state = .placing →
    let k := taskAt s task
    let pinned := fun (x : Nat × Nat) => (pinnedBy s task).any fun p => p.k == x.1 && p.j == x.2
    (∀ i j c, m.order.find? (fun x => !pinned x) = some (i, j) → pinCore s k = some c →
      ∃ t, exec (.replicaPin task) s = .next t ∧ t.pins = s.pins ++ [{ core := c, task := task, k := i, j := j, since := 0 }]) ∧
    (k.saved = false → k.nextTeam < k.launch.grid → (m.order.all pinned) = true →
      ∃ t y x, exec (.sledInject task) s = .next t ∧ t.sleds = s.sleds ++ [y] ∧ t.teams = s.teams ++ [x] ∧ y.start = true ∧
        y.exec = BitVec.allOnes 32 ∧ y.epoch = m.epoch ∧ y.task = task ∧ y.team = x.id ∧ x.index = k.nextTeam ∧
        (taskAt t task).nextTeam = k.nextTeam + 1 ∧ t.mem = s.mem ∧ t.warps = s.warps) ∧
    ∀ seg c, pinCore s k = some c → k.saving = false → k.saved = false → seg < m.nseg → 0 < m.thresh → m.thresh < overflowUse s task m seg →
      (m.entries.getD seg { base := 0, len := 0, nrep := 0, cores := [] }).nrep < 8 →
      ∃ t p, exec (.replicationWatch task seg) s = .next t ∧ t.pins = s.pins ++ [p] ∧ p.core = c ∧ p.k = seg ∧
        p.j = (m.entries.getD seg { base := 0, len := 0, nrep := 0, cores := [] }).nrep ∧ p.since = m.epoch.toNat + 1) ∧
  (∀ (id : Nat) (x : Sled) (p : Pin) (s : State), s.sleds.find? (fun y => y.id == id) = some x → pinOf s p.core = some p →
    (sledLost s id = false → x.dest = none → steerTo s x = some p →
      (∀ y ∈ s.sleds, y.task = x.task → y.seg = x.seg → y.dest = none → sledLost s y.id = false → x.id ≤ y.id) →
      ∃ t, exec (.sledSteer id) s = .next t ∧ t.sleds.find? (fun y => y.id == id) = some { x with dest := some p.core } ∧
        pinOf t p.core = some { p with depth := p.depth + 1 } ∧ { t with sleds := s.sleds, pins := s.pins, teams := s.teams } = s) ∧
    (∀ m h n, sledLost s id = false → x.dest = some p.core → mapOf s x.task = some m →
      ringState s p.core (taskAt s x.task).world (ringAt m p) = some (h, n) →
      (p.queue.length < 8 → n = 0 → ∃ t, exec (.sledAccept id) s = .next t ∧ pinOf t p.core = some { p with queue := p.queue ++ [x] } ∧
        (∀ y ∈ t.sleds, y.id ≠ id) ∧ t.mem = s.mem) ∧
      (8 ≤ p.queue.length ∨ 0 < n → ∀ u, ringPush s p.core (taskAt s x.task).world m (ringAt m p) x = some u →
        exec (.sledAccept id) s = .next (dropSled u id))) ∧
    (x.task < s.tasks.length → ∃ t r, exec (.sledTimeout id) s = .next t ∧ (∀ y ∈ t.sleds, y.id ≠ id) ∧ (taskAt t x.task).faulted = true ∧
      (taskAt t x.task).ended = (taskAt s x.task).ended + 1 ∧ r.cls = 7 ∧ r.code = 0x010 ∧ t.log = (logRecord s r).log)) ∧
  ∀ (core : Nat) (p : Pin) (s : State), pinOf s core = some p →
    (∀ m head count u x, mapOf s p.task = some m → ringState s core (taskAt s p.task).world (ringAt m p) = some (head, count) →
      p.queue.length < 8 → 0 < count → head < ringCap m → count ≤ ringCap m → ringPop s core p.task m (ringAt m p) head count = some (u, x) →
      ∃ t q, exec (.ringRefill core) s = .next t ∧ pinOf t core = some q ∧ q.queue = p.queue ++ [{ x with id := u.nextId, dest := some core }]) ∧
    (∀ m head count, mapOf s p.task = some m → ringState s core (taskAt s p.task).world (ringAt m p) = some (head, count) → p.queue.length < 8 →
      (ringCap m ≤ head ∨ ringCap m < count → exec (.ringRefill core) s = .next (terminateLaunch s p.task 0x012)) ∧
      (head < ringCap m → count = 0 → exec (.ringRefill core) s = .next s) ∧
      (head < ringCap m → 0 < count → count ≤ ringCap m → ringPop s core p.task m (ringAt m p) head count = none → ∀ t,
        ringTeam s p.task (fun va slot => va == ringAt m p && slot == head) = some t →
        ∃ u r, exec (.ringRefill core) s = .next u ∧ t.id ∉ u.teams.map (·.id) ∧ r.cls = 7 ∧ r.code = 0x011 ∧ u.log = (logRecord s r).log)) ∧
    ∀ x rest slot more, p.queue = x :: rest → (taskAt s p.task).saving = false → (taskAt s p.task).launch.regGranules ≤ freeRegs s core →
      freeSlots s core = slot :: more →
      ∃ t w, exec (.sledAdmit core) s = .next t ∧ t.warps = s.warps ++ [w] ∧ w.core = core ∧ w.slot = slot ∧ w.mode = x.mode ∧
        w.flags = x.flags ∧ w.frags = [{ pc := x.pc.extractLsb' 0 57, exec := x.exec, frag := x.exec }] ∧ w.link.take x.links.length = x.links ∧
        ((x.rows.map (·.1)).Nodup → ∀ y ∈ x.rows, y.1 < 256 → regOf w y.1 = y.2) ∧
        ∃ q, pinOf t core = some q ∧ q.queue = rest

/-! ## The machine -/

/-- What a step does: an event given from outside is carried out after time has passed; at an issue opportunity the core's chosen fragment, its words at
hand, runs the instruction that they decode to, the cursor on it and its wait over; where no warp departs, nothing but the time and
the caches' own doing comes before.
The order of inputs is the model's (log entries 1 and 2). -/
def Obligations.StepRuns : Prop :=
  ∀ (s : State),
    let b := beforeStep s
    ((∀ w ∈ s.warps, w.departing = false) → b = settleCaches (passTime s)) ∧
    (∀ i rest, b.inputs = .event i :: rest → step s = exec i { b with inputs := rest }) ∧
    (∀ core rest w f g x next i, b.inputs = .issue core :: rest →
      let r : State := { b with inputs := rest }
      let a := aged r core w.slot (some f.id)
      let n := warpAt r core w.slot
      let v := a.warps.getD n {}
      pickWarp r core = some w → pendingNow w = false → pickFrag r w = some f → fragById v f.id = some g →
      peek a v.core (launchOf a v).world g.pc.toNat = .words x next → decodePair x next = .ok i →
      step s = exec i (runAhead i (setFr (pointAt a n f.id x next) { fr (pointAt a n f.id x next) with wait := .none }))) ∧
    (∀ core i u, b.inputs = [] → b.tick % 2 = 1 ∨ nextInternal b = none → readyCore b = some core → turnOf b core = .run i u →
      step s = exec i (runAhead i u)) ∧
    (b.inputs = [] → readyCore b = none → nextInternal b = none → step s = .next b)

/-- Every step answers a next state: no state of the machine makes it stop.
It says that no instruction stops the model. -/
def Obligations.StepAlwaysRuns : Prop := ∀ (s : State), Runs s ∧ ∀ i, ∃ t, exec i s = .next t

/-- Memory keeps its canonical form through every step. -/
def Obligations.StepKeepsMemoryForm : Prop := KeptByStep fun s => s.mem.wf = true

/-- Right after reset: memory reads zero and is in canonical form, the package is in ownership mode with reduced clocks and no die in service, every queue
and virtual device is off, no world exists, every task slot is free, and nothing runs (R70, R340, R346, R365).
Memory that reads zero is log entry 7; tables empty or free where the spec gives no value are log entry 6. -/
def Obligations.ResetState : Prop :=
  let r := State.reset
  r.mem.wf = true ∧ (∀ a, r.mem.get a = 0 ∧ r.mem.bad a = false) ∧ r.ownership = true ∧ r.fast = false ∧ r.pod.dies = 0 ∧ r.pod.valid = false ∧
    (∀ n, (r.queues.getD n {}).en = false) ∧ (∀ n, (r.vdevs.getD n {}).en = false) ∧ (∀ n, (r.worlds.getD n {}).en = false) ∧
    (∀ n, (taskAt r n).state = .free) ∧ r.warps = [] ∧ r.teams = [] ∧ r.now = 0 ∧ r.session.held = false ∧ r.log.en = false ∧ r.dbgen = 0

/-! ## Encodings (spec/05) -/

/-- Decoding is the inverse of encoding: the bytes of every well-formed instruction that words encode, whatever follows them, decode to it. -/
def Obligations.DecodeEncode : Prop :=
  ∀ (i : Instr) (ws : List Word) (rest : List Byte), i.wellFormed = true → encode i = some ws →
    decodeBytes (ws.flatMap bytesOfWord ++ rest) = .ok (i, rest)

/-- A word, or a prefix and a word, that decodes gives a well-formed instruction whose encoding is that word or pair: every encoding has one
meaning, and no bit of it is ignored. -/
def Obligations.EncodeDecode : Prop :=
  ∀ (w : Word) (next : Option Word) (i : Instr), decodePair w next = .ok i →
    i.wellFormed = true ∧ encode i = some (if isPfxWord w then [w, next.getD 0] else [w])

/-- Words that the spec works from its tables decode to the instructions they stand for, one of each family (Tables ENC.14, ISAI.5, ISAF.5,
ISAM.6 and ISAE.8). -/
def Obligations.DecodeWords : Prop :=
  let plain : Pfx := { z := false, rv := false, rm := 0, g := 0, gv := false, gn := false, x5 := 0, c := 0 }
  decodePair 0x84040C02#32 none = .ok (.ldw none 4 12 2) ∧
  decodePair 0xF0000100#32 (some 0x84040C00#32) = .ok (.ldw (some { plain with x5 := 1 }) 4 12 0) ∧
  decodePair 0xF4800003#32 (some 0x53040102#32) = .ok (.ffma (some { plain with rv := true, rm := 1, c := 3 }) 4 1 2) ∧
  decodePair 0x03057FFD#32 none = .ok (.brc none 5 1 0x3FFD) ∧
  decodePair 0x4F07B001#32 none = .ok (.chka 7 1 12 1) ∧
  decodePair 0xA7080A4C#32 none = .ok (.acas none 8 10 2 3) ∧
  decodePair 0x99400A60#32 none = .ok (.lock 2 10 3) ∧
  decodePair 0xB4FFF03F#32 none = .ok (.waitc 63 63 0 63) ∧
  decodePair 0xD1142030#32 none = .ok (.tmma 20 32 1 1 0) ∧
  decodePair 0xE0080000#32 none = .ok (.clock 8) ∧
  decodePair 0x00000000#32 none = .error .opcode
end

