-- ==== Sys2Proof/Laws/Dispatch.lean ====
section
/-! SUPPORT. What `exec` does with each instruction: it is the instruction's own meaning. -/

namespace Sys2Proof.Machine

open Sys2Proof

@[simp] theorem exec_nop (s : State) :
    exec (.nop) s = execNop s := rfl
@[simp] theorem exec_br (p : Option Pfx) (h : BitVec 2) (x : BitVec 22) (s : State) :
    exec (.br p h x) s = execBr p h x s := rfl
@[simp] theorem exec_brc (p : Option Pfx) (c : BitVec 8) (h : BitVec 2) (x : BitVec 14) (s : State) :
    exec (.brc p c h x) s = execBrc p c h x s := rfl
@[simp] theorem exec_brz (p : Option Pfx) (c : BitVec 8) (h : BitVec 2) (x : BitVec 14) (s : State) :
    exec (.brz p c h x) s = execBrz p c h x s := rfl
@[simp] theorem exec_call (p : Option Pfx) (h : BitVec 2) (x : BitVec 22) (s : State) :
    exec (.call p h x) s = execCall p h x s := rfl
@[simp] theorem exec_calli (a : BitVec 8) (s : State) :
    exec (.calli a) s = execCalli a s := rfl
@[simp] theorem exec_ret (s : State) :
    exec (.ret) s = execRet s := rfl
@[simp] theorem exec_join (s : State) :
    exec (.join) s = execJoin s := rfl
@[simp] theorem exec_exitw (s : State) :
    exec (.exitw) s = execExitw s := rfl
@[simp] theorem exec_yield (s : State) :
    exec (.yield) s = execYield s := rfl
@[simp] theorem exec_sleep (n : BitVec 16) (s : State) :
    exec (.sleep n) s = execSleep n s := rfl
@[simp] theorem exec_trap (n : BitVec 16) (s : State) :
    exec (.trap n) s = execTrap n s := rfl
@[simp] theorem exec_brx (i1 : BitVec 8) (t : BitVec 14) (s : State) :
    exec (.brx i1 t) s = execBrx i1 t s := rfl
@[simp] theorem exec_setmode (p : BitVec 20) (s : State) :
    exec (.setmode p) s = execSetmode p s := rfl
@[simp] theorem exec_ipref (c : BitVec 8) (x : BitVec 14) (s : State) :
    exec (.ipref c x) s = execIpref c x s := rfl
@[simp] theorem exec_add (p : Option Pfx) (d : BitVec 8) (a : BitVec 8) (b : BitVec 8) (s : State) :
    exec (.add p d a b) s = execAdd p d a b s := rfl
@[simp] theorem exec_sub (p : Option Pfx) (d : BitVec 8) (a : BitVec 8) (b : BitVec 8) (s : State) :
    exec (.sub p d a b) s = execSub p d a b s := rfl
@[simp] theorem exec_mul (p : Option Pfx) (d : BitVec 8) (a : BitVec 8) (b : BitVec 8) (s : State) :
    exec (.mul p d a b) s = execMul p d a b s := rfl
@[simp] theorem exec_mulh (p : Option Pfx) (d : BitVec 8) (a : BitVec 8) (b : BitVec 8) (s : State) :
    exec (.mulh p d a b) s = execMulh p d a b s := rfl
@[simp] theorem exec_mad (p : Option Pfx) (d : BitVec 8) (a : BitVec 8) (b : BitVec 8) (s : State) :
    exec (.mad p d a b) s = execMad p d a b s := rfl
@[simp] theorem exec_iand (p : Option Pfx) (d : BitVec 8) (a : BitVec 8) (b : BitVec 8) (s : State) :
    exec (.iand p d a b) s = execIand p d a b s := rfl
@[simp] theorem exec_ior (p : Option Pfx) (d : BitVec 8) (a : BitVec 8) (b : BitVec 8) (s : State) :
    exec (.ior p d a b) s = execIor p d a b s := rfl
@[simp] theorem exec_ixor (p : Option Pfx) (d : BitVec 8) (a : BitVec 8) (b : BitVec 8) (s : State) :
    exec (.ixor p d a b) s = execIxor p d a b s := rfl
@[simp] theorem exec_shl (p : Option Pfx) (d : BitVec 8) (a : BitVec 8) (b : BitVec 8) (s : State) :
    exec (.shl p d a b) s = execShl p d a b s := rfl
@[simp] theorem exec_shr (p : Option Pfx) (d : BitVec 8) (a : BitVec 8) (b : BitVec 8) (s : State) :
    exec (.shr p d a b) s = execShr p d a b s := rfl
@[simp] theorem exec_sar (p : Option Pfx) (d : BitVec 8) (a : BitVec 8) (b : BitVec 8) (s : State) :
    exec (.sar p d a b) s = execSar p d a b s := rfl
@[simp] theorem exec_imin (p : Option Pfx) (d : BitVec 8) (a : BitVec 8) (b : BitVec 8) (s : State) :
    exec (.imin p d a b) s = execImin p d a b s := rfl
@[simp] theorem exec_imax (p : Option Pfx) (d : BitVec 8) (a : BitVec 8) (b : BitVec 8) (s : State) :
    exec (.imax p d a b) s = execImax p d a b s := rfl
@[simp] theorem exec_sel (p : Option Pfx) (d : BitVec 8) (a : BitVec 8) (b : BitVec 8) (s : State) :
    exec (.sel p d a b) s = execSel p d a b s := rfl
@[simp] theorem exec_iabs (p : Option Pfx) (d : BitVec 8) (a : BitVec 8) (s : State) :
    exec (.iabs p d a) s = execIabs p d a s := rfl
@[simp] theorem exec_ineg (p : Option Pfx) (d : BitVec 8) (a : BitVec 8) (s : State) :
    exec (.ineg p d a) s = execIneg p d a s := rfl
@[simp] theorem exec_cmpeq (p : Option Pfx) (d : BitVec 8) (a : BitVec 8) (b : BitVec 8) (s : State) :
    exec (.cmpeq p d a b) s = execCmpeq p d a b s := rfl
@[simp] theorem exec_cmpne (p : Option Pfx) (d : BitVec 8) (a : BitVec 8) (b : BitVec 8) (s : State) :
    exec (.cmpne p d a b) s = execCmpne p d a b s := rfl
@[simp] theorem exec_cmplt (p : Option Pfx) (d : BitVec 8) (a : BitVec 8) (b : BitVec 8) (s : State) :
    exec (.cmplt p d a b) s = execCmplt p d a b s := rfl
@[simp] theorem exec_cmple (p : Option Pfx) (d : BitVec 8) (a : BitVec 8) (b : BitVec 8) (s : State) :
    exec (.cmple p d a b) s = execCmple p d a b s := rfl
@[simp] theorem exec_clz (p : Option Pfx) (d : BitVec 8) (a : BitVec 8) (s : State) :
    exec (.clz p d a) s = execClz p d a s := rfl
@[simp] theorem exec_popc (p : Option Pfx) (d : BitVec 8) (a : BitVec 8) (s : State) :
    exec (.popc p d a) s = execPopc p d a s := rfl
@[simp] theorem exec_brev (p : Option Pfx) (d : BitVec 8) (a : BitVec 8) (s : State) :
    exec (.brev p d a) s = execBrev p d a s := rfl
@[simp] theorem exec_bfx (p : Option Pfx) (d : BitVec 8) (a : BitVec 8) (b : BitVec 8) (s : State) :
    exec (.bfx p d a b) s = execBfx p d a b s := rfl
@[simp] theorem exec_bfi (p : Option Pfx) (d : BitVec 8) (a : BitVec 8) (b : BitVec 8) (s : State) :
    exec (.bfi p d a b) s = execBfi p d a b s := rfl
@[simp] theorem exec_prmt (p : Option Pfx) (d : BitVec 8) (a : BitVec 8) (b : BitVec 8) (s : State) :
    exec (.prmt p d a b) s = execPrmt p d a b s := rfl
@[simp] theorem exec_dp4 (p : Option Pfx) (d : BitVec 8) (a : BitVec 8) (b : BitVec 8) (s : State) :
    exec (.dp4 p d a b) s = execDp4 p d a b s := rfl
@[simp] theorem exec_dp4s (p : Option Pfx) (d : BitVec 8) (a : BitVec 8) (b : BitVec 8) (s : State) :
    exec (.dp4s p d a b) s = execDp4s p d a b s := rfl
@[simp] theorem exec_dp2 (p : Option Pfx) (d : BitVec 8) (a : BitVec 8) (b : BitVec 8) (s : State) :
    exec (.dp2 p d a b) s = execDp2 p d a b s := rfl
@[simp] theorem exec_dp2s (p : Option Pfx) (d : BitVec 8) (a : BitVec 8) (b : BitVec 8) (s : State) :
    exec (.dp2s p d a b) s = execDp2s p d a b s := rfl
@[simp] theorem exec_mov (p : Option Pfx) (d : BitVec 8) (a : BitVec 8) (s : State) :
    exec (.mov p d a) s = execMov p d a s := rfl
@[simp] theorem exec_inot (p : Option Pfx) (d : BitVec 8) (a : BitVec 8) (s : State) :
    exec (.inot p d a) s = execInot p d a s := rfl
@[simp] theorem exec_addi (p : Option Pfx) (d : BitVec 8) (a : BitVec 8) (i1 : BitVec 8) (s : State) :
    exec (.addi p d a i1) s = execAddi p d a i1 s := rfl
@[simp] theorem exec_andi (p : Option Pfx) (d : BitVec 8) (a : BitVec 8) (i1 : BitVec 8) (s : State) :
    exec (.andi p d a i1) s = execAndi p d a i1 s := rfl
@[simp] theorem exec_ori (p : Option Pfx) (d : BitVec 8) (a : BitVec 8) (i1 : BitVec 8) (s : State) :
    exec (.ori p d a i1) s = execOri p d a i1 s := rfl
@[simp] theorem exec_xori (p : Option Pfx) (d : BitVec 8) (a : BitVec 8) (i1 : BitVec 8) (s : State) :
    exec (.xori p d a i1) s = execXori p d a i1 s := rfl
@[simp] theorem exec_shli (p : Option Pfx) (d : BitVec 8) (a : BitVec 8) (i1 : BitVec 5) (s : State) :
    exec (.shli p d a i1) s = execShli p d a i1 s := rfl
@[simp] theorem exec_shri (p : Option Pfx) (d : BitVec 8) (a : BitVec 8) (i1 : BitVec 5) (s : State) :
    exec (.shri p d a i1) s = execShri p d a i1 s := rfl
@[simp] theorem exec_sari (p : Option Pfx) (d : BitVec 8) (a : BitVec 8) (i1 : BitVec 5) (s : State) :
    exec (.sari p d a i1) s = execSari p d a i1 s := rfl
@[simp] theorem exec_muli (p : Option Pfx) (d : BitVec 8) (a : BitVec 8) (i1 : BitVec 8) (s : State) :
    exec (.muli p d a i1) s = execMuli p d a i1 s := rfl
@[simp] theorem exec_cmpeqi (p : Option Pfx) (d : BitVec 8) (a : BitVec 8) (i1 : BitVec 8) (s : State) :
    exec (.cmpeqi p d a i1) s = execCmpeqi p d a i1 s := rfl
@[simp] theorem exec_cmplti (p : Option Pfx) (d : BitVec 8) (a : BitVec 8) (i1 : BitVec 8) (s : State) :
    exec (.cmplti p d a i1) s = execCmplti p d a i1 s := rfl
@[simp] theorem exec_movi (p : Option Pfx) (d : BitVec 8) (i1 : BitVec 16) (s : State) :
    exec (.movi p d i1) s = execMovi p d i1 s := rfl
@[simp] theorem exec_movhi (p : Option Pfx) (d : BitVec 8) (i1 : BitVec 16) (s : State) :
    exec (.movhi p d i1) s = execMovhi p d i1 s := rfl
@[simp] theorem exec_movx (p : Option Pfx) (d : BitVec 8) (i1 : BitVec 8) (s : State) :
    exec (.movx p d i1) s = execMovx p d i1 s := rfl
@[simp] theorem exec_xmov (p : Option Pfx) (a : BitVec 8) (i1 : BitVec 8) (s : State) :
    exec (.xmov p a i1) s = execXmov p a i1 s := rfl
@[simp] theorem exec_movrd (p : Option Pfx) (d : BitVec 8) (i1 : BitVec 8) (s : State) :
    exec (.movrd p d i1) s = execMovrd p d i1 s := rfl
@[simp] theorem exec_movrw (p : Option Pfx) (s1 : BitVec 8) (i1 : BitVec 8) (s : State) :
    exec (.movrw p s1 i1) s = execMovrw p s1 i1 s := rfl
@[simp] theorem exec_add64 (p : Option Pfx) (d : BitVec 8) (a : BitVec 8) (b : BitVec 8) (s : State) :
    exec (.add64 p d a b) s = execAdd64 p d a b s := rfl
@[simp] theorem exec_add64w (p : Option Pfx) (d : BitVec 8) (a : BitVec 8) (b : BitVec 8) (s : State) :
    exec (.add64w p d a b) s = execAdd64w p d a b s := rfl
@[simp] theorem exec_sub64 (p : Option Pfx) (d : BitVec 8) (a : BitVec 8) (b : BitVec 8) (s : State) :
    exec (.sub64 p d a b) s = execSub64 p d a b s := rfl
@[simp] theorem exec_addi64 (p : Option Pfx) (d : BitVec 8) (a : BitVec 8) (i1 : BitVec 8) (s : State) :
    exec (.addi64 p d a i1) s = execAddi64 p d a i1 s := rfl
@[simp] theorem exec_lea4 (p : Option Pfx) (d : BitVec 8) (a : BitVec 8) (b : BitVec 8) (s : State) :
    exec (.lea4 p d a b) s = execLea4 p d a b s := rfl
@[simp] theorem exec_lea8 (p : Option Pfx) (d : BitVec 8) (a : BitVec 8) (b : BitVec 8) (s : State) :
    exec (.lea8 p d a b) s = execLea8 p d a b s := rfl
@[simp] theorem exec_lea16 (p : Option Pfx) (d : BitVec 8) (a : BitVec 8) (b : BitVec 8) (s : State) :
    exec (.lea16 p d a b) s = execLea16 p d a b s := rfl
@[simp] theorem exec_mov64 (p : Option Pfx) (d : BitVec 8) (a : BitVec 8) (s : State) :
    exec (.mov64 p d a) s = execMov64 p d a s := rfl
@[simp] theorem exec_wmul (p : Option Pfx) (d : BitVec 8) (a : BitVec 8) (b : BitVec 8) (s : State) :
    exec (.wmul p d a b) s = execWmul p d a b s := rfl
@[simp] theorem exec_wmad (p : Option Pfx) (d : BitVec 8) (a : BitVec 8) (b : BitVec 8) (s : State) :
    exec (.wmad p d a b) s = execWmad p d a b s := rfl
@[simp] theorem exec_shl64 (p : Option Pfx) (d : BitVec 8) (a : BitVec 8) (b : BitVec 8) (s : State) :
    exec (.shl64 p d a b) s = execShl64 p d a b s := rfl
@[simp] theorem exec_shr64 (p : Option Pfx) (d : BitVec 8) (a : BitVec 8) (b : BitVec 8) (s : State) :
    exec (.shr64 p d a b) s = execShr64 p d a b s := rfl
@[simp] theorem exec_cmplt64 (p : Option Pfx) (d : BitVec 8) (a : BitVec 8) (b : BitVec 8) (s : State) :
    exec (.cmplt64 p d a b) s = execCmplt64 p d a b s := rfl
@[simp] theorem exec_chkb (d : BitVec 8) (k : BitVec 4) (b : BitVec 6) (n : BitVec 6) (s : State) :
    exec (.chkb d k b n) s = execChkb d k b n s := rfl
@[simp] theorem exec_chkr (d : BitVec 8) (n : BitVec 16) (s : State) :
    exec (.chkr d n) s = execChkr d n s := rfl
@[simp] theorem exec_chka (d : BitVec 8) (s1 : BitVec 1) (e : BitVec 5) (m : BitVec 10) (s : State) :
    exec (.chka d s1 e m) s = execChka d s1 e m s := rfl
@[simp] theorem exec_fadd (p : Option Pfx) (d : BitVec 8) (a : BitVec 8) (b : BitVec 8) (s : State) :
    exec (.fadd p d a b) s = execFadd p d a b s := rfl
@[simp] theorem exec_fsub (p : Option Pfx) (d : BitVec 8) (a : BitVec 8) (b : BitVec 8) (s : State) :
    exec (.fsub p d a b) s = execFsub p d a b s := rfl
@[simp] theorem exec_fmul (p : Option Pfx) (d : BitVec 8) (a : BitVec 8) (b : BitVec 8) (s : State) :
    exec (.fmul p d a b) s = execFmul p d a b s := rfl
@[simp] theorem exec_ffma (p : Option Pfx) (d : BitVec 8) (a : BitVec 8) (b : BitVec 8) (s : State) :
    exec (.ffma p d a b) s = execFfma p d a b s := rfl
@[simp] theorem exec_fmin (p : Option Pfx) (d : BitVec 8) (a : BitVec 8) (b : BitVec 8) (s : State) :
    exec (.fmin p d a b) s = execFmin p d a b s := rfl
@[simp] theorem exec_fmax (p : Option Pfx) (d : BitVec 8) (a : BitVec 8) (b : BitVec 8) (s : State) :
    exec (.fmax p d a b) s = execFmax p d a b s := rfl
@[simp] theorem exec_fminn (p : Option Pfx) (d : BitVec 8) (a : BitVec 8) (b : BitVec 8) (s : State) :
    exec (.fminn p d a b) s = execFminn p d a b s := rfl
@[simp] theorem exec_fmaxn (p : Option Pfx) (d : BitVec 8) (a : BitVec 8) (b : BitVec 8) (s : State) :
    exec (.fmaxn p d a b) s = execFmaxn p d a b s := rfl
@[simp] theorem exec_fcmpeq (p : Option Pfx) (d : BitVec 8) (a : BitVec 8) (b : BitVec 8) (s : State) :
    exec (.fcmpeq p d a b) s = execFcmpeq p d a b s := rfl
@[simp] theorem exec_fcmplt (p : Option Pfx) (d : BitVec 8) (a : BitVec 8) (b : BitVec 8) (s : State) :
    exec (.fcmplt p d a b) s = execFcmplt p d a b s := rfl
@[simp] theorem exec_fcmple (p : Option Pfx) (d : BitVec 8) (a : BitVec 8) (b : BitVec 8) (s : State) :
    exec (.fcmple p d a b) s = execFcmple p d a b s := rfl
@[simp] theorem exec_fcmpun (p : Option Pfx) (d : BitVec 8) (a : BitVec 8) (b : BitVec 8) (s : State) :
    exec (.fcmpun p d a b) s = execFcmpun p d a b s := rfl
@[simp] theorem exec_fabs (p : Option Pfx) (d : BitVec 8) (a : BitVec 8) (s : State) :
    exec (.fabs p d a) s = execFabs p d a s := rfl
@[simp] theorem exec_fneg (p : Option Pfx) (d : BitVec 8) (a : BitVec 8) (s : State) :
    exec (.fneg p d a) s = execFneg p d a s := rfl
@[simp] theorem exec_fclass (p : Option Pfx) (d : BitVec 8) (a : BitVec 8) (s : State) :
    exec (.fclass p d a) s = execFclass p d a s := rfl
@[simp] theorem exec_fscale (p : Option Pfx) (d : BitVec 8) (a : BitVec 8) (b : BitVec 8) (s : State) :
    exec (.fscale p d a b) s = execFscale p d a b s := rfl
@[simp] theorem exec_frcp (p : Option Pfx) (d : BitVec 8) (a : BitVec 8) (s : State) :
    exec (.frcp p d a) s = execFrcp p d a s := rfl
@[simp] theorem exec_frsq (p : Option Pfx) (d : BitVec 8) (a : BitVec 8) (s : State) :
    exec (.frsq p d a) s = execFrsq p d a s := rfl
@[simp] theorem exec_fsqrt (p : Option Pfx) (d : BitVec 8) (a : BitVec 8) (s : State) :
    exec (.fsqrt p d a) s = execFsqrt p d a s := rfl
@[simp] theorem exec_fexp2 (p : Option Pfx) (d : BitVec 8) (a : BitVec 8) (s : State) :
    exec (.fexp2 p d a) s = execFexp2 p d a s := rfl
@[simp] theorem exec_flog2 (p : Option Pfx) (d : BitVec 8) (a : BitVec 8) (s : State) :
    exec (.flog2 p d a) s = execFlog2 p d a s := rfl
@[simp] theorem exec_fsin (p : Option Pfx) (d : BitVec 8) (a : BitVec 8) (s : State) :
    exec (.fsin p d a) s = execFsin p d a s := rfl
@[simp] theorem exec_fcos (p : Option Pfx) (d : BitVec 8) (a : BitVec 8) (s : State) :
    exec (.fcos p d a) s = execFcos p d a s := rfl
@[simp] theorem exec_ftanh (p : Option Pfx) (d : BitVec 8) (a : BitVec 8) (s : State) :
    exec (.ftanh p d a) s = execFtanh p d a s := rfl
@[simp] theorem exec_frnd (p : Option Pfx) (d : BitVec 8) (a : BitVec 8) (s : State) :
    exec (.frnd p d a) s = execFrnd p d a s := rfl
@[simp] theorem exec_fdot2 (p : Option Pfx) (d : BitVec 8) (a : BitVec 8) (b : BitVec 8) (s : State) :
    exec (.fdot2 p d a b) s = execFdot2 p d a b s := rfl
@[simp] theorem exec_cvtf (p : Option Pfx) (d : BitVec 8) (a : BitVec 8) (k : BitVec 3) (v : BitVec 2) (s : State) :
    exec (.cvtf p d a k v) s = execCvtf p d a k v s := rfl
@[simp] theorem exec_cvtfi (p : Option Pfx) (d : BitVec 8) (a : BitVec 8) (k : BitVec 3) (v : BitVec 2) (s : State) :
    exec (.cvtfi p d a k v) s = execCvtfi p d a k v s := rfl
@[simp] theorem exec_cvtif (p : Option Pfx) (d : BitVec 8) (a : BitVec 8) (k : BitVec 3) (v : BitVec 2) (s : State) :
    exec (.cvtif p d a k v) s = execCvtif p d a k v s := rfl
@[simp] theorem exec_cvtn (p : Option Pfx) (d : BitVec 8) (a : BitVec 8) (s1 : BitVec 3) (k : BitVec 3) (v : BitVec 2) (s : State) :
    exec (.cvtn p d a s1 k v) s = execCvtn p d a s1 k v s := rfl
@[simp] theorem exec_cvtw (p : Option Pfx) (d : BitVec 8) (a : BitVec 8) (s1 : BitVec 3) (k : BitVec 3) (v : BitVec 2) (s : State) :
    exec (.cvtw p d a s1 k v) s = execCvtw p d a s1 k v s := rfl
@[simp] theorem exec_shfl (p : Option Pfx) (d : BitVec 8) (a : BitVec 8) (b : BitVec 8) (s : State) :
    exec (.shfl p d a b) s = execShfl p d a b s := rfl
@[simp] theorem exec_shflup (p : Option Pfx) (d : BitVec 8) (a : BitVec 8) (b : BitVec 8) (s : State) :
    exec (.shflup p d a b) s = execShflup p d a b s := rfl
@[simp] theorem exec_shfldn (p : Option Pfx) (d : BitVec 8) (a : BitVec 8) (b : BitVec 8) (s : State) :
    exec (.shfldn p d a b) s = execShfldn p d a b s := rfl
@[simp] theorem exec_shflx (p : Option Pfx) (d : BitVec 8) (a : BitVec 8) (b : BitVec 8) (s : State) :
    exec (.shflx p d a b) s = execShflx p d a b s := rfl
@[simp] theorem exec_vall (p : Option Pfx) (d : BitVec 8) (a : BitVec 8) (s : State) :
    exec (.vall p d a) s = execVall p d a s := rfl
@[simp] theorem exec_vany (p : Option Pfx) (d : BitVec 8) (a : BitVec 8) (s : State) :
    exec (.vany p d a) s = execVany p d a s := rfl
@[simp] theorem exec_ballot (p : Option Pfx) (d : BitVec 8) (a : BitVec 8) (s : State) :
    exec (.ballot p d a) s = execBallot p d a s := rfl
@[simp] theorem exec_redadd (p : Option Pfx) (d : BitVec 8) (a : BitVec 8) (s : State) :
    exec (.redadd p d a) s = execRedadd p d a s := rfl
@[simp] theorem exec_redmin (p : Option Pfx) (d : BitVec 8) (a : BitVec 8) (s : State) :
    exec (.redmin p d a) s = execRedmin p d a s := rfl
@[simp] theorem exec_redmax (p : Option Pfx) (d : BitVec 8) (a : BitVec 8) (s : State) :
    exec (.redmax p d a) s = execRedmax p d a s := rfl
@[simp] theorem exec_redand (p : Option Pfx) (d : BitVec 8) (a : BitVec 8) (s : State) :
    exec (.redand p d a) s = execRedand p d a s := rfl
@[simp] theorem exec_redor (p : Option Pfx) (d : BitVec 8) (a : BitVec 8) (s : State) :
    exec (.redor p d a) s = execRedor p d a s := rfl
@[simp] theorem exec_scan (p : Option Pfx) (d : BitVec 8) (a : BitVec 8) (e : BitVec 1) (q : BitVec 2) (s : State) :
    exec (.scan p d a e q) s = execScan p d a e q s := rfl
@[simp] theorem exec_elect (p : Option Pfx) (d : BitVec 8) (s : State) :
    exec (.elect p d) s = execElect p d s := rfl
@[simp] theorem exec_matchv (p : Option Pfx) (d : BitVec 8) (a : BitVec 8) (s : State) :
    exec (.matchv p d a) s = execMatchv p d a s := rfl
@[simp] theorem exec_xchg (d : BitVec 8) (s1 : BitVec 8) (k : BitVec 4) (n : BitVec 4) (s : State) :
    exec (.xchg d s1 k n) s = execXchg d s1 k n s := rfl
@[simp] theorem exec_ldb (p : Option Pfx) (d : BitVec 8) (a : BitVec 8) (o : BitVec 8) (s : State) :
    exec (.ldb p d a o) s = execLdb p d a o s := rfl
@[simp] theorem exec_ldbs (p : Option Pfx) (d : BitVec 8) (a : BitVec 8) (o : BitVec 8) (s : State) :
    exec (.ldbs p d a o) s = execLdbs p d a o s := rfl
@[simp] theorem exec_ldh (p : Option Pfx) (d : BitVec 8) (a : BitVec 8) (o : BitVec 8) (s : State) :
    exec (.ldh p d a o) s = execLdh p d a o s := rfl
@[simp] theorem exec_ldhs (p : Option Pfx) (d : BitVec 8) (a : BitVec 8) (o : BitVec 8) (s : State) :
    exec (.ldhs p d a o) s = execLdhs p d a o s := rfl
@[simp] theorem exec_ldw (p : Option Pfx) (d : BitVec 8) (a : BitVec 8) (o : BitVec 8) (s : State) :
    exec (.ldw p d a o) s = execLdw p d a o s := rfl
@[simp] theorem exec_ldd (p : Option Pfx) (d : BitVec 8) (a : BitVec 8) (o : BitVec 8) (s : State) :
    exec (.ldd p d a o) s = execLdd p d a o s := rfl
@[simp] theorem exec_ldq (p : Option Pfx) (d : BitVec 8) (a : BitVec 8) (o : BitVec 8) (s : State) :
    exec (.ldq p d a o) s = execLdq p d a o s := rfl
@[simp] theorem exec_stb (p : Option Pfx) (d : BitVec 8) (a : BitVec 8) (o : BitVec 8) (s : State) :
    exec (.stb p d a o) s = execStb p d a o s := rfl
@[simp] theorem exec_sth (p : Option Pfx) (d : BitVec 8) (a : BitVec 8) (o : BitVec 8) (s : State) :
    exec (.sth p d a o) s = execSth p d a o s := rfl
@[simp] theorem exec_stw (p : Option Pfx) (d : BitVec 8) (a : BitVec 8) (o : BitVec 8) (s : State) :
    exec (.stw p d a o) s = execStw p d a o s := rfl
@[simp] theorem exec_std (p : Option Pfx) (d : BitVec 8) (a : BitVec 8) (o : BitVec 8) (s : State) :
    exec (.std p d a o) s = execStd p d a o s := rfl
@[simp] theorem exec_stq (p : Option Pfx) (d : BitVec 8) (a : BitVec 8) (o : BitVec 8) (s : State) :
    exec (.stq p d a o) s = execStq p d a o s := rfl
@[simp] theorem exec_ldwr (p : Option Pfx) (d : BitVec 8) (a : BitVec 8) (o : BitVec 8) (s : State) :
    exec (.ldwr p d a o) s = execLdwr p d a o s := rfl
@[simp] theorem exec_ldqr (p : Option Pfx) (d : BitVec 8) (a : BitVec 8) (o : BitVec 8) (s : State) :
    exec (.ldqr p d a o) s = execLdqr p d a o s := rfl
@[simp] theorem exec_stnt (p : Option Pfx) (d : BitVec 8) (a : BitVec 8) (o : BitVec 8) (s : State) :
    exec (.stnt p d a o) s = execStnt p d a o s := rfl
@[simp] theorem exec_prefL1 (p : Option Pfx) (a : BitVec 8) (o : BitVec 8) (s : State) :
    exec (.prefL1 p a o) s = execPrefL1 p a o s := rfl
@[simp] theorem exec_prefHome (p : Option Pfx) (a : BitVec 8) (o : BitVec 8) (s : State) :
    exec (.prefHome p a o) s = execPrefHome p a o s := rfl
@[simp] theorem exec_ldacq (p : Option Pfx) (d : BitVec 8) (a : BitVec 8) (s1 : BitVec 3) (q : BitVec 3) (s : State) :
    exec (.ldacq p d a s1 q) s = execLdacq p d a s1 q s := rfl
@[simp] theorem exec_strel (p : Option Pfx) (d : BitVec 8) (a : BitVec 8) (s1 : BitVec 3) (q : BitVec 3) (s : State) :
    exec (.strel p d a s1 q) s = execStrel p d a s1 q s := rfl
@[simp] theorem exec_fence (s1 : BitVec 3) (q : BitVec 3) (s : State) :
    exec (.fence s1 q) s = execFence s1 q s := rfl
@[simp] theorem exec_lds (p : Option Pfx) (d : BitVec 8) (a : BitVec 8) (o : BitVec 8) (s : State) :
    exec (.lds p d a o) s = execLds p d a o s := rfl
@[simp] theorem exec_sts (p : Option Pfx) (d : BitVec 8) (a : BitVec 8) (o : BitVec 8) (s : State) :
    exec (.sts p d a o) s = execSts p d a o s := rfl
@[simp] theorem exec_ldsq (p : Option Pfx) (d : BitVec 8) (a : BitVec 8) (o : BitVec 8) (s : State) :
    exec (.ldsq p d a o) s = execLdsq p d a o s := rfl
@[simp] theorem exec_stsq (p : Option Pfx) (d : BitVec 8) (a : BitVec 8) (o : BitVec 8) (s : State) :
    exec (.stsq p d a o) s = execStsq p d a o s := rfl
@[simp] theorem exec_ldm (d : BitVec 8) (a : BitVec 8) (n : BitVec 5) (s : State) :
    exec (.ldm d a n) s = execLdm d a n s := rfl
@[simp] theorem exec_stm (d : BitVec 8) (a : BitVec 8) (n : BitVec 5) (s : State) :
    exec (.stm d a n) s = execStm d a n s := rfl
@[simp] theorem exec_lock (t : BitVec 3) (a : BitVec 8) (s1 : BitVec 3) (s : State) :
    exec (.lock t a s1) s = execLock t a s1 s := rfl
@[simp] theorem exec_unlock (t : BitVec 3) (a : BitVec 8) (s1 : BitVec 3) (s : State) :
    exec (.unlock t a s1) s = execUnlock t a s1 s := rfl
@[simp] theorem exec_aadd (p : Option Pfx) (d : BitVec 8) (a : BitVec 8) (s1 : BitVec 3) (q : BitVec 3) (s : State) :
    exec (.aadd p d a s1 q) s = execAadd p d a s1 q s := rfl
@[simp] theorem exec_amin (p : Option Pfx) (d : BitVec 8) (a : BitVec 8) (s1 : BitVec 3) (q : BitVec 3) (s : State) :
    exec (.amin p d a s1 q) s = execAmin p d a s1 q s := rfl
@[simp] theorem exec_amax (p : Option Pfx) (d : BitVec 8) (a : BitVec 8) (s1 : BitVec 3) (q : BitVec 3) (s : State) :
    exec (.amax p d a s1 q) s = execAmax p d a s1 q s := rfl
@[simp] theorem exec_aand (p : Option Pfx) (d : BitVec 8) (a : BitVec 8) (s1 : BitVec 3) (q : BitVec 3) (s : State) :
    exec (.aand p d a s1 q) s = execAand p d a s1 q s := rfl
@[simp] theorem exec_aor (p : Option Pfx) (d : BitVec 8) (a : BitVec 8) (s1 : BitVec 3) (q : BitVec 3) (s : State) :
    exec (.aor p d a s1 q) s = execAor p d a s1 q s := rfl
@[simp] theorem exec_axor (p : Option Pfx) (d : BitVec 8) (a : BitVec 8) (s1 : BitVec 3) (q : BitVec 3) (s : State) :
    exec (.axor p d a s1 q) s = execAxor p d a s1 q s := rfl
@[simp] theorem exec_axchg (p : Option Pfx) (d : BitVec 8) (a : BitVec 8) (s1 : BitVec 3) (q : BitVec 3) (s : State) :
    exec (.axchg p d a s1 q) s = execAxchg p d a s1 q s := rfl
@[simp] theorem exec_acas (p : Option Pfx) (d : BitVec 8) (a : BitVec 8) (s1 : BitVec 3) (q : BitVec 3) (s : State) :
    exec (.acas p d a s1 q) s = execAcas p d a s1 q s := rfl
@[simp] theorem exec_ainc (p : Option Pfx) (d : BitVec 8) (a : BitVec 8) (s1 : BitVec 3) (q : BitVec 3) (s : State) :
    exec (.ainc p d a s1 q) s = execAinc p d a s1 q s := rfl
@[simp] theorem exec_afadd (p : Option Pfx) (d : BitVec 8) (a : BitVec 8) (s1 : BitVec 3) (q : BitVec 3) (s : State) :
    exec (.afadd p d a s1 q) s = execAfadd p d a s1 q s := rfl
@[simp] theorem exec_afadd2 (p : Option Pfx) (d : BitVec 8) (a : BitVec 8) (s1 : BitVec 3) (q : BitVec 3) (s : State) :
    exec (.afadd2 p d a s1 q) s = execAfadd2 p d a s1 q s := rfl
@[simp] theorem exec_aadd64 (p : Option Pfx) (d : BitVec 8) (a : BitVec 8) (s1 : BitVec 3) (q : BitVec 3) (s : State) :
    exec (.aadd64 p d a s1 q) s = execAadd64 p d a s1 q s := rfl
@[simp] theorem exec_acas64 (p : Option Pfx) (d : BitVec 8) (a : BitVec 8) (s1 : BitVec 3) (q : BitVec 3) (s : State) :
    exec (.acas64 p d a s1 q) s = execAcas64 p d a s1 q s := rfl
@[simp] theorem exec_sadd (p : Option Pfx) (d : BitVec 8) (a : BitVec 8) (s1 : BitVec 3) (q : BitVec 3) (s : State) :
    exec (.sadd p d a s1 q) s = execSadd p d a s1 q s := rfl
@[simp] theorem exec_scas (p : Option Pfx) (d : BitVec 8) (a : BitVec 8) (s1 : BitVec 3) (q : BitVec 3) (s : State) :
    exec (.scas p d a s1 q) s = execScas p d a s1 q s := rfl
@[simp] theorem exec_sxchg (p : Option Pfx) (d : BitVec 8) (a : BitVec 8) (s1 : BitVec 3) (q : BitVec 3) (s : State) :
    exec (.sxchg p d a s1 q) s = execSxchg p d a s1 q s := rfl
@[simp] theorem exec_bar (d : BitVec 8) (b : BitVec 8) (s1 : BitVec 3) (s : State) :
    exec (.bar d b s1) s = execBar d b s1 s := rfl
@[simp] theorem exec_bararv (b : BitVec 8) (s1 : BitVec 3) (s : State) :
    exec (.bararv b s1) s = execBararv b s1 s := rfl
@[simp] theorem exec_barwt (d : BitVec 8) (b : BitVec 8) (s1 : BitVec 3) (s : State) :
    exec (.barwt d b s1) s = execBarwt d b s1 s := rfl
@[simp] theorem exec_barexp (n : BitVec 8) (b : BitVec 8) (s1 : BitVec 3) (s : State) :
    exec (.barexp n b s1) s = execBarexp n b s1 s := rfl
@[simp] theorem exec_waitc (l : BitVec 6) (s1 : BitVec 6) (c : BitVec 6) (t : BitVec 6) (s : State) :
    exec (.waitc l s1 c t) s = execWaitc l s1 c t s := rfl
@[simp] theorem exec_waitr (a : BitVec 8) (s : State) :
    exec (.waitr a) s = execWaitr a s := rfl
@[simp] theorem exec_hwait (a : BitVec 8) (k : BitVec 1) (f : BitVec 1) (s : State) :
    exec (.hwait a k f) s = execHwait a k f s := rfl
@[simp] theorem exec_hsetFree (h : BitVec 8) (b : BitVec 8) (s1 : BitVec 6) (s : State) :
    exec (.hsetFree h b s1) s = execHsetFree h b s1 s := rfl
@[simp] theorem exec_hsetFull (h : BitVec 8) (b : BitVec 8) (s1 : BitVec 6) (s : State) :
    exec (.hsetFull h b s1) s = execHsetFull h b s1 s := rfl
@[simp] theorem exec_hsetRel (h : BitVec 8) (s : State) :
    exec (.hsetRel h) s = execHsetRel h s := rfl
@[simp] theorem exec_hsetFill (h : BitVec 8) (s : State) :
    exec (.hsetFill h) s = execHsetFill h s := rfl
@[simp] theorem exec_ringadvNew (d : BitVec 8) (a : BitVec 8) (c : BitVec 7) (s : State) :
    exec (.ringadvNew d a c) s = execRingadvNew d a c s := rfl
@[simp] theorem exec_ringadv (d : BitVec 8) (a : BitVec 8) (s : State) :
    exec (.ringadv d a) s = execRingadv d a s := rfl
@[simp] theorem exec_copy (d : BitVec 8) (a : BitVec 8) (b : BitVec 8) (s : State) :
    exec (.copy d a b) s = execCopy d a b s := rfl
@[simp] theorem exec_copym (d : BitVec 8) (a : BitVec 8) (b : BitVec 8) (s : State) :
    exec (.copym d a b) s = execCopym d a b s := rfl
@[simp] theorem exec_copys (d : BitVec 8) (a : BitVec 8) (b : BitVec 8) (s : State) :
    exec (.copys d a b) s = execCopys d a b s := rfl
@[simp] theorem exec_launch (d : BitVec 8) (a : BitVec 8) (s : State) :
    exec (.launch d a) s = execLaunch d a s := rfl
@[simp] theorem exec_job (d : BitVec 8) (a : BitVec 8) (s : State) :
    exec (.job d a) s = execJob d a s := rfl
@[simp] theorem exec_jobwt (a : BitVec 8) (s : State) :
    exec (.jobwt a) s = execJobwt a s := rfl
@[simp] theorem exec_tbld (s1 : BitVec 8) (b : BitVec 3) (k : BitVec 2) (p : BitVec 1) (w : BitVec 1) (s : State) :
    exec (.tbld s1 b k p w) s = execTbld s1 b k p w s := rfl
@[simp] theorem exec_tmma (c : BitVec 8) (a : BitVec 8) (s1 : BitVec 3) (r : BitVec 1) (z : BitVec 1) (s : State) :
    exec (.tmma c a s1 r z) s = execTmma c a s1 r z s := rfl
@[simp] theorem exec_tmmab (c : BitVec 8) (a : BitVec 8) (s1 : BitVec 3) (r : BitVec 1) (z : BitVec 1) (s : State) :
    exec (.tmmab c a s1 r z) s = execTmmab c a s1 r z s := rfl
@[simp] theorem exec_tmmap (c : BitVec 8) (a : BitVec 8) (s1 : BitVec 3) (r : BitVec 1) (z : BitVec 1) (s : State) :
    exec (.tmmap c a s1 r z) s = execTmmap c a s1 r z s := rfl
@[simp] theorem exec_taccz (c : BitVec 8) (n : BitVec 4) (p : BitVec 1) (s : State) :
    exec (.taccz c n p) s = execTaccz c n p s := rfl
@[simp] theorem exec_taccld (d : BitVec 8) (c : BitVec 8) (m : BitVec 4) (p : BitVec 1) (s : State) :
    exec (.taccld d c m p) s = execTaccld d c m p s := rfl
@[simp] theorem exec_taccst (s1 : BitVec 8) (c : BitVec 8) (k : BitVec 2) (p : BitVec 1) (s : State) :
    exec (.taccst s1 c k p) s = execTaccst s1 c k p s := rfl
@[simp] theorem exec_trel (s : State) :
    exec (.trel) s = execTrel s := rfl
@[simp] theorem exec_trelArray (s : State) :
    exec (.trelArray) s = execTrelArray s := rfl
@[simp] theorem exec_clock (d : BitVec 8) (s : State) :
    exec (.clock d) s = execClock d s := rfl
@[simp] theorem exec_perf (d : BitVec 8) (n : BitVec 8) (s : State) :
    exec (.perf d n) s = execPerf d n s := rfl
@[simp] theorem exec_eret (s : State) :
    exec (.eret) s = execEret s := rfl
@[simp] theorem exec_traprd (d : BitVec 8) (n : BitVec 4) (s : State) :
    exec (.traprd d n) s = execTraprd d n s := rfl
@[simp] theorem exec_segq (d : BitVec 8) (a : BitVec 8) (s : State) :
    exec (.segq d a) s = execSegq d a s := rfl
@[simp] theorem exec_bkpt (n : BitVec 16) (s : State) :
    exec (.bkpt n) s = execBkpt n s := rfl
@[simp] theorem exec_sleepExpiry (core : Nat) (slot : Nat) (fid : Nat) (s : State) :
    exec (.sleepExpiry core slot fid) s = execSleepExpiry core slot fid s := rfl
@[simp] theorem exec_warpEnd (core : Nat) (slot : Nat) (s : State) :
    exec (.warpEnd core slot) s = execWarpEnd core slot s := rfl
@[simp] theorem exec_loadReply (op : Nat) (s : State) :
    exec (.loadReply op) s = execLoadReply op s := rfl
@[simp] theorem exec_storePerformed (op : Nat) (s : State) :
    exec (.storePerformed op) s = execStorePerformed op s := rfl
@[simp] theorem exec_lockHandoverReply (core : Nat) (slot : Nat) (fid : Nat) (s : State) :
    exec (.lockHandoverReply core slot fid) s = execLockHandoverReply core slot fid s := rfl
@[simp] theorem exec_lockRetry (core : Nat) (slot : Nat) (fid : Nat) (s : State) :
    exec (.lockRetry core slot fid) s = execLockRetry core slot fid s := rfl
@[simp] theorem exec_lockWaiterWake (lockWord : Nat) (s : State) :
    exec (.lockWaiterWake lockWord) s = execLockWaiterWake lockWord s := rfl
@[simp] theorem exec_copyAccept (id : Nat) (s : State) :
    exec (.copyAccept id) s = execCopyAccept id s := rfl
@[simp] theorem exec_copyLinePerformed (id : Nat) (line : Nat) (s : State) :
    exec (.copyLinePerformed id line) s = execCopyLinePerformed id line s := rfl
@[simp] theorem exec_copyComplete (id : Nat) (s : State) :
    exec (.copyComplete id) s = execCopyComplete id s := rfl
@[simp] theorem exec_mergeEntryClose (entry : Nat) (s : State) :
    exec (.mergeEntryClose entry) s = execMergeEntryClose entry s := rfl
@[simp] theorem exec_xchgMatch (core : Nat) (slot : Nat) (partnerCore : Nat) (partnerSlot : Nat) (s : State) :
    exec (.xchgMatch core slot partnerCore partnerSlot) s = execXchgMatch core slot partnerCore partnerSlot s := rfl
@[simp] theorem exec_tbldLatch (core : Nat) (half : Nat) (s : State) :
    exec (.tbldLatch core half) s = execTbldLatch core half s := rfl
@[simp] theorem exec_tileRetire (core : Nat) (half : Nat) (s : State) :
    exec (.tileRetire core half) s = execTileRetire core half s := rfl
@[simp] theorem exec_tmmapFollowerTimeout (core : Nat) (s : State) :
    exec (.tmmapFollowerTimeout core) s = execTmmapFollowerTimeout core s := rfl
@[simp] theorem exec_jobComplete (task : Nat) (s : State) :
    exec (.jobComplete task) s = execJobComplete task s := rfl
@[simp] theorem exec_linkStackRefill (core : Nat) (slot : Nat) (s : State) :
    exec (.linkStackRefill core slot) s = execLinkStackRefill core slot s := rfl
@[simp] theorem exec_comparisonPoint (team : Nat) (s : State) :
    exec (.comparisonPoint team) s = execComparisonPoint team s := rfl
@[simp] theorem exec_redundantWaitTimeout (team : Nat) (s : State) :
    exec (.redundantWaitTimeout team) s = execRedundantWaitTimeout team s := rfl
@[simp] theorem exec_translationWalkComplete (quad : Nat) (world : Nat) (page : Nat) (s : State) :
    exec (.translationWalkComplete quad world page) s = execTranslationWalkComplete quad world page s := rfl
@[simp] theorem exec_remoteTimeout (op : Nat) (s : State) :
    exec (.remoteTimeout op) s = execRemoteTimeout op s := rfl
@[simp] theorem exec_demandFetch (core : Nat) (slot : Nat) (fid : Nat) (s : State) :
    exec (.demandFetch core slot fid) s = execDemandFetch core slot fid s := rfl
@[simp] theorem exec_fetchAhead (core : Nat) (world : Nat) (line : Nat) (s : State) :
    exec (.fetchAhead core world line) s = execFetchAhead core world line s := rfl
@[simp] theorem exec_trapEntry (core : Nat) (slot : Nat) (s : State) :
    exec (.trapEntry core slot) s = execTrapEntry core slot s := rfl
@[simp] theorem exec_impreciseFaultTake (core : Nat) (slot : Nat) (s : State) :
    exec (.impreciseFaultTake core slot) s = execImpreciseFaultTake core slot s := rfl
@[simp] theorem exec_faultLogAck (s : State) :
    exec (.faultLogAck) s = execFaultLogAck s := rfl
@[simp] theorem exec_quantumExpiry (team : Nat) (s : State) :
    exec (.quantumExpiry team) s = execQuantumExpiry team s := rfl
@[simp] theorem exec_teamPlace (die : Nat) (s : State) :
    exec (.teamPlace die) s = execTeamPlace die s := rfl
@[simp] theorem exec_dieAdvertise (die : Nat) (s : State) :
    exec (.dieAdvertise die) s = execDieAdvertise die s := rfl
@[simp] theorem exec_migrationMessage (id : Nat) (s : State) :
    exec (.migrationMessage id) s = execMigrationMessage id s := rfl
@[simp] theorem exec_migrationConfirmTimeout (id : Nat) (s : State) :
    exec (.migrationConfirmTimeout id) s = execMigrationConfirmTimeout id s := rfl
@[simp] theorem exec_taskComplete (task : Nat) (s : State) :
    exec (.taskComplete task) s = execTaskComplete task s := rfl
@[simp] theorem exec_kick (queue : Nat) (tail : BitVec 32) (s : State) :
    exec (.kick queue tail) s = execKick queue tail s := rfl
@[simp] theorem exec_queueEnWrite (queue : Nat) (value : BitVec 32) (s : State) :
    exec (.queueEnWrite queue value) s = execQueueEnWrite queue value s := rfl
@[simp] theorem exec_lapReread (queue : Nat) (s : State) :
    exec (.lapReread queue) s = execLapReread queue s := rfl
@[simp] theorem exec_queueLapTimeout (queue : Nat) (s : State) :
    exec (.queueLapTimeout queue) s = execQueueLapTimeout queue s := rfl
@[simp] theorem exec_packetNop (queue : Nat) (s : State) :
    exec (.packetNop queue) s = execPacketNop queue s := rfl
@[simp] theorem exec_packetLaunch (queue : Nat) (s : State) :
    exec (.packetLaunch queue) s = execPacketLaunch queue s := rfl
@[simp] theorem exec_packetJob (queue : Nat) (s : State) :
    exec (.packetJob queue) s = execPacketJob queue s := rfl
@[simp] theorem exec_packetFence (queue : Nat) (s : State) :
    exec (.packetFence queue) s = execPacketFence queue s := rfl
@[simp] theorem exec_packetSignal (queue : Nat) (s : State) :
    exec (.packetSignal queue) s = execPacketSignal queue s := rfl
@[simp] theorem exec_packetWaitev (queue : Nat) (s : State) :
    exec (.packetWaitev queue) s = execPacketWaitev queue s := rfl
@[simp] theorem exec_waitevReread (queue : Nat) (s : State) :
    exec (.waitevReread queue) s = execWaitevReread queue s := rfl
@[simp] theorem exec_msixUnmask (fn : Nat) (vector : Nat) (s : State) :
    exec (.msixUnmask fn vector) s = execMsixUnmask fn vector s := rfl
@[simp] theorem exec_aduKick (world : Nat) (s : State) :
    exec (.aduKick world) s = execAduKick world s := rfl
@[simp] theorem exec_aduSlotReread (world : Nat) (s : State) :
    exec (.aduSlotReread world) s = execAduSlotReread world s := rfl
@[simp] theorem exec_aduRequestConsume (world : Nat) (s : State) :
    exec (.aduRequestConsume world) s = execAduRequestConsume world s := rfl
@[simp] theorem exec_admissionComplete (world : Nat) (s : State) :
    exec (.admissionComplete world) s = execAdmissionComplete world s := rfl
@[simp] theorem exec_worldSet (s : State) :
    exec (.worldSet) s = execWorldSet s := rfl
@[simp] theorem exec_map2 (s : State) :
    exec (.map2) s = execMap2 s := rfl
@[simp] theorem exec_unmap2 (s : State) :
    exec (.unmap2) s = execUnmap2 s := rfl
@[simp] theorem exec_inval (s : State) :
    exec (.inval) s = execInval s := rfl
@[simp] theorem exec_teardown (s : State) :
    exec (.teardown) s = execTeardown s := rfl
@[simp] theorem exec_ploughPageClean (die : Nat) (s : State) :
    exec (.ploughPageClean die) s = execPloughPageClean die s := rfl
@[simp] theorem exec_ploughTimeout (die : Nat) (s : State) :
    exec (.ploughTimeout die) s = execPloughTimeout die s := rfl
@[simp] theorem exec_ploughRestart (die : Nat) (s : State) :
    exec (.ploughRestart die) s = execPloughRestart die s := rfl
@[simp] theorem exec_geninc (value : BitVec 32) (s : State) :
    exec (.geninc value) s = execGeninc value s := rfl
@[simp] theorem exec_vdevRegWrite (vdev : Nat) (high : Bool) (value : BitVec 32) (s : State) :
    exec (.vdevRegWrite vdev high value) s = execVdevRegWrite vdev high value s := rfl
@[simp] theorem exec_vdevDisable (vdev : Nat) (s : State) :
    exec (.vdevDisable vdev) s = execVdevDisable vdev s := rfl
@[simp] theorem exec_vfEnableClear (s : State) :
    exec (.vfEnableClear) s = execVfEnableClear s := rfl
@[simp] theorem exec_dbgenWrite (value : BitVec 64) (s : State) :
    exec (.dbgenWrite value) s = execDbgenWrite value s := rfl
@[simp] theorem exec_resume (value : BitVec 32) (s : State) :
    exec (.resume value) s = execResume value s := rfl
@[simp] theorem exec_faultLogEnable (value : BitVec 32) (s : State) :
    exec (.faultLogEnable value) s = execFaultLogEnable value s := rfl
@[simp] theorem exec_registerWrite (fn : Nat) (offset : Nat) (value : BitVec 32) (s : State) :
    exec (.registerWrite fn offset value) s = execRegisterWrite fn offset value s := rfl
@[simp] theorem exec_hostWindowAccess (member : Nat) (offset : Nat) (write : Bool) (value : BitVec 32) (s : State) :
    exec (.hostWindowAccess member offset write value) s = execHostWindowAccess member offset write value s := rfl
@[simp] theorem exec_sessionLockWrite (port : Nat) (value : BitVec 32) (s : State) :
    exec (.sessionLockWrite port value) s = execSessionLockWrite port value s := rfl
@[simp] theorem exec_sessionTimeout (s : State) :
    exec (.sessionTimeout) s = execSessionTimeout s := rfl
@[simp] theorem exec_readLife (port : Nat) (s : State) :
    exec (.readLife port) s = execReadLife port s := rfl
@[simp] theorem exec_readState (port : Nat) (target : ReadTarget) (s : State) :
    exec (.readState port target) s = execReadState port target s := rfl
@[simp] theorem exec_stageFw (port : Nat) (image : FwImage) (s : State) :
    exec (.stageFw port image) s = execStageFw port image s := rfl
@[simp] theorem exec_activateFw (port : Nat) (s : State) :
    exec (.activateFw port) s = execActivateFw port s := rfl
@[simp] theorem exec_fwUnitMove (unit : FwUnit) (result : FwMove) (s : State) :
    exec (.fwUnitMove unit result) s = execFwUnitMove unit result s := rfl
@[simp] theorem exec_lifetimeAccumulate (sample : LifeSample) (s : State) :
    exec (.lifetimeAccumulate sample) s = execLifetimeAccumulate sample s := rfl
@[simp] theorem exec_lifetimeCommit (s : State) :
    exec (.lifetimeCommit) s = execLifetimeCommit s := rfl
@[simp] theorem exec_orderlyShutdown (s : State) :
    exec (.orderlyShutdown) s = execOrderlyShutdown s := rfl
@[simp] theorem exec_getVersion (req : SpdmReq) (s : State) :
    exec (.getVersion req) s = execGetVersion req s := rfl
@[simp] theorem exec_getCapabilities (req : SpdmReq) (s : State) :
    exec (.getCapabilities req) s = execGetCapabilities req s := rfl
@[simp] theorem exec_negotiateAlgorithms (req : SpdmReq) (s : State) :
    exec (.negotiateAlgorithms req) s = execNegotiateAlgorithms req s := rfl
@[simp] theorem exec_getDigests (req : SpdmReq) (s : State) :
    exec (.getDigests req) s = execGetDigests req s := rfl
@[simp] theorem exec_getCertificate (req : SpdmReq) (s : State) :
    exec (.getCertificate req) s = execGetCertificate req s := rfl
@[simp] theorem exec_challenge (req : SpdmReq) (s : State) :
    exec (.challenge req) s = execChallenge req s := rfl
@[simp] theorem exec_getMeasurements (req : SpdmReq) (s : State) :
    exec (.getMeasurements req) s = execGetMeasurements req s := rfl
@[simp] theorem exec_keyExchange (req : SpdmReq) (s : State) :
    exec (.keyExchange req) s = execKeyExchange req s := rfl
@[simp] theorem exec_finish (req : SpdmReq) (s : State) :
    exec (.finish req) s = execFinish req s := rfl
@[simp] theorem exec_endSession (req : SpdmReq) (s : State) :
    exec (.endSession req) s = execEndSession req s := rfl
@[simp] theorem exec_coldReset (s : State) :
    exec (.coldReset) s = execColdReset s := rfl
@[simp] theorem exec_functionLevelReset (s : State) :
    exec (.functionLevelReset) s = execFunctionLevelReset s := rfl
@[simp] theorem exec_hotReset (s : State) :
    exec (.hotReset) s = execHotReset s := rfl
@[simp] theorem exec_mctpEndpointLoss (port : Nat) (s : State) :
    exec (.mctpEndpointLoss port) s = execMctpEndpointLoss port s := rfl
@[simp] theorem exec_securityCoreRestart (up : Bool) (s : State) :
    exec (.securityCoreRestart up) s = execSecurityCoreRestart up s := rfl
@[simp] theorem exec_dieTrained (die : Nat) (s : State) :
    exec (.dieTrained die) s = execDieTrained die s := rfl
@[simp] theorem exec_linkTrained (link : Nat) (farIndex : Nat) (s : State) :
    exec (.linkTrained link farIndex) s = execLinkTrained link farIndex s := rfl
@[simp] theorem exec_trainingDeadline (s : State) :
    exec (.trainingDeadline) s = execTrainingDeadline s := rfl
@[simp] theorem exec_structureError (report : ErrorReport) (s : State) :
    exec (.structureError report) s = execStructureError report s := rfl
@[simp] theorem exec_packetTagFailure (packet : PacketId) (s : State) :
    exec (.packetTagFailure packet) s = execPacketTagFailure packet s := rfl
@[simp] theorem exec_linkRetrain (link : LinkId) (s : State) :
    exec (.linkRetrain link) s = execLinkRetrain link s := rfl
@[simp] theorem exec_replicaPin (task : Nat) (s : State) :
    exec (.replicaPin task) s = execReplicaPin task s := rfl
@[simp] theorem exec_sledInject (task : Nat) (s : State) :
    exec (.sledInject task) s = execSledInject task s := rfl
@[simp] theorem exec_sledSteer (sled : Nat) (s : State) :
    exec (.sledSteer sled) s = execSledSteer sled s := rfl
@[simp] theorem exec_sledAccept (sled : Nat) (s : State) :
    exec (.sledAccept sled) s = execSledAccept sled s := rfl
@[simp] theorem exec_ringRefill (core : Nat) (s : State) :
    exec (.ringRefill core) s = execRingRefill core s := rfl
@[simp] theorem exec_sledAdmit (core : Nat) (s : State) :
    exec (.sledAdmit core) s = execSledAdmit core s := rfl
@[simp] theorem exec_replicationWatch (task : Nat) (segment : Nat) (s : State) :
    exec (.replicationWatch task segment) s = execReplicationWatch task segment s := rfl
@[simp] theorem exec_sledTimeout (sled : Nat) (s : State) :
    exec (.sledTimeout sled) s = execSledTimeout sled s := rfl
@[simp] theorem exec_hostMemoryAccess (access : HostAccess) (s : State) :
    exec (.hostMemoryAccess access) s = execHostMemoryAccess access s := rfl
@[simp] theorem exec_scoreboardRelease (core : Nat) (slot : Nat) (hold : Nat) (s : State) :
    exec (.scoreboardRelease core slot hold) s = execScoreboardRelease core slot hold s := rfl
@[simp] theorem exec_entryCacheFill (core : Nat) (slot : Nat) (s : State) :
    exec (.entryCacheFill core slot) s = execEntryCacheFill core slot s := rfl
@[simp] theorem exec_linkRetrainDone (link : LinkId) (ok : Bool) (s : State) :
    exec (.linkRetrainDone link ok) s = execLinkRetrainDone link ok s := rfl
@[simp] theorem exec_secondStageBuilt (s : State) :
    exec (.secondStageBuilt) s = execSecondStageBuilt s := rfl
@[simp] theorem exec_testStart (s : State) :
    exec (.testStart) s = execTestStart s := rfl
@[simp] theorem exec_powerLoss (s : State) :
    exec (.powerLoss) s = execPowerLoss s := rfl

end Sys2Proof.Machine
end

