-- ==== Sys2Proof/Laws/State.lean ====
section
/-! SUPPORT. One lemma per field per update of the state record and of the warp record, so that no proof unfolds a record
update. -/

namespace Sys2Proof.Machine

open Sys2Proof

/-! ## The issuing warp and fragment replaced -/

@[simp] theorem setWarp_inputs (s : State) (i : Nat) (w : Warp) : (setWarp s i w).inputs = s.inputs := rfl
@[simp] theorem setWarp_tick (s : State) (i : Nat) (w : Warp) : (setWarp s i w).tick = s.tick := rfl
@[simp] theorem setWarp_now (s : State) (i : Nat) (w : Warp) : (setWarp s i w).now = s.now := rfl
@[simp] theorem setWarp_clk (s : State) (i : Nat) (w : Warp) : (setWarp s i w).clk = s.clk := rfl
@[simp] theorem setWarp_fast (s : State) (i : Nat) (w : Warp) : (setWarp s i w).fast = s.fast := rfl
@[simp] theorem setWarp_cur (s : State) (i : Nat) (w : Warp) : (setWarp s i w).cur = s.cur := rfl
@[simp] theorem setWarp_lastCore (s : State) (i : Nat) (w : Warp) : (setWarp s i w).lastCore = s.lastCore := rfl
@[simp] theorem setWarp_lastSlot (s : State) (i : Nat) (w : Warp) : (setWarp s i w).lastSlot = s.lastSlot := rfl
@[simp] theorem setWarp_nextId (s : State) (i : Nat) (w : Warp) : (setWarp s i w).nextId = s.nextId := rfl
@[simp] theorem setWarp_cfg (s : State) (i : Nat) (w : Warp) : (setWarp s i w).cfg = s.cfg := rfl
@[simp] theorem setWarp_mem (s : State) (i : Nat) (w : Warp) : (setWarp s i w).mem = s.mem := rfl
@[simp] theorem setWarp_hostMem (s : State) (i : Nat) (w : Warp) : (setWarp s i w).hostMem = s.hostMem := rfl
@[simp] theorem setWarp_l1 (s : State) (i : Nat) (w : Warp) : (setWarp s i w).l1 = s.l1 := rfl
@[simp] theorem setWarp_wcb (s : State) (i : Nat) (w : Warp) : (setWarp s i w).wcb = s.wcb := rfl
@[simp] theorem setWarp_sharers (s : State) (i : Nat) (w : Warp) : (setWarp s i w).sharers = s.sharers := rfl
@[simp] theorem setWarp_gateways (s : State) (i : Nat) (w : Warp) : (setWarp s i w).gateways = s.gateways := rfl
@[simp] theorem setWarp_ilines (s : State) (i : Nat) (w : Warp) : (setWarp s i w).ilines = s.ilines := rfl
@[simp] theorem setWarp_tlb (s : State) (i : Nat) (w : Warp) : (setWarp s i w).tlb = s.tlb := rfl
@[simp] theorem setWarp_walks (s : State) (i : Nat) (w : Warp) : (setWarp s i w).walks = s.walks := rfl
@[simp] theorem setWarp_ops (s : State) (i : Nat) (w : Warp) : (setWarp s i w).ops = s.ops := rfl
@[simp] theorem setWarp_waiters (s : State) (i : Nat) (w : Warp) : (setWarp s i w).waiters = s.waiters := rfl
@[simp] theorem setWarp_teams (s : State) (i : Nat) (w : Warp) : (setWarp s i w).teams = s.teams := rfl
@[simp] theorem setWarp_tasks (s : State) (i : Nat) (w : Warp) : (setWarp s i w).tasks = s.tasks := rfl
@[simp] theorem setWarp_accepted (s : State) (i : Nat) (w : Warp) : (setWarp s i w).accepted = s.accepted := rfl
@[simp] theorem setWarp_barriers (s : State) (i : Nat) (w : Warp) : (setWarp s i w).barriers = s.barriers := rfl
@[simp] theorem setWarp_handles (s : State) (i : Nat) (w : Warp) : (setWarp s i w).handles = s.handles := rfl
@[simp] theorem setWarp_copies (s : State) (i : Nat) (w : Warp) : (setWarp s i w).copies = s.copies := rfl
@[simp] theorem setWarp_merges (s : State) (i : Nat) (w : Warp) : (setWarp s i w).merges = s.merges := rfl
@[simp] theorem setWarp_arrays (s : State) (i : Nat) (w : Warp) : (setWarp s i w).arrays = s.arrays := rfl
@[simp] theorem setWarp_suspended (s : State) (i : Nat) (w : Warp) : (setWarp s i w).suspended = s.suspended := rfl
@[simp] theorem setWarp_messages (s : State) (i : Nat) (w : Warp) : (setWarp s i w).messages = s.messages := rfl
@[simp] theorem setWarp_pages (s : State) (i : Nat) (w : Warp) : (setWarp s i w).pages = s.pages := rfl
@[simp] theorem setWarp_seals (s : State) (i : Nat) (w : Warp) : (setWarp s i w).seals = s.seals := rfl
@[simp] theorem setWarp_entries (s : State) (i : Nat) (w : Warp) : (setWarp s i w).entries = s.entries := rfl
@[simp] theorem setWarp_entryCache (s : State) (i : Nat) (w : Warp) : (setWarp s i w).entryCache = s.entryCache := rfl
@[simp] theorem setWarp_adu (s : State) (i : Nat) (w : Warp) : (setWarp s i w).adu = s.adu := rfl
@[simp] theorem setWarp_sealTable (s : State) (i : Nat) (w : Warp) : (setWarp s i w).sealTable = s.sealTable := rfl
@[simp] theorem setWarp_tenantSlots (s : State) (i : Nat) (w : Warp) : (setWarp s i w).tenantSlots = s.tenantSlots := rfl
@[simp] theorem setWarp_queues (s : State) (i : Nat) (w : Warp) : (setWarp s i w).queues = s.queues := rfl
@[simp] theorem setWarp_lastQueue (s : State) (i : Nat) (w : Warp) : (setWarp s i w).lastQueue = s.lastQueue := rfl
@[simp] theorem setWarp_vdevs (s : State) (i : Nat) (w : Warp) : (setWarp s i w).vdevs = s.vdevs := rfl
@[simp] theorem setWarp_msix (s : State) (i : Nat) (w : Warp) : (setWarp s i w).msix = s.msix := rfl
@[simp] theorem setWarp_out (s : State) (i : Nat) (w : Warp) : (setWarp s i w).out = s.out := rfl
@[simp] theorem setWarp_log (s : State) (i : Nat) (w : Warp) : (setWarp s i w).log = s.log := rfl
@[simp] theorem setWarp_dbgen (s : State) (i : Nat) (w : Warp) : (setWarp s i w).dbgen = s.dbgen := rfl
@[simp] theorem setWarp_stopLog (s : State) (i : Nat) (w : Warp) : (setWarp s i w).stopLog = s.stopLog := rfl
@[simp] theorem setWarp_pod (s : State) (i : Nat) (w : Warp) : (setWarp s i w).pod = s.pod := rfl
@[simp] theorem setWarp_tray (s : State) (i : Nat) (w : Warp) : (setWarp s i w).tray = s.tray := rfl
@[simp] theorem setWarp_downPorts (s : State) (i : Nat) (w : Warp) : (setWarp s i w).downPorts = s.downPorts := rfl
@[simp] theorem setWarp_retraining (s : State) (i : Nat) (w : Warp) : (setWarp s i w).retraining = s.retraining := rfl
@[simp] theorem setWarp_podBarriers (s : State) (i : Nat) (w : Warp) : (setWarp s i w).podBarriers = s.podBarriers := rfl
@[simp] theorem setWarp_worlds (s : State) (i : Nat) (w : Warp) : (setWarp s i w).worlds = s.worlds := rfl
@[simp] theorem setWarp_box (s : State) (i : Nat) (w : Warp) : (setWarp s i w).box = s.box := rfl
@[simp] theorem setWarp_ownership (s : State) (i : Nat) (w : Warp) : (setWarp s i w).ownership = s.ownership := rfl
@[simp] theorem setWarp_secUp (s : State) (i : Nat) (w : Warp) : (setWarp s i w).secUp = s.secUp := rfl
@[simp] theorem setWarp_stage2 (s : State) (i : Nat) (w : Warp) : (setWarp s i w).stage2 = s.stage2 := rfl
@[simp] theorem setWarp_owners (s : State) (i : Nat) (w : Warp) : (setWarp s i w).owners = s.owners := rfl
@[simp] theorem setWarp_scrub (s : State) (i : Nat) (w : Warp) : (setWarp s i w).scrub = s.scrub := rfl
@[simp] theorem setWarp_fresh (s : State) (i : Nat) (w : Warp) : (setWarp s i w).fresh = s.fresh := rfl
@[simp] theorem setWarp_condemned (s : State) (i : Nat) (w : Warp) : (setWarp s i w).condemned = s.condemned := rfl
@[simp] theorem setWarp_dying (s : State) (i : Nat) (w : Warp) : (setWarp s i w).dying = s.dying := rfl
@[simp] theorem setWarp_draws (s : State) (i : Nat) (w : Warp) : (setWarp s i w).draws = s.draws := rfl
@[simp] theorem setWarp_spdm (s : State) (i : Nat) (w : Warp) : (setWarp s i w).spdm = s.spdm := rfl
@[simp] theorem setWarp_fw (s : State) (i : Nat) (w : Warp) : (setWarp s i w).fw = s.fw := rfl
@[simp] theorem setWarp_activation (s : State) (i : Nat) (w : Warp) : (setWarp s i w).activation = s.activation := rfl
@[simp] theorem setWarp_fwStop (s : State) (i : Nat) (w : Warp) : (setWarp s i w).fwStop = s.fwStop := rfl
@[simp] theorem setWarp_session (s : State) (i : Nat) (w : Warp) : (setWarp s i w).session = s.session := rfl
@[simp] theorem setWarp_life (s : State) (i : Nat) (w : Warp) : (setWarp s i w).life = s.life := rfl
@[simp] theorem setWarp_lifeSaved (s : State) (i : Nat) (w : Warp) : (setWarp s i w).lifeSaved = s.lifeSaved := rfl
@[simp] theorem setWarp_sites (s : State) (i : Nat) (w : Warp) : (setWarp s i w).sites = s.sites := rfl
@[simp] theorem setWarp_sitesSaved (s : State) (i : Nat) (w : Warp) : (setWarp s i w).sitesSaved = s.sitesSaved := rfl
@[simp] theorem setWarp_retire (s : State) (i : Nat) (w : Warp) : (setWarp s i w).retire = s.retire := rfl
@[simp] theorem setWarp_unlisted (s : State) (i : Nat) (w : Warp) : (setWarp s i w).unlisted = s.unlisted := rfl
@[simp] theorem setWarp_pendSel (s : State) (i : Nat) (w : Warp) : (setWarp s i w).pendSel = s.pendSel := rfl
@[simp] theorem setWarp_retiredPages (s : State) (i : Nat) (w : Warp) : (setWarp s i w).retiredPages = s.retiredPages := rfl
@[simp] theorem setWarp_retiredWays (s : State) (i : Nat) (w : Warp) : (setWarp s i w).retiredWays = s.retiredWays := rfl
@[simp] theorem setWarp_sparePorts (s : State) (i : Nat) (w : Warp) : (setWarp s i w).sparePorts = s.sparePorts := rfl
@[simp] theorem setWarp_ploughDown (s : State) (i : Nat) (w : Warp) : (setWarp s i w).ploughDown = s.ploughDown := rfl
@[simp] theorem setWarp_spares (s : State) (i : Nat) (w : Warp) : (setWarp s i w).spares = s.spares := rfl
@[simp] theorem setWarp_diesOut (s : State) (i : Nat) (w : Warp) : (setWarp s i w).diesOut = s.diesOut := rfl
@[simp] theorem setWarp_poweredBase (s : State) (i : Nat) (w : Warp) : (setWarp s i w).poweredBase = s.poweredBase := rfl
@[simp] theorem setWarp_deadlinePast (s : State) (i : Nat) (w : Warp) : (setWarp s i w).deadlinePast = s.deadlinePast := rfl
@[simp] theorem setWarp_resends (s : State) (i : Nat) (w : Warp) : (setWarp s i w).resends = s.resends := rfl
@[simp] theorem setWarp_lost (s : State) (i : Nat) (w : Warp) : (setWarp s i w).lost = s.lost := rfl
@[simp] theorem setWarp_pins (s : State) (i : Nat) (w : Warp) : (setWarp s i w).pins = s.pins := rfl
@[simp] theorem setWarp_sleds (s : State) (i : Nat) (w : Warp) : (setWarp s i w).sleds = s.sleds := rfl
@[simp] theorem setWarp_warps (s : State) (i : Nat) (w : Warp) : (setWarp s i w).warps = s.warps.set i w := rfl
@[simp] theorem setMe_inputs (s : State) (w : Warp) : (setMe s w).inputs = s.inputs := rfl
@[simp] theorem setMe_tick (s : State) (w : Warp) : (setMe s w).tick = s.tick := rfl
@[simp] theorem setMe_now (s : State) (w : Warp) : (setMe s w).now = s.now := rfl
@[simp] theorem setMe_clk (s : State) (w : Warp) : (setMe s w).clk = s.clk := rfl
@[simp] theorem setMe_fast (s : State) (w : Warp) : (setMe s w).fast = s.fast := rfl
@[simp] theorem setMe_cur (s : State) (w : Warp) : (setMe s w).cur = s.cur := rfl
@[simp] theorem setMe_lastCore (s : State) (w : Warp) : (setMe s w).lastCore = s.lastCore := rfl
@[simp] theorem setMe_lastSlot (s : State) (w : Warp) : (setMe s w).lastSlot = s.lastSlot := rfl
@[simp] theorem setMe_nextId (s : State) (w : Warp) : (setMe s w).nextId = s.nextId := rfl
@[simp] theorem setMe_cfg (s : State) (w : Warp) : (setMe s w).cfg = s.cfg := rfl
@[simp] theorem setMe_mem (s : State) (w : Warp) : (setMe s w).mem = s.mem := rfl
@[simp] theorem setMe_hostMem (s : State) (w : Warp) : (setMe s w).hostMem = s.hostMem := rfl
@[simp] theorem setMe_l1 (s : State) (w : Warp) : (setMe s w).l1 = s.l1 := rfl
@[simp] theorem setMe_wcb (s : State) (w : Warp) : (setMe s w).wcb = s.wcb := rfl
@[simp] theorem setMe_sharers (s : State) (w : Warp) : (setMe s w).sharers = s.sharers := rfl
@[simp] theorem setMe_gateways (s : State) (w : Warp) : (setMe s w).gateways = s.gateways := rfl
@[simp] theorem setMe_ilines (s : State) (w : Warp) : (setMe s w).ilines = s.ilines := rfl
@[simp] theorem setMe_tlb (s : State) (w : Warp) : (setMe s w).tlb = s.tlb := rfl
@[simp] theorem setMe_walks (s : State) (w : Warp) : (setMe s w).walks = s.walks := rfl
@[simp] theorem setMe_ops (s : State) (w : Warp) : (setMe s w).ops = s.ops := rfl
@[simp] theorem setMe_waiters (s : State) (w : Warp) : (setMe s w).waiters = s.waiters := rfl
@[simp] theorem setMe_teams (s : State) (w : Warp) : (setMe s w).teams = s.teams := rfl
@[simp] theorem setMe_tasks (s : State) (w : Warp) : (setMe s w).tasks = s.tasks := rfl
@[simp] theorem setMe_accepted (s : State) (w : Warp) : (setMe s w).accepted = s.accepted := rfl
@[simp] theorem setMe_barriers (s : State) (w : Warp) : (setMe s w).barriers = s.barriers := rfl
@[simp] theorem setMe_handles (s : State) (w : Warp) : (setMe s w).handles = s.handles := rfl
@[simp] theorem setMe_copies (s : State) (w : Warp) : (setMe s w).copies = s.copies := rfl
@[simp] theorem setMe_merges (s : State) (w : Warp) : (setMe s w).merges = s.merges := rfl
@[simp] theorem setMe_arrays (s : State) (w : Warp) : (setMe s w).arrays = s.arrays := rfl
@[simp] theorem setMe_suspended (s : State) (w : Warp) : (setMe s w).suspended = s.suspended := rfl
@[simp] theorem setMe_messages (s : State) (w : Warp) : (setMe s w).messages = s.messages := rfl
@[simp] theorem setMe_pages (s : State) (w : Warp) : (setMe s w).pages = s.pages := rfl
@[simp] theorem setMe_seals (s : State) (w : Warp) : (setMe s w).seals = s.seals := rfl
@[simp] theorem setMe_entries (s : State) (w : Warp) : (setMe s w).entries = s.entries := rfl
@[simp] theorem setMe_entryCache (s : State) (w : Warp) : (setMe s w).entryCache = s.entryCache := rfl
@[simp] theorem setMe_adu (s : State) (w : Warp) : (setMe s w).adu = s.adu := rfl
@[simp] theorem setMe_sealTable (s : State) (w : Warp) : (setMe s w).sealTable = s.sealTable := rfl
@[simp] theorem setMe_tenantSlots (s : State) (w : Warp) : (setMe s w).tenantSlots = s.tenantSlots := rfl
@[simp] theorem setMe_queues (s : State) (w : Warp) : (setMe s w).queues = s.queues := rfl
@[simp] theorem setMe_lastQueue (s : State) (w : Warp) : (setMe s w).lastQueue = s.lastQueue := rfl
@[simp] theorem setMe_vdevs (s : State) (w : Warp) : (setMe s w).vdevs = s.vdevs := rfl
@[simp] theorem setMe_msix (s : State) (w : Warp) : (setMe s w).msix = s.msix := rfl
@[simp] theorem setMe_out (s : State) (w : Warp) : (setMe s w).out = s.out := rfl
@[simp] theorem setMe_log (s : State) (w : Warp) : (setMe s w).log = s.log := rfl
@[simp] theorem setMe_dbgen (s : State) (w : Warp) : (setMe s w).dbgen = s.dbgen := rfl
@[simp] theorem setMe_stopLog (s : State) (w : Warp) : (setMe s w).stopLog = s.stopLog := rfl
@[simp] theorem setMe_pod (s : State) (w : Warp) : (setMe s w).pod = s.pod := rfl
@[simp] theorem setMe_tray (s : State) (w : Warp) : (setMe s w).tray = s.tray := rfl
@[simp] theorem setMe_downPorts (s : State) (w : Warp) : (setMe s w).downPorts = s.downPorts := rfl
@[simp] theorem setMe_retraining (s : State) (w : Warp) : (setMe s w).retraining = s.retraining := rfl
@[simp] theorem setMe_podBarriers (s : State) (w : Warp) : (setMe s w).podBarriers = s.podBarriers := rfl
@[simp] theorem setMe_worlds (s : State) (w : Warp) : (setMe s w).worlds = s.worlds := rfl
@[simp] theorem setMe_box (s : State) (w : Warp) : (setMe s w).box = s.box := rfl
@[simp] theorem setMe_ownership (s : State) (w : Warp) : (setMe s w).ownership = s.ownership := rfl
@[simp] theorem setMe_secUp (s : State) (w : Warp) : (setMe s w).secUp = s.secUp := rfl
@[simp] theorem setMe_stage2 (s : State) (w : Warp) : (setMe s w).stage2 = s.stage2 := rfl
@[simp] theorem setMe_owners (s : State) (w : Warp) : (setMe s w).owners = s.owners := rfl
@[simp] theorem setMe_scrub (s : State) (w : Warp) : (setMe s w).scrub = s.scrub := rfl
@[simp] theorem setMe_fresh (s : State) (w : Warp) : (setMe s w).fresh = s.fresh := rfl
@[simp] theorem setMe_condemned (s : State) (w : Warp) : (setMe s w).condemned = s.condemned := rfl
@[simp] theorem setMe_dying (s : State) (w : Warp) : (setMe s w).dying = s.dying := rfl
@[simp] theorem setMe_draws (s : State) (w : Warp) : (setMe s w).draws = s.draws := rfl
@[simp] theorem setMe_spdm (s : State) (w : Warp) : (setMe s w).spdm = s.spdm := rfl
@[simp] theorem setMe_fw (s : State) (w : Warp) : (setMe s w).fw = s.fw := rfl
@[simp] theorem setMe_activation (s : State) (w : Warp) : (setMe s w).activation = s.activation := rfl
@[simp] theorem setMe_fwStop (s : State) (w : Warp) : (setMe s w).fwStop = s.fwStop := rfl
@[simp] theorem setMe_session (s : State) (w : Warp) : (setMe s w).session = s.session := rfl
@[simp] theorem setMe_life (s : State) (w : Warp) : (setMe s w).life = s.life := rfl
@[simp] theorem setMe_lifeSaved (s : State) (w : Warp) : (setMe s w).lifeSaved = s.lifeSaved := rfl
@[simp] theorem setMe_sites (s : State) (w : Warp) : (setMe s w).sites = s.sites := rfl
@[simp] theorem setMe_sitesSaved (s : State) (w : Warp) : (setMe s w).sitesSaved = s.sitesSaved := rfl
@[simp] theorem setMe_retire (s : State) (w : Warp) : (setMe s w).retire = s.retire := rfl
@[simp] theorem setMe_unlisted (s : State) (w : Warp) : (setMe s w).unlisted = s.unlisted := rfl
@[simp] theorem setMe_pendSel (s : State) (w : Warp) : (setMe s w).pendSel = s.pendSel := rfl
@[simp] theorem setMe_retiredPages (s : State) (w : Warp) : (setMe s w).retiredPages = s.retiredPages := rfl
@[simp] theorem setMe_retiredWays (s : State) (w : Warp) : (setMe s w).retiredWays = s.retiredWays := rfl
@[simp] theorem setMe_sparePorts (s : State) (w : Warp) : (setMe s w).sparePorts = s.sparePorts := rfl
@[simp] theorem setMe_ploughDown (s : State) (w : Warp) : (setMe s w).ploughDown = s.ploughDown := rfl
@[simp] theorem setMe_spares (s : State) (w : Warp) : (setMe s w).spares = s.spares := rfl
@[simp] theorem setMe_diesOut (s : State) (w : Warp) : (setMe s w).diesOut = s.diesOut := rfl
@[simp] theorem setMe_poweredBase (s : State) (w : Warp) : (setMe s w).poweredBase = s.poweredBase := rfl
@[simp] theorem setMe_deadlinePast (s : State) (w : Warp) : (setMe s w).deadlinePast = s.deadlinePast := rfl
@[simp] theorem setMe_resends (s : State) (w : Warp) : (setMe s w).resends = s.resends := rfl
@[simp] theorem setMe_lost (s : State) (w : Warp) : (setMe s w).lost = s.lost := rfl
@[simp] theorem setMe_pins (s : State) (w : Warp) : (setMe s w).pins = s.pins := rfl
@[simp] theorem setMe_sleds (s : State) (w : Warp) : (setMe s w).sleds = s.sleds := rfl
@[simp] theorem setMe_warps (s : State) (w : Warp) : (setMe s w).warps = s.warps.set s.cur.warp w := rfl
@[simp] theorem setFr_inputs (s : State) (f : Frag) : (setFr s f).inputs = s.inputs := rfl
@[simp] theorem setFr_tick (s : State) (f : Frag) : (setFr s f).tick = s.tick := rfl
@[simp] theorem setFr_now (s : State) (f : Frag) : (setFr s f).now = s.now := rfl
@[simp] theorem setFr_clk (s : State) (f : Frag) : (setFr s f).clk = s.clk := rfl
@[simp] theorem setFr_fast (s : State) (f : Frag) : (setFr s f).fast = s.fast := rfl
@[simp] theorem setFr_cur (s : State) (f : Frag) : (setFr s f).cur = s.cur := rfl
@[simp] theorem setFr_lastCore (s : State) (f : Frag) : (setFr s f).lastCore = s.lastCore := rfl
@[simp] theorem setFr_lastSlot (s : State) (f : Frag) : (setFr s f).lastSlot = s.lastSlot := rfl
@[simp] theorem setFr_nextId (s : State) (f : Frag) : (setFr s f).nextId = s.nextId := rfl
@[simp] theorem setFr_cfg (s : State) (f : Frag) : (setFr s f).cfg = s.cfg := rfl
@[simp] theorem setFr_mem (s : State) (f : Frag) : (setFr s f).mem = s.mem := rfl
@[simp] theorem setFr_hostMem (s : State) (f : Frag) : (setFr s f).hostMem = s.hostMem := rfl
@[simp] theorem setFr_l1 (s : State) (f : Frag) : (setFr s f).l1 = s.l1 := rfl
@[simp] theorem setFr_wcb (s : State) (f : Frag) : (setFr s f).wcb = s.wcb := rfl
@[simp] theorem setFr_sharers (s : State) (f : Frag) : (setFr s f).sharers = s.sharers := rfl
@[simp] theorem setFr_gateways (s : State) (f : Frag) : (setFr s f).gateways = s.gateways := rfl
@[simp] theorem setFr_ilines (s : State) (f : Frag) : (setFr s f).ilines = s.ilines := rfl
@[simp] theorem setFr_tlb (s : State) (f : Frag) : (setFr s f).tlb = s.tlb := rfl
@[simp] theorem setFr_walks (s : State) (f : Frag) : (setFr s f).walks = s.walks := rfl
@[simp] theorem setFr_ops (s : State) (f : Frag) : (setFr s f).ops = s.ops := rfl
@[simp] theorem setFr_waiters (s : State) (f : Frag) : (setFr s f).waiters = s.waiters := rfl
@[simp] theorem setFr_teams (s : State) (f : Frag) : (setFr s f).teams = s.teams := rfl
@[simp] theorem setFr_tasks (s : State) (f : Frag) : (setFr s f).tasks = s.tasks := rfl
@[simp] theorem setFr_accepted (s : State) (f : Frag) : (setFr s f).accepted = s.accepted := rfl
@[simp] theorem setFr_barriers (s : State) (f : Frag) : (setFr s f).barriers = s.barriers := rfl
@[simp] theorem setFr_handles (s : State) (f : Frag) : (setFr s f).handles = s.handles := rfl
@[simp] theorem setFr_copies (s : State) (f : Frag) : (setFr s f).copies = s.copies := rfl
@[simp] theorem setFr_merges (s : State) (f : Frag) : (setFr s f).merges = s.merges := rfl
@[simp] theorem setFr_arrays (s : State) (f : Frag) : (setFr s f).arrays = s.arrays := rfl
@[simp] theorem setFr_suspended (s : State) (f : Frag) : (setFr s f).suspended = s.suspended := rfl
@[simp] theorem setFr_messages (s : State) (f : Frag) : (setFr s f).messages = s.messages := rfl
@[simp] theorem setFr_pages (s : State) (f : Frag) : (setFr s f).pages = s.pages := rfl
@[simp] theorem setFr_seals (s : State) (f : Frag) : (setFr s f).seals = s.seals := rfl
@[simp] theorem setFr_entries (s : State) (f : Frag) : (setFr s f).entries = s.entries := rfl
@[simp] theorem setFr_entryCache (s : State) (f : Frag) : (setFr s f).entryCache = s.entryCache := rfl
@[simp] theorem setFr_adu (s : State) (f : Frag) : (setFr s f).adu = s.adu := rfl
@[simp] theorem setFr_sealTable (s : State) (f : Frag) : (setFr s f).sealTable = s.sealTable := rfl
@[simp] theorem setFr_tenantSlots (s : State) (f : Frag) : (setFr s f).tenantSlots = s.tenantSlots := rfl
@[simp] theorem setFr_queues (s : State) (f : Frag) : (setFr s f).queues = s.queues := rfl
@[simp] theorem setFr_lastQueue (s : State) (f : Frag) : (setFr s f).lastQueue = s.lastQueue := rfl
@[simp] theorem setFr_vdevs (s : State) (f : Frag) : (setFr s f).vdevs = s.vdevs := rfl
@[simp] theorem setFr_msix (s : State) (f : Frag) : (setFr s f).msix = s.msix := rfl
@[simp] theorem setFr_out (s : State) (f : Frag) : (setFr s f).out = s.out := rfl
@[simp] theorem setFr_log (s : State) (f : Frag) : (setFr s f).log = s.log := rfl
@[simp] theorem setFr_dbgen (s : State) (f : Frag) : (setFr s f).dbgen = s.dbgen := rfl
@[simp] theorem setFr_stopLog (s : State) (f : Frag) : (setFr s f).stopLog = s.stopLog := rfl
@[simp] theorem setFr_pod (s : State) (f : Frag) : (setFr s f).pod = s.pod := rfl
@[simp] theorem setFr_tray (s : State) (f : Frag) : (setFr s f).tray = s.tray := rfl
@[simp] theorem setFr_downPorts (s : State) (f : Frag) : (setFr s f).downPorts = s.downPorts := rfl
@[simp] theorem setFr_retraining (s : State) (f : Frag) : (setFr s f).retraining = s.retraining := rfl
@[simp] theorem setFr_podBarriers (s : State) (f : Frag) : (setFr s f).podBarriers = s.podBarriers := rfl
@[simp] theorem setFr_worlds (s : State) (f : Frag) : (setFr s f).worlds = s.worlds := rfl
@[simp] theorem setFr_box (s : State) (f : Frag) : (setFr s f).box = s.box := rfl
@[simp] theorem setFr_ownership (s : State) (f : Frag) : (setFr s f).ownership = s.ownership := rfl
@[simp] theorem setFr_secUp (s : State) (f : Frag) : (setFr s f).secUp = s.secUp := rfl
@[simp] theorem setFr_stage2 (s : State) (f : Frag) : (setFr s f).stage2 = s.stage2 := rfl
@[simp] theorem setFr_owners (s : State) (f : Frag) : (setFr s f).owners = s.owners := rfl
@[simp] theorem setFr_scrub (s : State) (f : Frag) : (setFr s f).scrub = s.scrub := rfl
@[simp] theorem setFr_fresh (s : State) (f : Frag) : (setFr s f).fresh = s.fresh := rfl
@[simp] theorem setFr_condemned (s : State) (f : Frag) : (setFr s f).condemned = s.condemned := rfl
@[simp] theorem setFr_dying (s : State) (f : Frag) : (setFr s f).dying = s.dying := rfl
@[simp] theorem setFr_draws (s : State) (f : Frag) : (setFr s f).draws = s.draws := rfl
@[simp] theorem setFr_spdm (s : State) (f : Frag) : (setFr s f).spdm = s.spdm := rfl
@[simp] theorem setFr_fw (s : State) (f : Frag) : (setFr s f).fw = s.fw := rfl
@[simp] theorem setFr_activation (s : State) (f : Frag) : (setFr s f).activation = s.activation := rfl
@[simp] theorem setFr_fwStop (s : State) (f : Frag) : (setFr s f).fwStop = s.fwStop := rfl
@[simp] theorem setFr_session (s : State) (f : Frag) : (setFr s f).session = s.session := rfl
@[simp] theorem setFr_life (s : State) (f : Frag) : (setFr s f).life = s.life := rfl
@[simp] theorem setFr_lifeSaved (s : State) (f : Frag) : (setFr s f).lifeSaved = s.lifeSaved := rfl
@[simp] theorem setFr_sites (s : State) (f : Frag) : (setFr s f).sites = s.sites := rfl
@[simp] theorem setFr_sitesSaved (s : State) (f : Frag) : (setFr s f).sitesSaved = s.sitesSaved := rfl
@[simp] theorem setFr_retire (s : State) (f : Frag) : (setFr s f).retire = s.retire := rfl
@[simp] theorem setFr_unlisted (s : State) (f : Frag) : (setFr s f).unlisted = s.unlisted := rfl
@[simp] theorem setFr_pendSel (s : State) (f : Frag) : (setFr s f).pendSel = s.pendSel := rfl
@[simp] theorem setFr_retiredPages (s : State) (f : Frag) : (setFr s f).retiredPages = s.retiredPages := rfl
@[simp] theorem setFr_retiredWays (s : State) (f : Frag) : (setFr s f).retiredWays = s.retiredWays := rfl
@[simp] theorem setFr_sparePorts (s : State) (f : Frag) : (setFr s f).sparePorts = s.sparePorts := rfl
@[simp] theorem setFr_ploughDown (s : State) (f : Frag) : (setFr s f).ploughDown = s.ploughDown := rfl
@[simp] theorem setFr_spares (s : State) (f : Frag) : (setFr s f).spares = s.spares := rfl
@[simp] theorem setFr_diesOut (s : State) (f : Frag) : (setFr s f).diesOut = s.diesOut := rfl
@[simp] theorem setFr_poweredBase (s : State) (f : Frag) : (setFr s f).poweredBase = s.poweredBase := rfl
@[simp] theorem setFr_deadlinePast (s : State) (f : Frag) : (setFr s f).deadlinePast = s.deadlinePast := rfl
@[simp] theorem setFr_resends (s : State) (f : Frag) : (setFr s f).resends = s.resends := rfl
@[simp] theorem setFr_lost (s : State) (f : Frag) : (setFr s f).lost = s.lost := rfl
@[simp] theorem setFr_pins (s : State) (f : Frag) : (setFr s f).pins = s.pins := rfl
@[simp] theorem setFr_sleds (s : State) (f : Frag) : (setFr s f).sleds = s.sleds := rfl
@[simp] theorem setFr_warps (s : State) (f : Frag) :
    (setFr s f).warps = s.warps.set s.cur.warp { me s with frags := (me s).frags.set s.cur.frag f } := rfl
@[simp] theorem onWarp_inputs (s : State) (i : Nat) (g : Warp → Warp) : (onWarp s i g).inputs = s.inputs := rfl
@[simp] theorem onWarp_tick (s : State) (i : Nat) (g : Warp → Warp) : (onWarp s i g).tick = s.tick := rfl
@[simp] theorem onWarp_now (s : State) (i : Nat) (g : Warp → Warp) : (onWarp s i g).now = s.now := rfl
@[simp] theorem onWarp_clk (s : State) (i : Nat) (g : Warp → Warp) : (onWarp s i g).clk = s.clk := rfl
@[simp] theorem onWarp_fast (s : State) (i : Nat) (g : Warp → Warp) : (onWarp s i g).fast = s.fast := rfl
@[simp] theorem onWarp_cur (s : State) (i : Nat) (g : Warp → Warp) : (onWarp s i g).cur = s.cur := rfl
@[simp] theorem onWarp_lastCore (s : State) (i : Nat) (g : Warp → Warp) : (onWarp s i g).lastCore = s.lastCore := rfl
@[simp] theorem onWarp_lastSlot (s : State) (i : Nat) (g : Warp → Warp) : (onWarp s i g).lastSlot = s.lastSlot := rfl
@[simp] theorem onWarp_nextId (s : State) (i : Nat) (g : Warp → Warp) : (onWarp s i g).nextId = s.nextId := rfl
@[simp] theorem onWarp_cfg (s : State) (i : Nat) (g : Warp → Warp) : (onWarp s i g).cfg = s.cfg := rfl
@[simp] theorem onWarp_mem (s : State) (i : Nat) (g : Warp → Warp) : (onWarp s i g).mem = s.mem := rfl
@[simp] theorem onWarp_hostMem (s : State) (i : Nat) (g : Warp → Warp) : (onWarp s i g).hostMem = s.hostMem := rfl
@[simp] theorem onWarp_l1 (s : State) (i : Nat) (g : Warp → Warp) : (onWarp s i g).l1 = s.l1 := rfl
@[simp] theorem onWarp_wcb (s : State) (i : Nat) (g : Warp → Warp) : (onWarp s i g).wcb = s.wcb := rfl
@[simp] theorem onWarp_sharers (s : State) (i : Nat) (g : Warp → Warp) : (onWarp s i g).sharers = s.sharers := rfl
@[simp] theorem onWarp_gateways (s : State) (i : Nat) (g : Warp → Warp) : (onWarp s i g).gateways = s.gateways := rfl
@[simp] theorem onWarp_ilines (s : State) (i : Nat) (g : Warp → Warp) : (onWarp s i g).ilines = s.ilines := rfl
@[simp] theorem onWarp_tlb (s : State) (i : Nat) (g : Warp → Warp) : (onWarp s i g).tlb = s.tlb := rfl
@[simp] theorem onWarp_walks (s : State) (i : Nat) (g : Warp → Warp) : (onWarp s i g).walks = s.walks := rfl
@[simp] theorem onWarp_ops (s : State) (i : Nat) (g : Warp → Warp) : (onWarp s i g).ops = s.ops := rfl
@[simp] theorem onWarp_waiters (s : State) (i : Nat) (g : Warp → Warp) : (onWarp s i g).waiters = s.waiters := rfl
@[simp] theorem onWarp_teams (s : State) (i : Nat) (g : Warp → Warp) : (onWarp s i g).teams = s.teams := rfl
@[simp] theorem onWarp_tasks (s : State) (i : Nat) (g : Warp → Warp) : (onWarp s i g).tasks = s.tasks := rfl
@[simp] theorem onWarp_accepted (s : State) (i : Nat) (g : Warp → Warp) : (onWarp s i g).accepted = s.accepted := rfl
@[simp] theorem onWarp_barriers (s : State) (i : Nat) (g : Warp → Warp) : (onWarp s i g).barriers = s.barriers := rfl
@[simp] theorem onWarp_handles (s : State) (i : Nat) (g : Warp → Warp) : (onWarp s i g).handles = s.handles := rfl
@[simp] theorem onWarp_copies (s : State) (i : Nat) (g : Warp → Warp) : (onWarp s i g).copies = s.copies := rfl
@[simp] theorem onWarp_merges (s : State) (i : Nat) (g : Warp → Warp) : (onWarp s i g).merges = s.merges := rfl
@[simp] theorem onWarp_arrays (s : State) (i : Nat) (g : Warp → Warp) : (onWarp s i g).arrays = s.arrays := rfl
@[simp] theorem onWarp_suspended (s : State) (i : Nat) (g : Warp → Warp) : (onWarp s i g).suspended = s.suspended := rfl
@[simp] theorem onWarp_messages (s : State) (i : Nat) (g : Warp → Warp) : (onWarp s i g).messages = s.messages := rfl
@[simp] theorem onWarp_pages (s : State) (i : Nat) (g : Warp → Warp) : (onWarp s i g).pages = s.pages := rfl
@[simp] theorem onWarp_seals (s : State) (i : Nat) (g : Warp → Warp) : (onWarp s i g).seals = s.seals := rfl
@[simp] theorem onWarp_entries (s : State) (i : Nat) (g : Warp → Warp) : (onWarp s i g).entries = s.entries := rfl
@[simp] theorem onWarp_entryCache (s : State) (i : Nat) (g : Warp → Warp) : (onWarp s i g).entryCache = s.entryCache := rfl
@[simp] theorem onWarp_adu (s : State) (i : Nat) (g : Warp → Warp) : (onWarp s i g).adu = s.adu := rfl
@[simp] theorem onWarp_sealTable (s : State) (i : Nat) (g : Warp → Warp) : (onWarp s i g).sealTable = s.sealTable := rfl
@[simp] theorem onWarp_tenantSlots (s : State) (i : Nat) (g : Warp → Warp) : (onWarp s i g).tenantSlots = s.tenantSlots := rfl
@[simp] theorem onWarp_queues (s : State) (i : Nat) (g : Warp → Warp) : (onWarp s i g).queues = s.queues := rfl
@[simp] theorem onWarp_lastQueue (s : State) (i : Nat) (g : Warp → Warp) : (onWarp s i g).lastQueue = s.lastQueue := rfl
@[simp] theorem onWarp_vdevs (s : State) (i : Nat) (g : Warp → Warp) : (onWarp s i g).vdevs = s.vdevs := rfl
@[simp] theorem onWarp_msix (s : State) (i : Nat) (g : Warp → Warp) : (onWarp s i g).msix = s.msix := rfl
@[simp] theorem onWarp_out (s : State) (i : Nat) (g : Warp → Warp) : (onWarp s i g).out = s.out := rfl
@[simp] theorem onWarp_log (s : State) (i : Nat) (g : Warp → Warp) : (onWarp s i g).log = s.log := rfl
@[simp] theorem onWarp_dbgen (s : State) (i : Nat) (g : Warp → Warp) : (onWarp s i g).dbgen = s.dbgen := rfl
@[simp] theorem onWarp_stopLog (s : State) (i : Nat) (g : Warp → Warp) : (onWarp s i g).stopLog = s.stopLog := rfl
@[simp] theorem onWarp_pod (s : State) (i : Nat) (g : Warp → Warp) : (onWarp s i g).pod = s.pod := rfl
@[simp] theorem onWarp_tray (s : State) (i : Nat) (g : Warp → Warp) : (onWarp s i g).tray = s.tray := rfl
@[simp] theorem onWarp_downPorts (s : State) (i : Nat) (g : Warp → Warp) : (onWarp s i g).downPorts = s.downPorts := rfl
@[simp] theorem onWarp_retraining (s : State) (i : Nat) (g : Warp → Warp) : (onWarp s i g).retraining = s.retraining := rfl
@[simp] theorem onWarp_podBarriers (s : State) (i : Nat) (g : Warp → Warp) : (onWarp s i g).podBarriers = s.podBarriers := rfl
@[simp] theorem onWarp_worlds (s : State) (i : Nat) (g : Warp → Warp) : (onWarp s i g).worlds = s.worlds := rfl
@[simp] theorem onWarp_box (s : State) (i : Nat) (g : Warp → Warp) : (onWarp s i g).box = s.box := rfl
@[simp] theorem onWarp_ownership (s : State) (i : Nat) (g : Warp → Warp) : (onWarp s i g).ownership = s.ownership := rfl
@[simp] theorem onWarp_secUp (s : State) (i : Nat) (g : Warp → Warp) : (onWarp s i g).secUp = s.secUp := rfl
@[simp] theorem onWarp_stage2 (s : State) (i : Nat) (g : Warp → Warp) : (onWarp s i g).stage2 = s.stage2 := rfl
@[simp] theorem onWarp_owners (s : State) (i : Nat) (g : Warp → Warp) : (onWarp s i g).owners = s.owners := rfl
@[simp] theorem onWarp_scrub (s : State) (i : Nat) (g : Warp → Warp) : (onWarp s i g).scrub = s.scrub := rfl
@[simp] theorem onWarp_fresh (s : State) (i : Nat) (g : Warp → Warp) : (onWarp s i g).fresh = s.fresh := rfl
@[simp] theorem onWarp_condemned (s : State) (i : Nat) (g : Warp → Warp) : (onWarp s i g).condemned = s.condemned := rfl
@[simp] theorem onWarp_dying (s : State) (i : Nat) (g : Warp → Warp) : (onWarp s i g).dying = s.dying := rfl
@[simp] theorem onWarp_draws (s : State) (i : Nat) (g : Warp → Warp) : (onWarp s i g).draws = s.draws := rfl
@[simp] theorem onWarp_spdm (s : State) (i : Nat) (g : Warp → Warp) : (onWarp s i g).spdm = s.spdm := rfl
@[simp] theorem onWarp_fw (s : State) (i : Nat) (g : Warp → Warp) : (onWarp s i g).fw = s.fw := rfl
@[simp] theorem onWarp_activation (s : State) (i : Nat) (g : Warp → Warp) : (onWarp s i g).activation = s.activation := rfl
@[simp] theorem onWarp_fwStop (s : State) (i : Nat) (g : Warp → Warp) : (onWarp s i g).fwStop = s.fwStop := rfl
@[simp] theorem onWarp_session (s : State) (i : Nat) (g : Warp → Warp) : (onWarp s i g).session = s.session := rfl
@[simp] theorem onWarp_life (s : State) (i : Nat) (g : Warp → Warp) : (onWarp s i g).life = s.life := rfl
@[simp] theorem onWarp_lifeSaved (s : State) (i : Nat) (g : Warp → Warp) : (onWarp s i g).lifeSaved = s.lifeSaved := rfl
@[simp] theorem onWarp_sites (s : State) (i : Nat) (g : Warp → Warp) : (onWarp s i g).sites = s.sites := rfl
@[simp] theorem onWarp_sitesSaved (s : State) (i : Nat) (g : Warp → Warp) : (onWarp s i g).sitesSaved = s.sitesSaved := rfl
@[simp] theorem onWarp_retire (s : State) (i : Nat) (g : Warp → Warp) : (onWarp s i g).retire = s.retire := rfl
@[simp] theorem onWarp_unlisted (s : State) (i : Nat) (g : Warp → Warp) : (onWarp s i g).unlisted = s.unlisted := rfl
@[simp] theorem onWarp_pendSel (s : State) (i : Nat) (g : Warp → Warp) : (onWarp s i g).pendSel = s.pendSel := rfl
@[simp] theorem onWarp_retiredPages (s : State) (i : Nat) (g : Warp → Warp) : (onWarp s i g).retiredPages = s.retiredPages := rfl
@[simp] theorem onWarp_retiredWays (s : State) (i : Nat) (g : Warp → Warp) : (onWarp s i g).retiredWays = s.retiredWays := rfl
@[simp] theorem onWarp_sparePorts (s : State) (i : Nat) (g : Warp → Warp) : (onWarp s i g).sparePorts = s.sparePorts := rfl
@[simp] theorem onWarp_ploughDown (s : State) (i : Nat) (g : Warp → Warp) : (onWarp s i g).ploughDown = s.ploughDown := rfl
@[simp] theorem onWarp_spares (s : State) (i : Nat) (g : Warp → Warp) : (onWarp s i g).spares = s.spares := rfl
@[simp] theorem onWarp_diesOut (s : State) (i : Nat) (g : Warp → Warp) : (onWarp s i g).diesOut = s.diesOut := rfl
@[simp] theorem onWarp_poweredBase (s : State) (i : Nat) (g : Warp → Warp) : (onWarp s i g).poweredBase = s.poweredBase := rfl
@[simp] theorem onWarp_deadlinePast (s : State) (i : Nat) (g : Warp → Warp) : (onWarp s i g).deadlinePast = s.deadlinePast := rfl
@[simp] theorem onWarp_resends (s : State) (i : Nat) (g : Warp → Warp) : (onWarp s i g).resends = s.resends := rfl
@[simp] theorem onWarp_lost (s : State) (i : Nat) (g : Warp → Warp) : (onWarp s i g).lost = s.lost := rfl
@[simp] theorem onWarp_pins (s : State) (i : Nat) (g : Warp → Warp) : (onWarp s i g).pins = s.pins := rfl
@[simp] theorem onWarp_sleds (s : State) (i : Nat) (g : Warp → Warp) : (onWarp s i g).sleds = s.sleds := rfl
@[simp] theorem onWarp_warps (s : State) (i : Nat) (g : Warp → Warp) : (onWarp s i g).warps = s.warps.set i (g (s.warps.getD i {})) := rfl

/-! ## Team counters -/

@[simp] theorem countPerf_inputs (s : State) (t k n : Nat) : (countPerf s t k n).inputs = s.inputs := rfl
@[simp] theorem countPerf_tick (s : State) (t k n : Nat) : (countPerf s t k n).tick = s.tick := rfl
@[simp] theorem countPerf_now (s : State) (t k n : Nat) : (countPerf s t k n).now = s.now := rfl
@[simp] theorem countPerf_clk (s : State) (t k n : Nat) : (countPerf s t k n).clk = s.clk := rfl
@[simp] theorem countPerf_fast (s : State) (t k n : Nat) : (countPerf s t k n).fast = s.fast := rfl
@[simp] theorem countPerf_cur (s : State) (t k n : Nat) : (countPerf s t k n).cur = s.cur := rfl
@[simp] theorem countPerf_lastCore (s : State) (t k n : Nat) : (countPerf s t k n).lastCore = s.lastCore := rfl
@[simp] theorem countPerf_lastSlot (s : State) (t k n : Nat) : (countPerf s t k n).lastSlot = s.lastSlot := rfl
@[simp] theorem countPerf_nextId (s : State) (t k n : Nat) : (countPerf s t k n).nextId = s.nextId := rfl
@[simp] theorem countPerf_cfg (s : State) (t k n : Nat) : (countPerf s t k n).cfg = s.cfg := rfl
@[simp] theorem countPerf_mem (s : State) (t k n : Nat) : (countPerf s t k n).mem = s.mem := rfl
@[simp] theorem countPerf_hostMem (s : State) (t k n : Nat) : (countPerf s t k n).hostMem = s.hostMem := rfl
@[simp] theorem countPerf_l1 (s : State) (t k n : Nat) : (countPerf s t k n).l1 = s.l1 := rfl
@[simp] theorem countPerf_wcb (s : State) (t k n : Nat) : (countPerf s t k n).wcb = s.wcb := rfl
@[simp] theorem countPerf_sharers (s : State) (t k n : Nat) : (countPerf s t k n).sharers = s.sharers := rfl
@[simp] theorem countPerf_gateways (s : State) (t k n : Nat) : (countPerf s t k n).gateways = s.gateways := rfl
@[simp] theorem countPerf_ilines (s : State) (t k n : Nat) : (countPerf s t k n).ilines = s.ilines := rfl
@[simp] theorem countPerf_tlb (s : State) (t k n : Nat) : (countPerf s t k n).tlb = s.tlb := rfl
@[simp] theorem countPerf_walks (s : State) (t k n : Nat) : (countPerf s t k n).walks = s.walks := rfl
@[simp] theorem countPerf_ops (s : State) (t k n : Nat) : (countPerf s t k n).ops = s.ops := rfl
@[simp] theorem countPerf_waiters (s : State) (t k n : Nat) : (countPerf s t k n).waiters = s.waiters := rfl
@[simp] theorem countPerf_warps (s : State) (t k n : Nat) : (countPerf s t k n).warps = s.warps := rfl
@[simp] theorem countPerf_tasks (s : State) (t k n : Nat) : (countPerf s t k n).tasks = s.tasks := rfl
@[simp] theorem countPerf_accepted (s : State) (t k n : Nat) : (countPerf s t k n).accepted = s.accepted := rfl
@[simp] theorem countPerf_barriers (s : State) (t k n : Nat) : (countPerf s t k n).barriers = s.barriers := rfl
@[simp] theorem countPerf_handles (s : State) (t k n : Nat) : (countPerf s t k n).handles = s.handles := rfl
@[simp] theorem countPerf_copies (s : State) (t k n : Nat) : (countPerf s t k n).copies = s.copies := rfl
@[simp] theorem countPerf_merges (s : State) (t k n : Nat) : (countPerf s t k n).merges = s.merges := rfl
@[simp] theorem countPerf_arrays (s : State) (t k n : Nat) : (countPerf s t k n).arrays = s.arrays := rfl
@[simp] theorem countPerf_suspended (s : State) (t k n : Nat) : (countPerf s t k n).suspended = s.suspended := rfl
@[simp] theorem countPerf_messages (s : State) (t k n : Nat) : (countPerf s t k n).messages = s.messages := rfl
@[simp] theorem countPerf_pages (s : State) (t k n : Nat) : (countPerf s t k n).pages = s.pages := rfl
@[simp] theorem countPerf_seals (s : State) (t k n : Nat) : (countPerf s t k n).seals = s.seals := rfl
@[simp] theorem countPerf_entries (s : State) (t k n : Nat) : (countPerf s t k n).entries = s.entries := rfl
@[simp] theorem countPerf_entryCache (s : State) (t k n : Nat) : (countPerf s t k n).entryCache = s.entryCache := rfl
@[simp] theorem countPerf_adu (s : State) (t k n : Nat) : (countPerf s t k n).adu = s.adu := rfl
@[simp] theorem countPerf_sealTable (s : State) (t k n : Nat) : (countPerf s t k n).sealTable = s.sealTable := rfl
@[simp] theorem countPerf_tenantSlots (s : State) (t k n : Nat) : (countPerf s t k n).tenantSlots = s.tenantSlots := rfl
@[simp] theorem countPerf_queues (s : State) (t k n : Nat) : (countPerf s t k n).queues = s.queues := rfl
@[simp] theorem countPerf_lastQueue (s : State) (t k n : Nat) : (countPerf s t k n).lastQueue = s.lastQueue := rfl
@[simp] theorem countPerf_vdevs (s : State) (t k n : Nat) : (countPerf s t k n).vdevs = s.vdevs := rfl
@[simp] theorem countPerf_msix (s : State) (t k n : Nat) : (countPerf s t k n).msix = s.msix := rfl
@[simp] theorem countPerf_out (s : State) (t k n : Nat) : (countPerf s t k n).out = s.out := rfl
@[simp] theorem countPerf_log (s : State) (t k n : Nat) : (countPerf s t k n).log = s.log := rfl
@[simp] theorem countPerf_dbgen (s : State) (t k n : Nat) : (countPerf s t k n).dbgen = s.dbgen := rfl
@[simp] theorem countPerf_stopLog (s : State) (t k n : Nat) : (countPerf s t k n).stopLog = s.stopLog := rfl
@[simp] theorem countPerf_pod (s : State) (t k n : Nat) : (countPerf s t k n).pod = s.pod := rfl
@[simp] theorem countPerf_tray (s : State) (t k n : Nat) : (countPerf s t k n).tray = s.tray := rfl
@[simp] theorem countPerf_downPorts (s : State) (t k n : Nat) : (countPerf s t k n).downPorts = s.downPorts := rfl
@[simp] theorem countPerf_retraining (s : State) (t k n : Nat) : (countPerf s t k n).retraining = s.retraining := rfl
@[simp] theorem countPerf_podBarriers (s : State) (t k n : Nat) : (countPerf s t k n).podBarriers = s.podBarriers := rfl
@[simp] theorem countPerf_worlds (s : State) (t k n : Nat) : (countPerf s t k n).worlds = s.worlds := rfl
@[simp] theorem countPerf_box (s : State) (t k n : Nat) : (countPerf s t k n).box = s.box := rfl
@[simp] theorem countPerf_ownership (s : State) (t k n : Nat) : (countPerf s t k n).ownership = s.ownership := rfl
@[simp] theorem countPerf_secUp (s : State) (t k n : Nat) : (countPerf s t k n).secUp = s.secUp := rfl
@[simp] theorem countPerf_stage2 (s : State) (t k n : Nat) : (countPerf s t k n).stage2 = s.stage2 := rfl
@[simp] theorem countPerf_owners (s : State) (t k n : Nat) : (countPerf s t k n).owners = s.owners := rfl
@[simp] theorem countPerf_scrub (s : State) (t k n : Nat) : (countPerf s t k n).scrub = s.scrub := rfl
@[simp] theorem countPerf_fresh (s : State) (t k n : Nat) : (countPerf s t k n).fresh = s.fresh := rfl
@[simp] theorem countPerf_condemned (s : State) (t k n : Nat) : (countPerf s t k n).condemned = s.condemned := rfl
@[simp] theorem countPerf_dying (s : State) (t k n : Nat) : (countPerf s t k n).dying = s.dying := rfl
@[simp] theorem countPerf_draws (s : State) (t k n : Nat) : (countPerf s t k n).draws = s.draws := rfl
@[simp] theorem countPerf_spdm (s : State) (t k n : Nat) : (countPerf s t k n).spdm = s.spdm := rfl
@[simp] theorem countPerf_fw (s : State) (t k n : Nat) : (countPerf s t k n).fw = s.fw := rfl
@[simp] theorem countPerf_activation (s : State) (t k n : Nat) : (countPerf s t k n).activation = s.activation := rfl
@[simp] theorem countPerf_fwStop (s : State) (t k n : Nat) : (countPerf s t k n).fwStop = s.fwStop := rfl
@[simp] theorem countPerf_session (s : State) (t k n : Nat) : (countPerf s t k n).session = s.session := rfl
@[simp] theorem countPerf_life (s : State) (t k n : Nat) : (countPerf s t k n).life = s.life := rfl
@[simp] theorem countPerf_lifeSaved (s : State) (t k n : Nat) : (countPerf s t k n).lifeSaved = s.lifeSaved := rfl
@[simp] theorem countPerf_sites (s : State) (t k n : Nat) : (countPerf s t k n).sites = s.sites := rfl
@[simp] theorem countPerf_sitesSaved (s : State) (t k n : Nat) : (countPerf s t k n).sitesSaved = s.sitesSaved := rfl
@[simp] theorem countPerf_retire (s : State) (t k n : Nat) : (countPerf s t k n).retire = s.retire := rfl
@[simp] theorem countPerf_unlisted (s : State) (t k n : Nat) : (countPerf s t k n).unlisted = s.unlisted := rfl
@[simp] theorem countPerf_pendSel (s : State) (t k n : Nat) : (countPerf s t k n).pendSel = s.pendSel := rfl
@[simp] theorem countPerf_retiredPages (s : State) (t k n : Nat) : (countPerf s t k n).retiredPages = s.retiredPages := rfl
@[simp] theorem countPerf_retiredWays (s : State) (t k n : Nat) : (countPerf s t k n).retiredWays = s.retiredWays := rfl
@[simp] theorem countPerf_sparePorts (s : State) (t k n : Nat) : (countPerf s t k n).sparePorts = s.sparePorts := rfl
@[simp] theorem countPerf_ploughDown (s : State) (t k n : Nat) : (countPerf s t k n).ploughDown = s.ploughDown := rfl
@[simp] theorem countPerf_spares (s : State) (t k n : Nat) : (countPerf s t k n).spares = s.spares := rfl
@[simp] theorem countPerf_diesOut (s : State) (t k n : Nat) : (countPerf s t k n).diesOut = s.diesOut := rfl
@[simp] theorem countPerf_poweredBase (s : State) (t k n : Nat) : (countPerf s t k n).poweredBase = s.poweredBase := rfl
@[simp] theorem countPerf_deadlinePast (s : State) (t k n : Nat) : (countPerf s t k n).deadlinePast = s.deadlinePast := rfl
@[simp] theorem countPerf_resends (s : State) (t k n : Nat) : (countPerf s t k n).resends = s.resends := rfl
@[simp] theorem countPerf_lost (s : State) (t k n : Nat) : (countPerf s t k n).lost = s.lost := rfl
@[simp] theorem countPerf_pins (s : State) (t k n : Nat) : (countPerf s t k n).pins = s.pins := rfl
@[simp] theorem countPerf_sleds (s : State) (t k n : Nat) : (countPerf s t k n).sleds = s.sleds := rfl
@[simp] theorem countIssue_inputs (s : State) : (countIssue s).inputs = s.inputs := rfl
@[simp] theorem countIssue_tick (s : State) : (countIssue s).tick = s.tick := rfl
@[simp] theorem countIssue_now (s : State) : (countIssue s).now = s.now := rfl
@[simp] theorem countIssue_clk (s : State) : (countIssue s).clk = s.clk := rfl
@[simp] theorem countIssue_fast (s : State) : (countIssue s).fast = s.fast := rfl
@[simp] theorem countIssue_cur (s : State) : (countIssue s).cur = s.cur := rfl
@[simp] theorem countIssue_lastCore (s : State) : (countIssue s).lastCore = s.lastCore := rfl
@[simp] theorem countIssue_lastSlot (s : State) : (countIssue s).lastSlot = s.lastSlot := rfl
@[simp] theorem countIssue_nextId (s : State) : (countIssue s).nextId = s.nextId := rfl
@[simp] theorem countIssue_cfg (s : State) : (countIssue s).cfg = s.cfg := rfl
@[simp] theorem countIssue_mem (s : State) : (countIssue s).mem = s.mem := rfl
@[simp] theorem countIssue_hostMem (s : State) : (countIssue s).hostMem = s.hostMem := rfl
@[simp] theorem countIssue_l1 (s : State) : (countIssue s).l1 = s.l1 := rfl
@[simp] theorem countIssue_wcb (s : State) : (countIssue s).wcb = s.wcb := rfl
@[simp] theorem countIssue_sharers (s : State) : (countIssue s).sharers = s.sharers := rfl
@[simp] theorem countIssue_gateways (s : State) : (countIssue s).gateways = s.gateways := rfl
@[simp] theorem countIssue_ilines (s : State) : (countIssue s).ilines = s.ilines := rfl
@[simp] theorem countIssue_tlb (s : State) : (countIssue s).tlb = s.tlb := rfl
@[simp] theorem countIssue_walks (s : State) : (countIssue s).walks = s.walks := rfl
@[simp] theorem countIssue_ops (s : State) : (countIssue s).ops = s.ops := rfl
@[simp] theorem countIssue_waiters (s : State) : (countIssue s).waiters = s.waiters := rfl
@[simp] theorem countIssue_warps (s : State) : (countIssue s).warps = s.warps := rfl
@[simp] theorem countIssue_tasks (s : State) : (countIssue s).tasks = s.tasks := rfl
@[simp] theorem countIssue_accepted (s : State) : (countIssue s).accepted = s.accepted := rfl
@[simp] theorem countIssue_barriers (s : State) : (countIssue s).barriers = s.barriers := rfl
@[simp] theorem countIssue_handles (s : State) : (countIssue s).handles = s.handles := rfl
@[simp] theorem countIssue_copies (s : State) : (countIssue s).copies = s.copies := rfl
@[simp] theorem countIssue_merges (s : State) : (countIssue s).merges = s.merges := rfl
@[simp] theorem countIssue_arrays (s : State) : (countIssue s).arrays = s.arrays := rfl
@[simp] theorem countIssue_suspended (s : State) : (countIssue s).suspended = s.suspended := rfl
@[simp] theorem countIssue_messages (s : State) : (countIssue s).messages = s.messages := rfl
@[simp] theorem countIssue_pages (s : State) : (countIssue s).pages = s.pages := rfl
@[simp] theorem countIssue_seals (s : State) : (countIssue s).seals = s.seals := rfl
@[simp] theorem countIssue_entries (s : State) : (countIssue s).entries = s.entries := rfl
@[simp] theorem countIssue_entryCache (s : State) : (countIssue s).entryCache = s.entryCache := rfl
@[simp] theorem countIssue_adu (s : State) : (countIssue s).adu = s.adu := rfl
@[simp] theorem countIssue_sealTable (s : State) : (countIssue s).sealTable = s.sealTable := rfl
@[simp] theorem countIssue_tenantSlots (s : State) : (countIssue s).tenantSlots = s.tenantSlots := rfl
@[simp] theorem countIssue_queues (s : State) : (countIssue s).queues = s.queues := rfl
@[simp] theorem countIssue_lastQueue (s : State) : (countIssue s).lastQueue = s.lastQueue := rfl
@[simp] theorem countIssue_vdevs (s : State) : (countIssue s).vdevs = s.vdevs := rfl
@[simp] theorem countIssue_msix (s : State) : (countIssue s).msix = s.msix := rfl
@[simp] theorem countIssue_out (s : State) : (countIssue s).out = s.out := rfl
@[simp] theorem countIssue_log (s : State) : (countIssue s).log = s.log := rfl
@[simp] theorem countIssue_dbgen (s : State) : (countIssue s).dbgen = s.dbgen := rfl
@[simp] theorem countIssue_stopLog (s : State) : (countIssue s).stopLog = s.stopLog := rfl
@[simp] theorem countIssue_pod (s : State) : (countIssue s).pod = s.pod := rfl
@[simp] theorem countIssue_tray (s : State) : (countIssue s).tray = s.tray := rfl
@[simp] theorem countIssue_downPorts (s : State) : (countIssue s).downPorts = s.downPorts := rfl
@[simp] theorem countIssue_retraining (s : State) : (countIssue s).retraining = s.retraining := rfl
@[simp] theorem countIssue_podBarriers (s : State) : (countIssue s).podBarriers = s.podBarriers := rfl
@[simp] theorem countIssue_worlds (s : State) : (countIssue s).worlds = s.worlds := rfl
@[simp] theorem countIssue_box (s : State) : (countIssue s).box = s.box := rfl
@[simp] theorem countIssue_ownership (s : State) : (countIssue s).ownership = s.ownership := rfl
@[simp] theorem countIssue_secUp (s : State) : (countIssue s).secUp = s.secUp := rfl
@[simp] theorem countIssue_stage2 (s : State) : (countIssue s).stage2 = s.stage2 := rfl
@[simp] theorem countIssue_owners (s : State) : (countIssue s).owners = s.owners := rfl
@[simp] theorem countIssue_scrub (s : State) : (countIssue s).scrub = s.scrub := rfl
@[simp] theorem countIssue_fresh (s : State) : (countIssue s).fresh = s.fresh := rfl
@[simp] theorem countIssue_condemned (s : State) : (countIssue s).condemned = s.condemned := rfl
@[simp] theorem countIssue_dying (s : State) : (countIssue s).dying = s.dying := rfl
@[simp] theorem countIssue_draws (s : State) : (countIssue s).draws = s.draws := rfl
@[simp] theorem countIssue_spdm (s : State) : (countIssue s).spdm = s.spdm := rfl
@[simp] theorem countIssue_fw (s : State) : (countIssue s).fw = s.fw := rfl
@[simp] theorem countIssue_activation (s : State) : (countIssue s).activation = s.activation := rfl
@[simp] theorem countIssue_fwStop (s : State) : (countIssue s).fwStop = s.fwStop := rfl
@[simp] theorem countIssue_session (s : State) : (countIssue s).session = s.session := rfl
@[simp] theorem countIssue_life (s : State) : (countIssue s).life = s.life := rfl
@[simp] theorem countIssue_lifeSaved (s : State) : (countIssue s).lifeSaved = s.lifeSaved := rfl
@[simp] theorem countIssue_sites (s : State) : (countIssue s).sites = s.sites := rfl
@[simp] theorem countIssue_sitesSaved (s : State) : (countIssue s).sitesSaved = s.sitesSaved := rfl
@[simp] theorem countIssue_retire (s : State) : (countIssue s).retire = s.retire := rfl
@[simp] theorem countIssue_unlisted (s : State) : (countIssue s).unlisted = s.unlisted := rfl
@[simp] theorem countIssue_pendSel (s : State) : (countIssue s).pendSel = s.pendSel := rfl
@[simp] theorem countIssue_retiredPages (s : State) : (countIssue s).retiredPages = s.retiredPages := rfl
@[simp] theorem countIssue_retiredWays (s : State) : (countIssue s).retiredWays = s.retiredWays := rfl
@[simp] theorem countIssue_sparePorts (s : State) : (countIssue s).sparePorts = s.sparePorts := rfl
@[simp] theorem countIssue_ploughDown (s : State) : (countIssue s).ploughDown = s.ploughDown := rfl
@[simp] theorem countIssue_spares (s : State) : (countIssue s).spares = s.spares := rfl
@[simp] theorem countIssue_diesOut (s : State) : (countIssue s).diesOut = s.diesOut := rfl
@[simp] theorem countIssue_poweredBase (s : State) : (countIssue s).poweredBase = s.poweredBase := rfl
@[simp] theorem countIssue_deadlinePast (s : State) : (countIssue s).deadlinePast = s.deadlinePast := rfl
@[simp] theorem countIssue_resends (s : State) : (countIssue s).resends = s.resends := rfl
@[simp] theorem countIssue_lost (s : State) : (countIssue s).lost = s.lost := rfl
@[simp] theorem countIssue_pins (s : State) : (countIssue s).pins = s.pins := rfl
@[simp] theorem countIssue_sleds (s : State) : (countIssue s).sleds = s.sleds := rfl

/-! ## Destinations and flags of the issuing warp -/

@[simp] theorem writeDests_inputs (p : Option Pfx) (ds : List (Nat × Row)) (s : State) : (writeDests p ds s).inputs = s.inputs := rfl
@[simp] theorem writeDests_tick (p : Option Pfx) (ds : List (Nat × Row)) (s : State) : (writeDests p ds s).tick = s.tick := rfl
@[simp] theorem writeDests_now (p : Option Pfx) (ds : List (Nat × Row)) (s : State) : (writeDests p ds s).now = s.now := rfl
@[simp] theorem writeDests_clk (p : Option Pfx) (ds : List (Nat × Row)) (s : State) : (writeDests p ds s).clk = s.clk := rfl
@[simp] theorem writeDests_fast (p : Option Pfx) (ds : List (Nat × Row)) (s : State) : (writeDests p ds s).fast = s.fast := rfl
@[simp] theorem writeDests_cur (p : Option Pfx) (ds : List (Nat × Row)) (s : State) : (writeDests p ds s).cur = s.cur := rfl
@[simp] theorem writeDests_lastCore (p : Option Pfx) (ds : List (Nat × Row)) (s : State) : (writeDests p ds s).lastCore = s.lastCore := rfl
@[simp] theorem writeDests_lastSlot (p : Option Pfx) (ds : List (Nat × Row)) (s : State) : (writeDests p ds s).lastSlot = s.lastSlot := rfl
@[simp] theorem writeDests_nextId (p : Option Pfx) (ds : List (Nat × Row)) (s : State) : (writeDests p ds s).nextId = s.nextId := rfl
@[simp] theorem writeDests_cfg (p : Option Pfx) (ds : List (Nat × Row)) (s : State) : (writeDests p ds s).cfg = s.cfg := rfl
@[simp] theorem writeDests_mem (p : Option Pfx) (ds : List (Nat × Row)) (s : State) : (writeDests p ds s).mem = s.mem := rfl
@[simp] theorem writeDests_hostMem (p : Option Pfx) (ds : List (Nat × Row)) (s : State) : (writeDests p ds s).hostMem = s.hostMem := rfl
@[simp] theorem writeDests_l1 (p : Option Pfx) (ds : List (Nat × Row)) (s : State) : (writeDests p ds s).l1 = s.l1 := rfl
@[simp] theorem writeDests_wcb (p : Option Pfx) (ds : List (Nat × Row)) (s : State) : (writeDests p ds s).wcb = s.wcb := rfl
@[simp] theorem writeDests_sharers (p : Option Pfx) (ds : List (Nat × Row)) (s : State) : (writeDests p ds s).sharers = s.sharers := rfl
@[simp] theorem writeDests_gateways (p : Option Pfx) (ds : List (Nat × Row)) (s : State) : (writeDests p ds s).gateways = s.gateways := rfl
@[simp] theorem writeDests_ilines (p : Option Pfx) (ds : List (Nat × Row)) (s : State) : (writeDests p ds s).ilines = s.ilines := rfl
@[simp] theorem writeDests_tlb (p : Option Pfx) (ds : List (Nat × Row)) (s : State) : (writeDests p ds s).tlb = s.tlb := rfl
@[simp] theorem writeDests_walks (p : Option Pfx) (ds : List (Nat × Row)) (s : State) : (writeDests p ds s).walks = s.walks := rfl
@[simp] theorem writeDests_ops (p : Option Pfx) (ds : List (Nat × Row)) (s : State) : (writeDests p ds s).ops = s.ops := rfl
@[simp] theorem writeDests_waiters (p : Option Pfx) (ds : List (Nat × Row)) (s : State) : (writeDests p ds s).waiters = s.waiters := rfl
@[simp] theorem writeDests_teams (p : Option Pfx) (ds : List (Nat × Row)) (s : State) : (writeDests p ds s).teams = s.teams := rfl
@[simp] theorem writeDests_tasks (p : Option Pfx) (ds : List (Nat × Row)) (s : State) : (writeDests p ds s).tasks = s.tasks := rfl
@[simp] theorem writeDests_accepted (p : Option Pfx) (ds : List (Nat × Row)) (s : State) : (writeDests p ds s).accepted = s.accepted := rfl
@[simp] theorem writeDests_barriers (p : Option Pfx) (ds : List (Nat × Row)) (s : State) : (writeDests p ds s).barriers = s.barriers := rfl
@[simp] theorem writeDests_handles (p : Option Pfx) (ds : List (Nat × Row)) (s : State) : (writeDests p ds s).handles = s.handles := rfl
@[simp] theorem writeDests_copies (p : Option Pfx) (ds : List (Nat × Row)) (s : State) : (writeDests p ds s).copies = s.copies := rfl
@[simp] theorem writeDests_merges (p : Option Pfx) (ds : List (Nat × Row)) (s : State) : (writeDests p ds s).merges = s.merges := rfl
@[simp] theorem writeDests_arrays (p : Option Pfx) (ds : List (Nat × Row)) (s : State) : (writeDests p ds s).arrays = s.arrays := rfl
@[simp] theorem writeDests_suspended (p : Option Pfx) (ds : List (Nat × Row)) (s : State) : (writeDests p ds s).suspended = s.suspended := rfl
@[simp] theorem writeDests_messages (p : Option Pfx) (ds : List (Nat × Row)) (s : State) : (writeDests p ds s).messages = s.messages := rfl
@[simp] theorem writeDests_pages (p : Option Pfx) (ds : List (Nat × Row)) (s : State) : (writeDests p ds s).pages = s.pages := rfl
@[simp] theorem writeDests_seals (p : Option Pfx) (ds : List (Nat × Row)) (s : State) : (writeDests p ds s).seals = s.seals := rfl
@[simp] theorem writeDests_entries (p : Option Pfx) (ds : List (Nat × Row)) (s : State) : (writeDests p ds s).entries = s.entries := rfl
@[simp] theorem writeDests_entryCache (p : Option Pfx) (ds : List (Nat × Row)) (s : State) : (writeDests p ds s).entryCache = s.entryCache := rfl
@[simp] theorem writeDests_adu (p : Option Pfx) (ds : List (Nat × Row)) (s : State) : (writeDests p ds s).adu = s.adu := rfl
@[simp] theorem writeDests_sealTable (p : Option Pfx) (ds : List (Nat × Row)) (s : State) : (writeDests p ds s).sealTable = s.sealTable := rfl
@[simp] theorem writeDests_tenantSlots (p : Option Pfx) (ds : List (Nat × Row)) (s : State) : (writeDests p ds s).tenantSlots = s.tenantSlots := rfl
@[simp] theorem writeDests_queues (p : Option Pfx) (ds : List (Nat × Row)) (s : State) : (writeDests p ds s).queues = s.queues := rfl
@[simp] theorem writeDests_lastQueue (p : Option Pfx) (ds : List (Nat × Row)) (s : State) : (writeDests p ds s).lastQueue = s.lastQueue := rfl
@[simp] theorem writeDests_vdevs (p : Option Pfx) (ds : List (Nat × Row)) (s : State) : (writeDests p ds s).vdevs = s.vdevs := rfl
@[simp] theorem writeDests_msix (p : Option Pfx) (ds : List (Nat × Row)) (s : State) : (writeDests p ds s).msix = s.msix := rfl
@[simp] theorem writeDests_out (p : Option Pfx) (ds : List (Nat × Row)) (s : State) : (writeDests p ds s).out = s.out := rfl
@[simp] theorem writeDests_log (p : Option Pfx) (ds : List (Nat × Row)) (s : State) : (writeDests p ds s).log = s.log := rfl
@[simp] theorem writeDests_dbgen (p : Option Pfx) (ds : List (Nat × Row)) (s : State) : (writeDests p ds s).dbgen = s.dbgen := rfl
@[simp] theorem writeDests_stopLog (p : Option Pfx) (ds : List (Nat × Row)) (s : State) : (writeDests p ds s).stopLog = s.stopLog := rfl
@[simp] theorem writeDests_pod (p : Option Pfx) (ds : List (Nat × Row)) (s : State) : (writeDests p ds s).pod = s.pod := rfl
@[simp] theorem writeDests_tray (p : Option Pfx) (ds : List (Nat × Row)) (s : State) : (writeDests p ds s).tray = s.tray := rfl
@[simp] theorem writeDests_downPorts (p : Option Pfx) (ds : List (Nat × Row)) (s : State) : (writeDests p ds s).downPorts = s.downPorts := rfl
@[simp] theorem writeDests_retraining (p : Option Pfx) (ds : List (Nat × Row)) (s : State) : (writeDests p ds s).retraining = s.retraining := rfl
@[simp] theorem writeDests_podBarriers (p : Option Pfx) (ds : List (Nat × Row)) (s : State) : (writeDests p ds s).podBarriers = s.podBarriers := rfl
@[simp] theorem writeDests_worlds (p : Option Pfx) (ds : List (Nat × Row)) (s : State) : (writeDests p ds s).worlds = s.worlds := rfl
@[simp] theorem writeDests_box (p : Option Pfx) (ds : List (Nat × Row)) (s : State) : (writeDests p ds s).box = s.box := rfl
@[simp] theorem writeDests_ownership (p : Option Pfx) (ds : List (Nat × Row)) (s : State) : (writeDests p ds s).ownership = s.ownership := rfl
@[simp] theorem writeDests_secUp (p : Option Pfx) (ds : List (Nat × Row)) (s : State) : (writeDests p ds s).secUp = s.secUp := rfl
@[simp] theorem writeDests_stage2 (p : Option Pfx) (ds : List (Nat × Row)) (s : State) : (writeDests p ds s).stage2 = s.stage2 := rfl
@[simp] theorem writeDests_owners (p : Option Pfx) (ds : List (Nat × Row)) (s : State) : (writeDests p ds s).owners = s.owners := rfl
@[simp] theorem writeDests_scrub (p : Option Pfx) (ds : List (Nat × Row)) (s : State) : (writeDests p ds s).scrub = s.scrub := rfl
@[simp] theorem writeDests_fresh (p : Option Pfx) (ds : List (Nat × Row)) (s : State) : (writeDests p ds s).fresh = s.fresh := rfl
@[simp] theorem writeDests_condemned (p : Option Pfx) (ds : List (Nat × Row)) (s : State) : (writeDests p ds s).condemned = s.condemned := rfl
@[simp] theorem writeDests_dying (p : Option Pfx) (ds : List (Nat × Row)) (s : State) : (writeDests p ds s).dying = s.dying := rfl
@[simp] theorem writeDests_draws (p : Option Pfx) (ds : List (Nat × Row)) (s : State) : (writeDests p ds s).draws = s.draws := rfl
@[simp] theorem writeDests_spdm (p : Option Pfx) (ds : List (Nat × Row)) (s : State) : (writeDests p ds s).spdm = s.spdm := rfl
@[simp] theorem writeDests_fw (p : Option Pfx) (ds : List (Nat × Row)) (s : State) : (writeDests p ds s).fw = s.fw := rfl
@[simp] theorem writeDests_activation (p : Option Pfx) (ds : List (Nat × Row)) (s : State) : (writeDests p ds s).activation = s.activation := rfl
@[simp] theorem writeDests_fwStop (p : Option Pfx) (ds : List (Nat × Row)) (s : State) : (writeDests p ds s).fwStop = s.fwStop := rfl
@[simp] theorem writeDests_session (p : Option Pfx) (ds : List (Nat × Row)) (s : State) : (writeDests p ds s).session = s.session := rfl
@[simp] theorem writeDests_life (p : Option Pfx) (ds : List (Nat × Row)) (s : State) : (writeDests p ds s).life = s.life := rfl
@[simp] theorem writeDests_lifeSaved (p : Option Pfx) (ds : List (Nat × Row)) (s : State) : (writeDests p ds s).lifeSaved = s.lifeSaved := rfl
@[simp] theorem writeDests_sites (p : Option Pfx) (ds : List (Nat × Row)) (s : State) : (writeDests p ds s).sites = s.sites := rfl
@[simp] theorem writeDests_sitesSaved (p : Option Pfx) (ds : List (Nat × Row)) (s : State) : (writeDests p ds s).sitesSaved = s.sitesSaved := rfl
@[simp] theorem writeDests_retire (p : Option Pfx) (ds : List (Nat × Row)) (s : State) : (writeDests p ds s).retire = s.retire := rfl
@[simp] theorem writeDests_unlisted (p : Option Pfx) (ds : List (Nat × Row)) (s : State) : (writeDests p ds s).unlisted = s.unlisted := rfl
@[simp] theorem writeDests_pendSel (p : Option Pfx) (ds : List (Nat × Row)) (s : State) : (writeDests p ds s).pendSel = s.pendSel := rfl
@[simp] theorem writeDests_retiredPages (p : Option Pfx) (ds : List (Nat × Row)) (s : State) : (writeDests p ds s).retiredPages = s.retiredPages := rfl
@[simp] theorem writeDests_retiredWays (p : Option Pfx) (ds : List (Nat × Row)) (s : State) : (writeDests p ds s).retiredWays = s.retiredWays := rfl
@[simp] theorem writeDests_sparePorts (p : Option Pfx) (ds : List (Nat × Row)) (s : State) : (writeDests p ds s).sparePorts = s.sparePorts := rfl
@[simp] theorem writeDests_ploughDown (p : Option Pfx) (ds : List (Nat × Row)) (s : State) : (writeDests p ds s).ploughDown = s.ploughDown := rfl
@[simp] theorem writeDests_spares (p : Option Pfx) (ds : List (Nat × Row)) (s : State) : (writeDests p ds s).spares = s.spares := rfl
@[simp] theorem writeDests_diesOut (p : Option Pfx) (ds : List (Nat × Row)) (s : State) : (writeDests p ds s).diesOut = s.diesOut := rfl
@[simp] theorem writeDests_poweredBase (p : Option Pfx) (ds : List (Nat × Row)) (s : State) : (writeDests p ds s).poweredBase = s.poweredBase := rfl
@[simp] theorem writeDests_deadlinePast (p : Option Pfx) (ds : List (Nat × Row)) (s : State) : (writeDests p ds s).deadlinePast = s.deadlinePast := rfl
@[simp] theorem writeDests_resends (p : Option Pfx) (ds : List (Nat × Row)) (s : State) : (writeDests p ds s).resends = s.resends := rfl
@[simp] theorem writeDests_lost (p : Option Pfx) (ds : List (Nat × Row)) (s : State) : (writeDests p ds s).lost = s.lost := rfl
@[simp] theorem writeDests_pins (p : Option Pfx) (ds : List (Nat × Row)) (s : State) : (writeDests p ds s).pins = s.pins := rfl
@[simp] theorem writeDests_sleds (p : Option Pfx) (ds : List (Nat × Row)) (s : State) : (writeDests p ds s).sleds = s.sleds := rfl
@[simp] theorem execDests_inputs (ds : List (Nat × Row)) (s : State) : (execDests ds s).inputs = s.inputs := rfl
@[simp] theorem execDests_tick (ds : List (Nat × Row)) (s : State) : (execDests ds s).tick = s.tick := rfl
@[simp] theorem execDests_now (ds : List (Nat × Row)) (s : State) : (execDests ds s).now = s.now := rfl
@[simp] theorem execDests_clk (ds : List (Nat × Row)) (s : State) : (execDests ds s).clk = s.clk := rfl
@[simp] theorem execDests_fast (ds : List (Nat × Row)) (s : State) : (execDests ds s).fast = s.fast := rfl
@[simp] theorem execDests_cur (ds : List (Nat × Row)) (s : State) : (execDests ds s).cur = s.cur := rfl
@[simp] theorem execDests_lastCore (ds : List (Nat × Row)) (s : State) : (execDests ds s).lastCore = s.lastCore := rfl
@[simp] theorem execDests_lastSlot (ds : List (Nat × Row)) (s : State) : (execDests ds s).lastSlot = s.lastSlot := rfl
@[simp] theorem execDests_nextId (ds : List (Nat × Row)) (s : State) : (execDests ds s).nextId = s.nextId := rfl
@[simp] theorem execDests_cfg (ds : List (Nat × Row)) (s : State) : (execDests ds s).cfg = s.cfg := rfl
@[simp] theorem execDests_mem (ds : List (Nat × Row)) (s : State) : (execDests ds s).mem = s.mem := rfl
@[simp] theorem execDests_hostMem (ds : List (Nat × Row)) (s : State) : (execDests ds s).hostMem = s.hostMem := rfl
@[simp] theorem execDests_l1 (ds : List (Nat × Row)) (s : State) : (execDests ds s).l1 = s.l1 := rfl
@[simp] theorem execDests_wcb (ds : List (Nat × Row)) (s : State) : (execDests ds s).wcb = s.wcb := rfl
@[simp] theorem execDests_sharers (ds : List (Nat × Row)) (s : State) : (execDests ds s).sharers = s.sharers := rfl
@[simp] theorem execDests_gateways (ds : List (Nat × Row)) (s : State) : (execDests ds s).gateways = s.gateways := rfl
@[simp] theorem execDests_ilines (ds : List (Nat × Row)) (s : State) : (execDests ds s).ilines = s.ilines := rfl
@[simp] theorem execDests_tlb (ds : List (Nat × Row)) (s : State) : (execDests ds s).tlb = s.tlb := rfl
@[simp] theorem execDests_walks (ds : List (Nat × Row)) (s : State) : (execDests ds s).walks = s.walks := rfl
@[simp] theorem execDests_ops (ds : List (Nat × Row)) (s : State) : (execDests ds s).ops = s.ops := rfl
@[simp] theorem execDests_waiters (ds : List (Nat × Row)) (s : State) : (execDests ds s).waiters = s.waiters := rfl
@[simp] theorem execDests_teams (ds : List (Nat × Row)) (s : State) : (execDests ds s).teams = s.teams := rfl
@[simp] theorem execDests_tasks (ds : List (Nat × Row)) (s : State) : (execDests ds s).tasks = s.tasks := rfl
@[simp] theorem execDests_accepted (ds : List (Nat × Row)) (s : State) : (execDests ds s).accepted = s.accepted := rfl
@[simp] theorem execDests_barriers (ds : List (Nat × Row)) (s : State) : (execDests ds s).barriers = s.barriers := rfl
@[simp] theorem execDests_handles (ds : List (Nat × Row)) (s : State) : (execDests ds s).handles = s.handles := rfl
@[simp] theorem execDests_copies (ds : List (Nat × Row)) (s : State) : (execDests ds s).copies = s.copies := rfl
@[simp] theorem execDests_merges (ds : List (Nat × Row)) (s : State) : (execDests ds s).merges = s.merges := rfl
@[simp] theorem execDests_arrays (ds : List (Nat × Row)) (s : State) : (execDests ds s).arrays = s.arrays := rfl
@[simp] theorem execDests_suspended (ds : List (Nat × Row)) (s : State) : (execDests ds s).suspended = s.suspended := rfl
@[simp] theorem execDests_messages (ds : List (Nat × Row)) (s : State) : (execDests ds s).messages = s.messages := rfl
@[simp] theorem execDests_pages (ds : List (Nat × Row)) (s : State) : (execDests ds s).pages = s.pages := rfl
@[simp] theorem execDests_seals (ds : List (Nat × Row)) (s : State) : (execDests ds s).seals = s.seals := rfl
@[simp] theorem execDests_entries (ds : List (Nat × Row)) (s : State) : (execDests ds s).entries = s.entries := rfl
@[simp] theorem execDests_entryCache (ds : List (Nat × Row)) (s : State) : (execDests ds s).entryCache = s.entryCache := rfl
@[simp] theorem execDests_adu (ds : List (Nat × Row)) (s : State) : (execDests ds s).adu = s.adu := rfl
@[simp] theorem execDests_sealTable (ds : List (Nat × Row)) (s : State) : (execDests ds s).sealTable = s.sealTable := rfl
@[simp] theorem execDests_tenantSlots (ds : List (Nat × Row)) (s : State) : (execDests ds s).tenantSlots = s.tenantSlots := rfl
@[simp] theorem execDests_queues (ds : List (Nat × Row)) (s : State) : (execDests ds s).queues = s.queues := rfl
@[simp] theorem execDests_lastQueue (ds : List (Nat × Row)) (s : State) : (execDests ds s).lastQueue = s.lastQueue := rfl
@[simp] theorem execDests_vdevs (ds : List (Nat × Row)) (s : State) : (execDests ds s).vdevs = s.vdevs := rfl
@[simp] theorem execDests_msix (ds : List (Nat × Row)) (s : State) : (execDests ds s).msix = s.msix := rfl
@[simp] theorem execDests_out (ds : List (Nat × Row)) (s : State) : (execDests ds s).out = s.out := rfl
@[simp] theorem execDests_log (ds : List (Nat × Row)) (s : State) : (execDests ds s).log = s.log := rfl
@[simp] theorem execDests_dbgen (ds : List (Nat × Row)) (s : State) : (execDests ds s).dbgen = s.dbgen := rfl
@[simp] theorem execDests_stopLog (ds : List (Nat × Row)) (s : State) : (execDests ds s).stopLog = s.stopLog := rfl
@[simp] theorem execDests_pod (ds : List (Nat × Row)) (s : State) : (execDests ds s).pod = s.pod := rfl
@[simp] theorem execDests_tray (ds : List (Nat × Row)) (s : State) : (execDests ds s).tray = s.tray := rfl
@[simp] theorem execDests_downPorts (ds : List (Nat × Row)) (s : State) : (execDests ds s).downPorts = s.downPorts := rfl
@[simp] theorem execDests_retraining (ds : List (Nat × Row)) (s : State) : (execDests ds s).retraining = s.retraining := rfl
@[simp] theorem execDests_podBarriers (ds : List (Nat × Row)) (s : State) : (execDests ds s).podBarriers = s.podBarriers := rfl
@[simp] theorem execDests_worlds (ds : List (Nat × Row)) (s : State) : (execDests ds s).worlds = s.worlds := rfl
@[simp] theorem execDests_box (ds : List (Nat × Row)) (s : State) : (execDests ds s).box = s.box := rfl
@[simp] theorem execDests_ownership (ds : List (Nat × Row)) (s : State) : (execDests ds s).ownership = s.ownership := rfl
@[simp] theorem execDests_secUp (ds : List (Nat × Row)) (s : State) : (execDests ds s).secUp = s.secUp := rfl
@[simp] theorem execDests_stage2 (ds : List (Nat × Row)) (s : State) : (execDests ds s).stage2 = s.stage2 := rfl
@[simp] theorem execDests_owners (ds : List (Nat × Row)) (s : State) : (execDests ds s).owners = s.owners := rfl
@[simp] theorem execDests_scrub (ds : List (Nat × Row)) (s : State) : (execDests ds s).scrub = s.scrub := rfl
@[simp] theorem execDests_fresh (ds : List (Nat × Row)) (s : State) : (execDests ds s).fresh = s.fresh := rfl
@[simp] theorem execDests_condemned (ds : List (Nat × Row)) (s : State) : (execDests ds s).condemned = s.condemned := rfl
@[simp] theorem execDests_dying (ds : List (Nat × Row)) (s : State) : (execDests ds s).dying = s.dying := rfl
@[simp] theorem execDests_draws (ds : List (Nat × Row)) (s : State) : (execDests ds s).draws = s.draws := rfl
@[simp] theorem execDests_spdm (ds : List (Nat × Row)) (s : State) : (execDests ds s).spdm = s.spdm := rfl
@[simp] theorem execDests_fw (ds : List (Nat × Row)) (s : State) : (execDests ds s).fw = s.fw := rfl
@[simp] theorem execDests_activation (ds : List (Nat × Row)) (s : State) : (execDests ds s).activation = s.activation := rfl
@[simp] theorem execDests_fwStop (ds : List (Nat × Row)) (s : State) : (execDests ds s).fwStop = s.fwStop := rfl
@[simp] theorem execDests_session (ds : List (Nat × Row)) (s : State) : (execDests ds s).session = s.session := rfl
@[simp] theorem execDests_life (ds : List (Nat × Row)) (s : State) : (execDests ds s).life = s.life := rfl
@[simp] theorem execDests_lifeSaved (ds : List (Nat × Row)) (s : State) : (execDests ds s).lifeSaved = s.lifeSaved := rfl
@[simp] theorem execDests_sites (ds : List (Nat × Row)) (s : State) : (execDests ds s).sites = s.sites := rfl
@[simp] theorem execDests_sitesSaved (ds : List (Nat × Row)) (s : State) : (execDests ds s).sitesSaved = s.sitesSaved := rfl
@[simp] theorem execDests_retire (ds : List (Nat × Row)) (s : State) : (execDests ds s).retire = s.retire := rfl
@[simp] theorem execDests_unlisted (ds : List (Nat × Row)) (s : State) : (execDests ds s).unlisted = s.unlisted := rfl
@[simp] theorem execDests_pendSel (ds : List (Nat × Row)) (s : State) : (execDests ds s).pendSel = s.pendSel := rfl
@[simp] theorem execDests_retiredPages (ds : List (Nat × Row)) (s : State) : (execDests ds s).retiredPages = s.retiredPages := rfl
@[simp] theorem execDests_retiredWays (ds : List (Nat × Row)) (s : State) : (execDests ds s).retiredWays = s.retiredWays := rfl
@[simp] theorem execDests_sparePorts (ds : List (Nat × Row)) (s : State) : (execDests ds s).sparePorts = s.sparePorts := rfl
@[simp] theorem execDests_ploughDown (ds : List (Nat × Row)) (s : State) : (execDests ds s).ploughDown = s.ploughDown := rfl
@[simp] theorem execDests_spares (ds : List (Nat × Row)) (s : State) : (execDests ds s).spares = s.spares := rfl
@[simp] theorem execDests_diesOut (ds : List (Nat × Row)) (s : State) : (execDests ds s).diesOut = s.diesOut := rfl
@[simp] theorem execDests_poweredBase (ds : List (Nat × Row)) (s : State) : (execDests ds s).poweredBase = s.poweredBase := rfl
@[simp] theorem execDests_deadlinePast (ds : List (Nat × Row)) (s : State) : (execDests ds s).deadlinePast = s.deadlinePast := rfl
@[simp] theorem execDests_resends (ds : List (Nat × Row)) (s : State) : (execDests ds s).resends = s.resends := rfl
@[simp] theorem execDests_lost (ds : List (Nat × Row)) (s : State) : (execDests ds s).lost = s.lost := rfl
@[simp] theorem execDests_pins (ds : List (Nat × Row)) (s : State) : (execDests ds s).pins = s.pins := rfl
@[simp] theorem execDests_sleds (ds : List (Nat × Row)) (s : State) : (execDests ds s).sleds = s.sleds := rfl
@[simp] theorem raiseFlags_inputs (fl : BitVec 5) (s : State) : (raiseFlags fl s).inputs = s.inputs := rfl
@[simp] theorem raiseFlags_tick (fl : BitVec 5) (s : State) : (raiseFlags fl s).tick = s.tick := rfl
@[simp] theorem raiseFlags_now (fl : BitVec 5) (s : State) : (raiseFlags fl s).now = s.now := rfl
@[simp] theorem raiseFlags_clk (fl : BitVec 5) (s : State) : (raiseFlags fl s).clk = s.clk := rfl
@[simp] theorem raiseFlags_fast (fl : BitVec 5) (s : State) : (raiseFlags fl s).fast = s.fast := rfl
@[simp] theorem raiseFlags_cur (fl : BitVec 5) (s : State) : (raiseFlags fl s).cur = s.cur := rfl
@[simp] theorem raiseFlags_lastCore (fl : BitVec 5) (s : State) : (raiseFlags fl s).lastCore = s.lastCore := rfl
@[simp] theorem raiseFlags_lastSlot (fl : BitVec 5) (s : State) : (raiseFlags fl s).lastSlot = s.lastSlot := rfl
@[simp] theorem raiseFlags_nextId (fl : BitVec 5) (s : State) : (raiseFlags fl s).nextId = s.nextId := rfl
@[simp] theorem raiseFlags_cfg (fl : BitVec 5) (s : State) : (raiseFlags fl s).cfg = s.cfg := rfl
@[simp] theorem raiseFlags_mem (fl : BitVec 5) (s : State) : (raiseFlags fl s).mem = s.mem := rfl
@[simp] theorem raiseFlags_hostMem (fl : BitVec 5) (s : State) : (raiseFlags fl s).hostMem = s.hostMem := rfl
@[simp] theorem raiseFlags_l1 (fl : BitVec 5) (s : State) : (raiseFlags fl s).l1 = s.l1 := rfl
@[simp] theorem raiseFlags_wcb (fl : BitVec 5) (s : State) : (raiseFlags fl s).wcb = s.wcb := rfl
@[simp] theorem raiseFlags_sharers (fl : BitVec 5) (s : State) : (raiseFlags fl s).sharers = s.sharers := rfl
@[simp] theorem raiseFlags_gateways (fl : BitVec 5) (s : State) : (raiseFlags fl s).gateways = s.gateways := rfl
@[simp] theorem raiseFlags_ilines (fl : BitVec 5) (s : State) : (raiseFlags fl s).ilines = s.ilines := rfl
@[simp] theorem raiseFlags_tlb (fl : BitVec 5) (s : State) : (raiseFlags fl s).tlb = s.tlb := rfl
@[simp] theorem raiseFlags_walks (fl : BitVec 5) (s : State) : (raiseFlags fl s).walks = s.walks := rfl
@[simp] theorem raiseFlags_ops (fl : BitVec 5) (s : State) : (raiseFlags fl s).ops = s.ops := rfl
@[simp] theorem raiseFlags_waiters (fl : BitVec 5) (s : State) : (raiseFlags fl s).waiters = s.waiters := rfl
@[simp] theorem raiseFlags_teams (fl : BitVec 5) (s : State) : (raiseFlags fl s).teams = s.teams := rfl
@[simp] theorem raiseFlags_tasks (fl : BitVec 5) (s : State) : (raiseFlags fl s).tasks = s.tasks := rfl
@[simp] theorem raiseFlags_accepted (fl : BitVec 5) (s : State) : (raiseFlags fl s).accepted = s.accepted := rfl
@[simp] theorem raiseFlags_barriers (fl : BitVec 5) (s : State) : (raiseFlags fl s).barriers = s.barriers := rfl
@[simp] theorem raiseFlags_handles (fl : BitVec 5) (s : State) : (raiseFlags fl s).handles = s.handles := rfl
@[simp] theorem raiseFlags_copies (fl : BitVec 5) (s : State) : (raiseFlags fl s).copies = s.copies := rfl
@[simp] theorem raiseFlags_merges (fl : BitVec 5) (s : State) : (raiseFlags fl s).merges = s.merges := rfl
@[simp] theorem raiseFlags_arrays (fl : BitVec 5) (s : State) : (raiseFlags fl s).arrays = s.arrays := rfl
@[simp] theorem raiseFlags_suspended (fl : BitVec 5) (s : State) : (raiseFlags fl s).suspended = s.suspended := rfl
@[simp] theorem raiseFlags_messages (fl : BitVec 5) (s : State) : (raiseFlags fl s).messages = s.messages := rfl
@[simp] theorem raiseFlags_pages (fl : BitVec 5) (s : State) : (raiseFlags fl s).pages = s.pages := rfl
@[simp] theorem raiseFlags_seals (fl : BitVec 5) (s : State) : (raiseFlags fl s).seals = s.seals := rfl
@[simp] theorem raiseFlags_entries (fl : BitVec 5) (s : State) : (raiseFlags fl s).entries = s.entries := rfl
@[simp] theorem raiseFlags_entryCache (fl : BitVec 5) (s : State) : (raiseFlags fl s).entryCache = s.entryCache := rfl
@[simp] theorem raiseFlags_adu (fl : BitVec 5) (s : State) : (raiseFlags fl s).adu = s.adu := rfl
@[simp] theorem raiseFlags_sealTable (fl : BitVec 5) (s : State) : (raiseFlags fl s).sealTable = s.sealTable := rfl
@[simp] theorem raiseFlags_tenantSlots (fl : BitVec 5) (s : State) : (raiseFlags fl s).tenantSlots = s.tenantSlots := rfl
@[simp] theorem raiseFlags_queues (fl : BitVec 5) (s : State) : (raiseFlags fl s).queues = s.queues := rfl
@[simp] theorem raiseFlags_lastQueue (fl : BitVec 5) (s : State) : (raiseFlags fl s).lastQueue = s.lastQueue := rfl
@[simp] theorem raiseFlags_vdevs (fl : BitVec 5) (s : State) : (raiseFlags fl s).vdevs = s.vdevs := rfl
@[simp] theorem raiseFlags_msix (fl : BitVec 5) (s : State) : (raiseFlags fl s).msix = s.msix := rfl
@[simp] theorem raiseFlags_out (fl : BitVec 5) (s : State) : (raiseFlags fl s).out = s.out := rfl
@[simp] theorem raiseFlags_log (fl : BitVec 5) (s : State) : (raiseFlags fl s).log = s.log := rfl
@[simp] theorem raiseFlags_dbgen (fl : BitVec 5) (s : State) : (raiseFlags fl s).dbgen = s.dbgen := rfl
@[simp] theorem raiseFlags_stopLog (fl : BitVec 5) (s : State) : (raiseFlags fl s).stopLog = s.stopLog := rfl
@[simp] theorem raiseFlags_pod (fl : BitVec 5) (s : State) : (raiseFlags fl s).pod = s.pod := rfl
@[simp] theorem raiseFlags_tray (fl : BitVec 5) (s : State) : (raiseFlags fl s).tray = s.tray := rfl
@[simp] theorem raiseFlags_downPorts (fl : BitVec 5) (s : State) : (raiseFlags fl s).downPorts = s.downPorts := rfl
@[simp] theorem raiseFlags_retraining (fl : BitVec 5) (s : State) : (raiseFlags fl s).retraining = s.retraining := rfl
@[simp] theorem raiseFlags_podBarriers (fl : BitVec 5) (s : State) : (raiseFlags fl s).podBarriers = s.podBarriers := rfl
@[simp] theorem raiseFlags_worlds (fl : BitVec 5) (s : State) : (raiseFlags fl s).worlds = s.worlds := rfl
@[simp] theorem raiseFlags_box (fl : BitVec 5) (s : State) : (raiseFlags fl s).box = s.box := rfl
@[simp] theorem raiseFlags_ownership (fl : BitVec 5) (s : State) : (raiseFlags fl s).ownership = s.ownership := rfl
@[simp] theorem raiseFlags_secUp (fl : BitVec 5) (s : State) : (raiseFlags fl s).secUp = s.secUp := rfl
@[simp] theorem raiseFlags_stage2 (fl : BitVec 5) (s : State) : (raiseFlags fl s).stage2 = s.stage2 := rfl
@[simp] theorem raiseFlags_owners (fl : BitVec 5) (s : State) : (raiseFlags fl s).owners = s.owners := rfl
@[simp] theorem raiseFlags_scrub (fl : BitVec 5) (s : State) : (raiseFlags fl s).scrub = s.scrub := rfl
@[simp] theorem raiseFlags_fresh (fl : BitVec 5) (s : State) : (raiseFlags fl s).fresh = s.fresh := rfl
@[simp] theorem raiseFlags_condemned (fl : BitVec 5) (s : State) : (raiseFlags fl s).condemned = s.condemned := rfl
@[simp] theorem raiseFlags_dying (fl : BitVec 5) (s : State) : (raiseFlags fl s).dying = s.dying := rfl
@[simp] theorem raiseFlags_draws (fl : BitVec 5) (s : State) : (raiseFlags fl s).draws = s.draws := rfl
@[simp] theorem raiseFlags_spdm (fl : BitVec 5) (s : State) : (raiseFlags fl s).spdm = s.spdm := rfl
@[simp] theorem raiseFlags_fw (fl : BitVec 5) (s : State) : (raiseFlags fl s).fw = s.fw := rfl
@[simp] theorem raiseFlags_activation (fl : BitVec 5) (s : State) : (raiseFlags fl s).activation = s.activation := rfl
@[simp] theorem raiseFlags_fwStop (fl : BitVec 5) (s : State) : (raiseFlags fl s).fwStop = s.fwStop := rfl
@[simp] theorem raiseFlags_session (fl : BitVec 5) (s : State) : (raiseFlags fl s).session = s.session := rfl
@[simp] theorem raiseFlags_life (fl : BitVec 5) (s : State) : (raiseFlags fl s).life = s.life := rfl
@[simp] theorem raiseFlags_lifeSaved (fl : BitVec 5) (s : State) : (raiseFlags fl s).lifeSaved = s.lifeSaved := rfl
@[simp] theorem raiseFlags_sites (fl : BitVec 5) (s : State) : (raiseFlags fl s).sites = s.sites := rfl
@[simp] theorem raiseFlags_sitesSaved (fl : BitVec 5) (s : State) : (raiseFlags fl s).sitesSaved = s.sitesSaved := rfl
@[simp] theorem raiseFlags_retire (fl : BitVec 5) (s : State) : (raiseFlags fl s).retire = s.retire := rfl
@[simp] theorem raiseFlags_unlisted (fl : BitVec 5) (s : State) : (raiseFlags fl s).unlisted = s.unlisted := rfl
@[simp] theorem raiseFlags_pendSel (fl : BitVec 5) (s : State) : (raiseFlags fl s).pendSel = s.pendSel := rfl
@[simp] theorem raiseFlags_retiredPages (fl : BitVec 5) (s : State) : (raiseFlags fl s).retiredPages = s.retiredPages := rfl
@[simp] theorem raiseFlags_retiredWays (fl : BitVec 5) (s : State) : (raiseFlags fl s).retiredWays = s.retiredWays := rfl
@[simp] theorem raiseFlags_sparePorts (fl : BitVec 5) (s : State) : (raiseFlags fl s).sparePorts = s.sparePorts := rfl
@[simp] theorem raiseFlags_ploughDown (fl : BitVec 5) (s : State) : (raiseFlags fl s).ploughDown = s.ploughDown := rfl
@[simp] theorem raiseFlags_spares (fl : BitVec 5) (s : State) : (raiseFlags fl s).spares = s.spares := rfl
@[simp] theorem raiseFlags_diesOut (fl : BitVec 5) (s : State) : (raiseFlags fl s).diesOut = s.diesOut := rfl
@[simp] theorem raiseFlags_poweredBase (fl : BitVec 5) (s : State) : (raiseFlags fl s).poweredBase = s.poweredBase := rfl
@[simp] theorem raiseFlags_deadlinePast (fl : BitVec 5) (s : State) : (raiseFlags fl s).deadlinePast = s.deadlinePast := rfl
@[simp] theorem raiseFlags_resends (fl : BitVec 5) (s : State) : (raiseFlags fl s).resends = s.resends := rfl
@[simp] theorem raiseFlags_lost (fl : BitVec 5) (s : State) : (raiseFlags fl s).lost = s.lost := rfl
@[simp] theorem raiseFlags_pins (fl : BitVec 5) (s : State) : (raiseFlags fl s).pins = s.pins := rfl
@[simp] theorem raiseFlags_sleds (fl : BitVec 5) (s : State) : (raiseFlags fl s).sleds = s.sleds := rfl

/-! ## The warp record -/

@[simp] theorem dirtied_core (w : Warp) (rs : List Nat) : (dirtied w rs).core = w.core := rfl
@[simp] theorem dirtied_slot (w : Warp) (rs : List Nat) : (dirtied w rs).slot = w.slot := rfl
@[simp] theorem dirtied_team (w : Warp) (rs : List Nat) : (dirtied w rs).team = w.team := rfl
@[simp] theorem dirtied_wid (w : Warp) (rs : List Nat) : (dirtied w rs).wid = w.wid := rfl
@[simp] theorem dirtied_role (w : Warp) (rs : List Nat) : (dirtied w rs).role = w.role := rfl
@[simp] theorem dirtied_frags (w : Warp) (rs : List Nat) : (dirtied w rs).frags = w.frags := rfl
@[simp] theorem dirtied_nextFrag (w : Warp) (rs : List Nat) : (dirtied w rs).nextFrag = w.nextFrag := rfl
@[simp] theorem dirtied_nextSplit (w : Warp) (rs : List Nat) : (dirtied w rs).nextSplit = w.nextSplit := rfl
@[simp] theorem dirtied_mode (w : Warp) (rs : List Nat) : (dirtied w rs).mode = w.mode := rfl
@[simp] theorem dirtied_flags (w : Warp) (rs : List Nat) : (dirtied w rs).flags = w.flags := rfl
@[simp] theorem dirtied_cntLd (w : Warp) (rs : List Nat) : (dirtied w rs).cntLd = w.cntLd := rfl
@[simp] theorem dirtied_cntSt (w : Warp) (rs : List Nat) : (dirtied w rs).cntSt = w.cntSt := rfl
@[simp] theorem dirtied_cntCp (w : Warp) (rs : List Nat) : (dirtied w rs).cntCp = w.cntCp := rfl
@[simp] theorem dirtied_cntTl (w : Warp) (rs : List Nat) : (dirtied w rs).cntTl = w.cntTl := rfl
@[simp] theorem dirtied_link (w : Warp) (rs : List Nat) : (dirtied w rs).link = w.link := rfl
@[simp] theorem dirtied_onCore (w : Warp) (rs : List Nat) : (dirtied w rs).onCore = w.onCore := rfl
@[simp] theorem dirtied_spill (w : Warp) (rs : List Nat) : (dirtied w rs).spill = w.spill := rfl
@[simp] theorem dirtied_regs (w : Warp) (rs : List Nat) : (dirtied w rs).regs = w.regs := rfl
@[simp] theorem dirtied_clockHi (w : Warp) (rs : List Nat) : (dirtied w rs).clockHi = w.clockHi := rfl
@[simp] theorem dirtied_tokens (w : Warp) (rs : List Nat) : (dirtied w rs).tokens = w.tokens := rfl
@[simp] theorem dirtied_kept (w : Warp) (rs : List Nat) : (dirtied w rs).kept = w.kept := rfl
@[simp] theorem dirtied_served (w : Warp) (rs : List Nat) : (dirtied w rs).served = w.served := rfl
@[simp] theorem dirtied_pending (w : Warp) (rs : List Nat) : (dirtied w rs).pending = w.pending := rfl
@[simp] theorem dirtied_trap (w : Warp) (rs : List Nat) : (dirtied w rs).trap = w.trap := rfl
@[simp] theorem dirtied_holds (w : Warp) (rs : List Nat) : (dirtied w rs).holds = w.holds := rfl
@[simp] theorem dirtied_exited (w : Warp) (rs : List Nat) : (dirtied w rs).exited = w.exited := rfl
@[simp] theorem dirtied_passed (w : Warp) (rs : List Nat) : (dirtied w rs).passed = w.passed := rfl
@[simp] theorem dirtied_blocked (w : Warp) (rs : List Nat) : (dirtied w rs).blocked = w.blocked := rfl
@[simp] theorem dirtied_departing (w : Warp) (rs : List Nat) : (dirtied w rs).departing = w.departing := rfl
@[simp] theorem dirtied_leftAt (w : Warp) (rs : List Nat) : (dirtied w rs).leftAt = w.leftAt := rfl
@[simp] theorem dirtied_halted (w : Warp) (rs : List Nat) : (dirtied w rs).halted = w.halted := rfl
@[simp] theorem dirtied_saving (w : Warp) (rs : List Nat) : (dirtied w rs).saving = w.saving := rfl
@[simp] theorem dirtied_saved (w : Warp) (rs : List Nat) : (dirtied w rs).saved = w.saved := rfl
@[simp] theorem dirtied_ended (w : Warp) (rs : List Nat) : (dirtied w rs).ended = w.ended := rfl
@[simp] theorem dirtied_sig (w : Warp) (rs : List Nat) : (dirtied w rs).sig = w.sig := rfl
@[simp] theorem dirtied_sigLog (w : Warp) (rs : List Nat) : (dirtied w rs).sigLog = w.sigLog := rfl
@[simp] theorem dirtied_sigBase (w : Warp) (rs : List Nat) : (dirtied w rs).sigBase = w.sigBase := rfl
@[simp] theorem dirtied_xchg (w : Warp) (rs : List Nat) : (dirtied w rs).xchg = w.xchg := rfl
@[simp] theorem dirtied_xchgSent (w : Warp) (rs : List Nat) : (dirtied w rs).xchgSent = w.xchgSent := rfl
@[simp] theorem dirtied_dirty (w : Warp) (rs : List Nat) :
    (dirtied w rs).dirty = rs.foldl (fun m r => m ||| dirtyBit r) w.dirty := rfl
@[simp] theorem onFrag_core (w : Warp) (i : Nat) (g : Frag → Frag) : (onFrag w i g).core = w.core := rfl
@[simp] theorem onFrag_slot (w : Warp) (i : Nat) (g : Frag → Frag) : (onFrag w i g).slot = w.slot := rfl
@[simp] theorem onFrag_team (w : Warp) (i : Nat) (g : Frag → Frag) : (onFrag w i g).team = w.team := rfl
@[simp] theorem onFrag_wid (w : Warp) (i : Nat) (g : Frag → Frag) : (onFrag w i g).wid = w.wid := rfl
@[simp] theorem onFrag_role (w : Warp) (i : Nat) (g : Frag → Frag) : (onFrag w i g).role = w.role := rfl
@[simp] theorem onFrag_nextFrag (w : Warp) (i : Nat) (g : Frag → Frag) : (onFrag w i g).nextFrag = w.nextFrag := rfl
@[simp] theorem onFrag_nextSplit (w : Warp) (i : Nat) (g : Frag → Frag) : (onFrag w i g).nextSplit = w.nextSplit := rfl
@[simp] theorem onFrag_mode (w : Warp) (i : Nat) (g : Frag → Frag) : (onFrag w i g).mode = w.mode := rfl
@[simp] theorem onFrag_flags (w : Warp) (i : Nat) (g : Frag → Frag) : (onFrag w i g).flags = w.flags := rfl
@[simp] theorem onFrag_cntLd (w : Warp) (i : Nat) (g : Frag → Frag) : (onFrag w i g).cntLd = w.cntLd := rfl
@[simp] theorem onFrag_cntSt (w : Warp) (i : Nat) (g : Frag → Frag) : (onFrag w i g).cntSt = w.cntSt := rfl
@[simp] theorem onFrag_cntCp (w : Warp) (i : Nat) (g : Frag → Frag) : (onFrag w i g).cntCp = w.cntCp := rfl
@[simp] theorem onFrag_cntTl (w : Warp) (i : Nat) (g : Frag → Frag) : (onFrag w i g).cntTl = w.cntTl := rfl
@[simp] theorem onFrag_dirty (w : Warp) (i : Nat) (g : Frag → Frag) : (onFrag w i g).dirty = w.dirty := rfl
@[simp] theorem onFrag_link (w : Warp) (i : Nat) (g : Frag → Frag) : (onFrag w i g).link = w.link := rfl
@[simp] theorem onFrag_onCore (w : Warp) (i : Nat) (g : Frag → Frag) : (onFrag w i g).onCore = w.onCore := rfl
@[simp] theorem onFrag_spill (w : Warp) (i : Nat) (g : Frag → Frag) : (onFrag w i g).spill = w.spill := rfl
@[simp] theorem onFrag_regs (w : Warp) (i : Nat) (g : Frag → Frag) : (onFrag w i g).regs = w.regs := rfl
@[simp] theorem onFrag_clockHi (w : Warp) (i : Nat) (g : Frag → Frag) : (onFrag w i g).clockHi = w.clockHi := rfl
@[simp] theorem onFrag_tokens (w : Warp) (i : Nat) (g : Frag → Frag) : (onFrag w i g).tokens = w.tokens := rfl
@[simp] theorem onFrag_kept (w : Warp) (i : Nat) (g : Frag → Frag) : (onFrag w i g).kept = w.kept := rfl
@[simp] theorem onFrag_served (w : Warp) (i : Nat) (g : Frag → Frag) : (onFrag w i g).served = w.served := rfl
@[simp] theorem onFrag_pending (w : Warp) (i : Nat) (g : Frag → Frag) : (onFrag w i g).pending = w.pending := rfl
@[simp] theorem onFrag_trap (w : Warp) (i : Nat) (g : Frag → Frag) : (onFrag w i g).trap = w.trap := rfl
@[simp] theorem onFrag_holds (w : Warp) (i : Nat) (g : Frag → Frag) : (onFrag w i g).holds = w.holds := rfl
@[simp] theorem onFrag_exited (w : Warp) (i : Nat) (g : Frag → Frag) : (onFrag w i g).exited = w.exited := rfl
@[simp] theorem onFrag_passed (w : Warp) (i : Nat) (g : Frag → Frag) : (onFrag w i g).passed = w.passed := rfl
@[simp] theorem onFrag_blocked (w : Warp) (i : Nat) (g : Frag → Frag) : (onFrag w i g).blocked = w.blocked := rfl
@[simp] theorem onFrag_departing (w : Warp) (i : Nat) (g : Frag → Frag) : (onFrag w i g).departing = w.departing := rfl
@[simp] theorem onFrag_leftAt (w : Warp) (i : Nat) (g : Frag → Frag) : (onFrag w i g).leftAt = w.leftAt := rfl
@[simp] theorem onFrag_halted (w : Warp) (i : Nat) (g : Frag → Frag) : (onFrag w i g).halted = w.halted := rfl
@[simp] theorem onFrag_saving (w : Warp) (i : Nat) (g : Frag → Frag) : (onFrag w i g).saving = w.saving := rfl
@[simp] theorem onFrag_saved (w : Warp) (i : Nat) (g : Frag → Frag) : (onFrag w i g).saved = w.saved := rfl
@[simp] theorem onFrag_ended (w : Warp) (i : Nat) (g : Frag → Frag) : (onFrag w i g).ended = w.ended := rfl
@[simp] theorem onFrag_sig (w : Warp) (i : Nat) (g : Frag → Frag) : (onFrag w i g).sig = w.sig := rfl
@[simp] theorem onFrag_sigLog (w : Warp) (i : Nat) (g : Frag → Frag) : (onFrag w i g).sigLog = w.sigLog := rfl
@[simp] theorem onFrag_sigBase (w : Warp) (i : Nat) (g : Frag → Frag) : (onFrag w i g).sigBase = w.sigBase := rfl
@[simp] theorem onFrag_xchg (w : Warp) (i : Nat) (g : Frag → Frag) : (onFrag w i g).xchg = w.xchg := rfl
@[simp] theorem onFrag_xchgSent (w : Warp) (i : Nat) (g : Frag → Frag) : (onFrag w i g).xchgSent = w.xchgSent := rfl

end Sys2Proof.Machine
end

