-- ==== Sys2Proof/Laws/Retire.lean ====
section
/-! SUPPORT. What leaving an instruction does: the issuing warp and fragment read back, `goto`, and the shared shapes `compute`,
`unary`, `binary` and `ternary`, each said once. -/

namespace Sys2Proof.Machine

open Sys2Proof Sys2Proof.Safety

/-! ## Reading back -/

theorem me_setMe (s : State) (w : Warp) (h : s.cur.warp < s.warps.length) : me (setMe s w) = w := by
  simp [me, List.getD, h]

theorem me_setFr (s : State) (f : Frag) (h : s.cur.warp < s.warps.length) :
    me (setFr s f) = { me s with frags := (me s).frags.set s.cur.frag f } := me_setMe _ _ h

theorem fr_setFr (s : State) (f : Frag) (h : s.cur.warp < s.warps.length) (k : s.cur.frag < (me s).frags.length) :
    fr (setFr s f) = f := by
  simp [fr, me_setFr _ _ h, List.getD, k]

@[simp] theorem me_countPerf (s : State) (t k n : Nat) : me (countPerf s t k n) = me s := rfl
@[simp] theorem fr_countPerf (s : State) (t k n : Nat) : fr (countPerf s t k n) = fr s := rfl
@[simp] theorem me_countIssue (s : State) : me (countIssue s) = me s := rfl
@[simp] theorem fr_countIssue (s : State) : fr (countIssue s) = fr s := rfl

/-! ## Lanes -/

theorem laneAt_rowOf (f : Nat → Lane) (l : Nat) (h : l < 32) : laneAt (rowOf f) l = f l := by
  have e : laneIdx = List.range 32 := rfl
  simp [laneAt, rowOf, e, List.getD, List.getElem?_range h]

theorem laneAt_writeRow (old v : Row) (a z : Word) (l : Nat) (h : l < 32) :
    laneAt (writeRow old v a z) l = if inMask a l then laneAt v l else if inMask z l then {} else laneAt old l :=
  laneAt_rowOf _ l h

/-! ## The parts of a state that writing registers leaves alone -/

/-- `t` differs from `s` in the registers `rs` of the issuing warp, its scoreboard and DIRTY, and the model's next number. -/
structure Touched (rs : List Nat) (s t : State) : Prop where
  cur : t.cur = s.cur
  frags : (me t).frags = (me s).frags
  regs : ∀ r, r ∉ rs → regOf (me t) r = regOf (me s) r
  dirty : (me t).dirty = rs.foldl (fun m r => m ||| dirtyBit r) (me s).dirty
  warp : warpRest (me t) = warpRest (me s)
  stays : (me t).departing = (me s).departing ∧ (me t).blocked = (me s).blocked ∧ (me t).leftAt = (me s).leftAt
  count : t.warps.length = s.warps.length
  warps : ∀ i, i ≠ s.cur.warp → t.warps[i]? = s.warps[i]?
  mem : t.mem = s.mem
  teams : t.teams = s.teams
  tasks : t.tasks = s.tasks
  package : packageRest t = packageRest s

theorem Touched.refl (s : State) : Touched [] s s :=
  ⟨rfl, rfl, fun _ _ => rfl, rfl, rfl, ⟨rfl, rfl, rfl⟩, rfl, fun _ _ => rfl, rfl, rfl, rfl, rfl⟩

theorem warpRest_team {v w : Warp} (h : warpRest v = warpRest w) : v.team = w.team := by
  have := congrArg Warp.team h
  exact this

theorem launchOf_congr {s t : State} {v w : Warp} (ht : t.teams = s.teams) (hk : t.tasks = s.tasks) (h : v.team = w.team) :
    launchOf t v = launchOf s w := by
  simp [launchOf, taskOf, teamOf, teamById, taskAt, ht, hk, h]

theorem set_counts (l : List Word) (k : Nat) (v : Word) (hk : k < 3) :
    (((l.set k v).set 0 0).set 1 0).set 2 0 = ((l.set 0 0).set 1 0).set 2 0 := by
  have e : k = 0 ∨ k = 1 ∨ k = 2 := by omega
  rcases e with rfl | rfl | rfl <;> rcases l with _ | ⟨a, _ | ⟨b, _ | ⟨c, l⟩⟩⟩ <;> rfl

/-- The issue counts of a team are no part of `packageRest`. -/
theorem packageRest_countPerf (s : State) (t k n : Nat) (hk : k < 3) : packageRest (countPerf s t k n) = packageRest s := by
  have h : ∀ ts : List Team, (updateFirst (fun x => x.id == t)
      (fun x => { x with perf := x.perf.set k (x.perf.getD k 0 + BitVec.ofNat 32 n) }) ts).map
        (fun x => { x with perf := ((x.perf.set 0 0).set 1 0).set 2 0 }) =
      ts.map (fun x => { x with perf := ((x.perf.set 0 0).set 1 0).set 2 0 }) := by
    intro ts
    induction ts with
    | nil => rfl
    | cons x xs ih =>
      simp only [updateFirst]
      split
      · rw [List.map_cons, List.map_cons, set_counts _ _ _ hk]
      · rw [List.map_cons, List.map_cons, ih]
  simp only [packageRest, countPerf, h]

theorem packageRest_countIssue (s : State) : packageRest (countIssue s) = packageRest s := by
  rw [countIssue, packageRest_countPerf _ _ _ _ (by omega), packageRest_countPerf _ _ _ _ (by omega),
    packageRest_countPerf _ _ _ _ (by omega)]

/-- Leaving for `pc` after registers have been written, `c` being the state with the issue counted. -/
theorem counted_goesTo {rs : List Nat} {s t : State} (c : State) (leave : Bool) (pc : Pc) (hw : s.cur.warp < s.warps.length)
    (hf : s.cur.frag < (me s).frags.length) (h : Touched rs s t) (cc : c.cur = t.cur) (cw : c.warps = t.warps)
    (cm : c.mem = t.mem) (cp : packageRest c = packageRest t)
    (hleave : leave = true → (launchOf s (me s)).travelling = true) :
    let u := setFr c { fr t with pc := pc, wait := .none, compared := false }
    GoesTo pc rs s (if leave then setMe u { me u with departing := true, blocked := true, leftAt := (fr t).pc } else u) := by
  have hw' : t.cur.warp < t.warps.length := by rw [h.cur, h.count]; exact hw
  have hf' : t.cur.frag < (me t).frags.length := by rw [h.cur, h.frags]; exact hf
  have hfr : fr t = fr s := by simp [fr, h.frags, h.cur]
  have hmc : me c = me t := by simp [me, cc, cw]
  -- the state after the fragment has been moved, and after a departure has been marked
  intro u
  have hwc : c.cur.warp < c.warps.length := by rw [cc, cw]; exact hw'
  have hu : me u = { me t with frags := (me t).frags.set t.cur.frag { fr t with pc := pc, wait := .none, compared := false } } := by
    have := me_setFr c { fr t with pc := pc, wait := .none, compared := false } hwc
    rw [hmc, cc] at this; exact this
  have hcu : u.cur.warp < u.warps.length := by simpa [u] using hwc
  have huc : u.cur = s.cur := cc.trans h.cur
  have hother : ∀ i, i ≠ s.cur.warp → u.warps[i]? = t.warps[i]? := by
    intro i hi
    have hne : ¬ t.cur.warp = i := by rw [h.cur]; exact fun e => hi e.symm
    simp [u, cc, cw, hne]
  have hmem : u.mem = t.mem := cm
  have key : ∀ v : State, v.cur = s.cur → (me v).frags = (me u).frags → (me v).regs = (me u).regs →
      (me v).dirty = (me u).dirty → warpRest (me v) = warpRest (me u) → (∀ i, i ≠ s.cur.warp → v.warps[i]? = t.warps[i]?) →
      ((launchOf s (me s)).travelling = false →
        (me v).departing = (me t).departing ∧ (me v).blocked = (me t).blocked ∧ (me v).leftAt = (me t).leftAt) →
      v.mem = t.mem → packageRest v = packageRest t → GoesTo pc rs s v := by
    intro v hc h1 h2 h3 h4 h5 h6 h7 h8
    have hv : fr v = { fr t with pc := pc, wait := .none, compared := false } := by
      simp [fr, hc, h1, hu, h.cur, List.getD, h.frags, hf]
    refine ⟨?_, ?_, ?_, ?_, ?_, ?_, ?_, ?_, ?_, ?_, ?_, ?_⟩
    · rw [hv]
    · rw [hv]
    · rw [hv, hfr]; rfl
    · intro j hj
      rw [h1, hu, ← h.frags]
      simp [h.cur, Ne.symm hj]
    · intro r hr
      rw [← h.regs r hr]; simp [regOf, h2, hu]
    · rw [h3, hu, ← h.dirty]
    · rw [h4, hu, ← h.warp]; rfl
    · intro i hi; rw [h5 i hi, h.warps i hi]
    · intro hq
      obtain ⟨a, b, c⟩ := h6 hq
      exact ⟨a.trans h.stays.1, b.trans h.stays.2.1, c.trans h.stays.2.2⟩
    · intro a; rw [h7, h.mem]
    · intro a; rw [h7, h.mem]
    · rw [h8, h.package]
  have hpk : packageRest u = packageRest t := (show packageRest u = packageRest c from rfl).trans cp
  split
  · rename_i hl
    apply key
    · simp [huc]
    · rw [me_setMe _ _ hcu]
    · rw [me_setMe _ _ hcu]
    · rw [me_setMe _ _ hcu]
    · rw [me_setMe _ _ hcu]; rfl
    · intro i hi
      have hne : ¬ u.cur.warp = i := by rw [huc]; exact fun e => hi e.symm
      rw [← hother i hi]
      simp [hne]
    · intro hq
      rw [hq] at hleave
      exact absurd (hleave hl) (by decide)
    · simp [hmem]
    · exact hpk
  · refine key u huc rfl rfl rfl rfl hother ?_ hmem hpk
    intro _
    have e1 := congrArg Warp.departing hu
    have e2 := congrArg Warp.blocked hu
    have e3 := congrArg Warp.leftAt hu
    exact ⟨e1, e2, e3⟩

/-- Leaving for `pc` after registers have been written. -/
theorem goto_goesTo {rs : List Nat} {s t : State} (pc : Pc) (hw : s.cur.warp < s.warps.length)
    (hf : s.cur.frag < (me s).frags.length) (h : Touched rs s t) : GoesTo pc rs s (goto pc t) := by
  have hl : launchOf t (me t) = launchOf s (me s) := launchOf_congr h.teams h.tasks (warpRest_team h.warp)
  refine counted_goesTo (t := t) (countIssue t) (leavesSegment t (me t) (fr t) pc) pc hw hf h rfl rfl rfl (packageRest_countIssue t) ?_
  intro e
  rw [← hl]
  simp only [leavesSegment, Bool.and_eq_true] at e
  exact e.1.1

/-- An instruction that only goes on. -/
theorem goto_plain (pc : Pc) {s : State} (hw : s.cur.warp < s.warps.length) (hf : s.cur.frag < (me s).frags.length) :
    GoesTo pc [] s (goto pc s) := goto_goesTo pc hw hf (Touched.refl s)

/-! ## Registers written -/

theorem regOf_set (w : Warp) (d r : Nat) (v : Row) (h : d < w.regs.length) :
    regOf { w with regs := w.regs.set d v } r = if r = d then v else regOf w r := by
  by_cases e : r = d
  · subst e; simp [regOf, List.getD, h]
  · simp [regOf, List.getD, e, Ne.symm e]

theorem writeRegs_length (w : Warp) (a z : Word) (ds : List (Nat × Row)) : (writeRegs w a z ds).regs.length = w.regs.length := by
  induction ds generalizing w with
  | nil => rfl
  | cons x xs ih => obtain ⟨d, v⟩ := x; simp [writeRegs, ih]

theorem writeRegs_other (w : Warp) (a z : Word) (ds : List (Nat × Row)) (r : Nat) (h : r ∉ ds.map (·.1)) :
    regOf (writeRegs w a z ds) r = regOf w r := by
  induction ds generalizing w with
  | nil => rfl
  | cons x xs ih =>
    obtain ⟨d, v⟩ := x
    simp only [List.map_cons, List.mem_cons, not_or] at h
    rw [writeRegs, ih _ h.2]
    simp [regOf, List.getD, Ne.symm h.1]

/-- Writing registers changes nothing else of the warp. -/
theorem writeRegs_rest (w : Warp) (a z : Word) (ds : List (Nat × Row)) :
    { writeRegs w a z ds with regs := w.regs } = w := by
  induction ds generalizing w with
  | nil => rfl
  | cons x xs ih =>
    obtain ⟨d, v⟩ := x
    have := congrArg (fun y : Warp => { y with regs := w.regs }) (ih { w with regs := w.regs.set d (writeRow (regOf w d) v a z) })
    exact this

theorem writeDests_me (p : Option Pfx) (ds : List (Nat × Row)) (s : State) (h : s.cur.warp < s.warps.length) :
    me (writeDests p ds s) = dirtied (writeRegs (me s) (act p s) (zer p s) ds) (ds.map (·.1)) := me_setMe _ _ h

theorem touched_setMe {rs : List Nat} {s : State} (w : Warp) (hw : s.cur.warp < s.warps.length) (h1 : w.frags = (me s).frags)
    (h2 : ∀ r, r ∉ rs → regOf w r = regOf (me s) r) (h3 : w.dirty = rs.foldl (fun m r => m ||| dirtyBit r) (me s).dirty)
    (h4 : warpRest w = warpRest (me s))
    (h5 : w.departing = (me s).departing ∧ w.blocked = (me s).blocked ∧ w.leftAt = (me s).leftAt) :
    Touched rs s (setMe s w) := by
  have hm := me_setMe s w hw
  refine ⟨rfl, ?_, ?_, ?_, ?_, ?_, ?_, ?_, rfl, rfl, rfl, rfl⟩
  · rw [hm, h1]
  · intro r hr; rw [hm, h2 r hr]
  · rw [hm, h3]
  · rw [hm, h4]
  · rw [hm]; exact h5
  · simp
  · intro i hi; simp [Ne.symm hi]

theorem writeDests_touched (p : Option Pfx) (ds : List (Nat × Row)) (s : State) (h : s.cur.warp < s.warps.length) :
    Touched (ds.map (·.1)) s (writeDests p ds s) := by
  have e := writeRegs_rest (me s) (act p s) (zer p s) ds
  have e1 := congrArg Warp.frags e
  have e2 := congrArg Warp.dirty e
  have e3 := congrArg warpRest e
  have e4 := congrArg Warp.departing e
  have e5 := congrArg Warp.blocked e
  have e6 := congrArg Warp.leftAt e
  refine touched_setMe _ h e1 ?_ ?_ e3 ⟨e4, e5, e6⟩
  · intro r hr; exact writeRegs_other _ _ _ _ _ hr
  · rw [dirtied_dirty, ← e2]

theorem holdRegs_touched {rs : List Nat} {s t : State} (hs : List Nat) (fl : Bool) (hw : s.cur.warp < s.warps.length)
    (h : Touched rs s t) : Touched rs s (holdRegs hs fl t) := by
  unfold holdRegs
  split
  · exact h
  · have hw' : t.cur.warp < t.warps.length := by rw [h.cur, h.count]; exact hw
    let w' : Warp := { me t with holds := (me t).holds ++ [{ id := t.nextId, regs := hs, flags := fl }] }
    have hm : me { setMe t w' with nextId := t.nextId + 1 } = w' := me_setMe t w' hw'
    refine ⟨h.cur, ?_, ?_, ?_, ?_, ?_, ?_, ?_, h.mem, h.teams, h.tasks, ?_⟩
    · rw [hm]; exact h.frags
    · intro r hr; rw [hm]; exact h.regs r hr
    · rw [hm]; exact h.dirty
    · rw [hm]; exact h.warp
    · rw [hm]; exact h.stays
    · simp [h.count]
    · intro i hi
      have hne : ¬ t.cur.warp = i := by rw [h.cur]; exact fun e => hi e.symm
      simp [hne, h.warps i hi]
    · exact h.package

theorem holdRegs_regs (hs : List Nat) (fl : Bool) (s : State) (h : s.cur.warp < s.warps.length) :
    (me (holdRegs hs fl s)).regs = (me s).regs := by
  unfold holdRegs
  split
  · rfl
  · have e := congrArg Warp.regs
      (me_setMe s { me s with holds := (me s).holds ++ [{ id := s.nextId, regs := hs, flags := fl }] } h)
    exact e

theorem goto_regs (pc : Pc) (s : State) (h : s.cur.warp < s.warps.length) : (me (goto pc s)).regs = (me s).regs := by
  let u := setFr (countIssue s) { fr s with pc := pc, wait := .none, compared := false }
  have hu : (me u).regs = (me s).regs := by
    have e := congrArg Warp.regs (me_setFr (countIssue s) { fr s with pc := pc, wait := .none, compared := false } h)
    exact e
  have hcu : u.cur.warp < u.warps.length := by simpa [u] using h
  change (me (if leavesSegment s (me s) (fr s) pc then
    setMe u { me u with departing := true, blocked := true, leftAt := (fr s).pc } else u)).regs = _
  split
  · rw [me_setMe _ _ hcu]; exact hu
  · exact hu

/-! ## The shared shape of a computation -/

theorem calm_causes {p : Option Pfx} {named : List Nat} {s : State} (h : Calm p named s) : laneCauses p named s = [] := by
  have hf : (named ++ guardRegs p (me s)).find? (fun r => !regInside (launchOf s (me s)).regs r) = none := by
    rw [List.find?_eq_none]; intro r hr; simp [h.inside r hr]
  simp [laneCauses, consumed, outside, h.guard, hf]

theorem guarded_nil (e s : State) : guarded [] e s = .next e := rfl

/-- Every computation retires with its destinations written: what it writes, and that it touches nothing else. -/
theorem writeAndGo_retired (p : Option Pfx) (ds : List (Nat × Row)) {s : State} (hi : Issuing s) :
    Retired (ds.map (·.1)) s (writeAndGo p ds s) ∧
      (me (writeAndGo p ds s)).regs = (writeRegs (me s) (act p s) (zer p s) ds).regs := by
  have hw := hi.warp
  have h1 := writeDests_touched p ds s hw
  have h2 := holdRegs_touched (ds.map (·.1)) false hw h1
  have hw1 : (writeDests p ds s).cur.warp < (writeDests p ds s).warps.length := by rw [h1.cur, h1.count]; exact hw
  have hw2 : (holdRegs (ds.map (·.1)) false (writeDests p ds s)).cur.warp <
      (holdRegs (ds.map (·.1)) false (writeDests p ds s)).warps.length := by rw [h2.cur, h2.count]; exact hw
  have hpc : nextPc (holdRegs (ds.map (·.1)) false (writeDests p ds s)) = nextPc s := by
    simp [nextPc, fr, h2.frags, h2.cur]
  constructor
  · unfold writeAndGo advance
    rw [hpc]
    exact goto_goesTo _ hw hi.frag h2
  · unfold writeAndGo advance
    rw [goto_regs _ _ hw2, holdRegs_regs _ _ _ hw1, writeDests_me _ _ _ hw]
    rfl

theorem compute_eq {p : Option Pfx} {named : List Nat} (ds : List (Nat × Row)) {s : State} (h : Calm p named s) :
    compute p named ds s = .next (writeAndGo p ds s) := by
  rw [compute, calm_causes h, guarded_nil]

/-- A computation of one register. -/
theorem compute_one {p : Option Pfx} {named : List Nat} {d : Nat} (row : Row) {s : State} (hd : d < 256) (hi : Issuing s)
    (h : Calm p named s) :
    ∃ t, compute p named [(d, row)] s = .next t ∧ Retired [d] s t ∧ Wrote p s t d (laneAt row) := by
  obtain ⟨h1, h2⟩ := writeAndGo_retired p [(d, row)] hi
  refine ⟨_, compute_eq _ h, h1, ?_⟩
  intro l hl
  have hr : regOf (me (writeAndGo p [(d, row)] s)) d = writeRow (regOf (me s) d) row (act p s) (zer p s) := by
    have : regOf (me (writeAndGo p [(d, row)] s)) d = regOf (writeRegs (me s) (act p s) (zer p s) [(d, row)]) d := by
      simp only [regOf, h2]
    rw [this]
    simp only [writeRegs]
    rw [regOf_set _ _ _ _ (by rw [hi.regs]; exact hd)]
    simp
  simp only [lane, hr]
  exact laneAt_writeRow _ _ _ _ l hl

/-- A computation of a register pair. -/
theorem compute_pair {p : Option Pfx} {named : List Nat} {d : Nat} (lo hi' : Row) {s : State} (hd : d + 1 < 256) (hi : Issuing s)
    (h : Calm p named s) :
    ∃ t, compute p named [(d, lo), (d + 1, hi')] s = .next t ∧ Retired [d, d + 1] s t ∧ Wrote p s t d (laneAt lo) ∧
      Wrote p s t (d + 1) (laneAt hi') := by
  obtain ⟨h1, h2⟩ := writeAndGo_retired p [(d, lo), (d + 1, hi')] hi
  have hr : ∀ r, regOf (me (writeAndGo p [(d, lo), (d + 1, hi')] s)) r =
      regOf (writeRegs (me s) (act p s) (zer p s) [(d, lo), (d + 1, hi')]) r := by
    intro r; simp only [regOf, h2]
  have l1 : d < (me s).regs.length := by rw [hi.regs]; omega
  have l2 : d + 1 < ((me s).regs.set d (writeRow (regOf (me s) d) lo (act p s) (zer p s))).length := by
    rw [List.length_set, hi.regs]; exact hd
  refine ⟨_, compute_eq _ h, h1, ?_, ?_⟩
  · intro l hl
    have e : regOf (writeRegs (me s) (act p s) (zer p s) [(d, lo), (d + 1, hi')]) d = writeRow (regOf (me s) d) lo (act p s) (zer p s) :=
      (regOf_set { me s with regs := (me s).regs.set d (writeRow (regOf (me s) d) lo (act p s) (zer p s)) } (d + 1) d _ l2).trans
        ((if_neg (by omega)).trans ((regOf_set (me s) d d _ l1).trans (if_pos rfl)))
    simp only [lane, hr, e]
    exact laneAt_writeRow _ _ _ _ l hl
  · intro l hl
    have e0 : regOf { me s with regs := (me s).regs.set d (writeRow (regOf (me s) d) lo (act p s) (zer p s)) } (d + 1) =
        regOf (me s) (d + 1) := (regOf_set (me s) d (d + 1) _ l1).trans (if_neg (by omega))
    have e : regOf (writeRegs (me s) (act p s) (zer p s) [(d, lo), (d + 1, hi')]) (d + 1) =
        writeRow (regOf (me s) (d + 1)) hi' (act p s) (zer p s) :=
      ((regOf_set { me s with regs := (me s).regs.set d (writeRow (regOf (me s) d) lo (act p s) (zer p s)) } (d + 1) (d + 1) _ l2).trans
        (if_pos rfl)).trans (by rw [e0])
    simp only [lane, hr, e]
    exact laneAt_writeRow _ _ _ _ l hl

end Sys2Proof.Machine
end

