-- ==== Sys2Proof/Laws/Lanes.lean ====
section
/-! SUPPORT. The shared lane-by-lane shapes (`compute`, `unary`, `binary`, `ternary`, `pairRows`, `computeFlags`), each with what
it writes said once, so that a statement about one instruction needs only its meaning's definition. -/

namespace Sys2Proof.Machine

open Sys2Proof Sys2Proof.Safety

theorem laneAt_laneRow (srcs : List Row) (f : Nat → Word) (l : Nat) (h : l < 32) :
    laneAt (laneRow srcs f) l = if srcs.any (fun r => poisonAt r l) then poisoned else clean (f l) := laneAt_rowOf _ l h

theorem writesOne_of_compute {i : Instr} {p : Option Pfx} {named : List Nat} {d : Nat} {v : State → Nat → Lane}
    (row : State → Row) (hd : d < 256) (h : ∀ s, exec i s = compute p named [(d, row s)] s)
    (hv : ∀ s l, l < 32 → laneAt (row s) l = v s l) : WritesOne i p named d v := by
  intro s hi hc
  obtain ⟨t, h1, h2, h3⟩ := compute_one (row s) hd hi hc
  refine ⟨t, (h s).trans h1, h2, ?_⟩
  intro l hl
  rw [h3 l hl, hv s l hl]

theorem writesPair_of_compute {i : Instr} {p : Option Pfx} {named : List Nat} {d : Nat} {u v : State → Nat → Lane}
    (lo hi : State → Row) (hd : d + 1 < 256) (h : ∀ s, exec i s = compute p named [(d, lo s), (d + 1, hi s)] s)
    (hu : ∀ s l, l < 32 → laneAt (lo s) l = u s l) (hv : ∀ s l, l < 32 → laneAt (hi s) l = v s l) :
    WritesPair i p named d u v := by
  intro s hi' hc
  obtain ⟨t, h1, h2, h3, h4⟩ := compute_pair (lo s) (hi s) hd hi' hc
  refine ⟨t, (h s).trans h1, h2, ?_, ?_⟩
  · intro l hl; rw [h3 l hl, hu s l hl]
  · intro l hl; rw [h4 l hl, hv s l hl]

theorem writesOne_of_unary {i : Instr} {p : Option Pfx} {d a : BitVec 8} (f : State → Word → Word)
    (h : ∀ s, exec i s = unary p d.toNat a.toNat (f s) s) :
    WritesOne i p [d.toNat, a.toNat] d.toNat fun s l => from1 (lane s a.toNat l) (f s) :=
  writesOne_of_compute (fun s => laneRow [regOf (me s) a.toNat] fun l => f s (valAt (regOf (me s) a.toNat) l)) d.isLt h
    (by intro s l hl; rw [laneAt_laneRow _ _ _ hl]; simp [from1, lane, poisonAt, valAt]; rfl)

theorem writesOne_of_binary {i : Instr} {p : Option Pfx} {d a b : BitVec 8} (f : State → Word → Word → Word)
    (h : ∀ s, exec i s = binary p d.toNat a.toNat b.toNat (f s) s) :
    WritesOne i p [d.toNat, a.toNat, b.toNat] d.toNat fun s l => from2 (lane s a.toNat l) (lane s b.toNat l) (f s) :=
  writesOne_of_compute (fun s => laneRow [regOf (me s) a.toNat, regOf (me s) b.toNat]
      fun l => f s (valAt (regOf (me s) a.toNat) l) (valAt (regOf (me s) b.toNat) l)) d.isLt h
    (by intro s l hl; rw [laneAt_laneRow _ _ _ hl]; simp [from2, lane, poisonAt, valAt])

theorem writesOne_of_ternary {i : Instr} {p : Option Pfx} {d a b : BitVec 8} (f : State → Word → Word → Word → Word)
    (h : ∀ s, exec i s = ternary p d.toNat a.toNat b.toNat (f s) s) :
    WritesOne i p [d.toNat, a.toNat, b.toNat, thirdReg p d.toNat] d.toNat fun s l =>
      from3 (lane s a.toNat l) (lane s b.toNat l) (lane s (thirdReg p d.toNat) l) (f s) :=
  writesOne_of_compute (fun s => laneRow [regOf (me s) a.toNat, regOf (me s) b.toNat, regOf (me s) (thirdReg p d.toNat)]
      fun l => f s (valAt (regOf (me s) a.toNat) l) (valAt (regOf (me s) b.toNat) l) (valAt (regOf (me s) (thirdReg p d.toNat)) l))
    d.isLt h
    (by intro s l hl; rw [laneAt_laneRow _ _ _ hl]; simp [from3, lane, poisonAt, valAt, or_assoc])

/-! ## Computations that raise flags -/

theorem raiseFlags_me (fl : BitVec 5) (s : State) (h : s.cur.warp < s.warps.length) :
    me (raiseFlags fl s) = { me s with flags := (me s).flags ||| fl } := me_setMe _ _ h

/-- The flags raised after the destinations are written are those of a state with the flags raised first. -/
theorem raise_after_write (p : Option Pfx) (ds : List (Nat × Row)) (fl : BitVec 5) {s : State} (hw : s.cur.warp < s.warps.length) :
    Touched (ds.map (·.1)) (raiseFlags fl s) (raiseFlags fl (writeDests p ds s)) := by
  have h1 := writeDests_touched p ds s hw
  have hw1 : (writeDests p ds s).cur.warp < (writeDests p ds s).warps.length := by rw [h1.cur, h1.count]; exact hw
  have hm := raiseFlags_me fl (writeDests p ds s) hw1
  have hs := raiseFlags_me fl s hw
  refine ⟨rfl, ?_, ?_, ?_, ?_, ?_, ?_, ?_, rfl, rfl, rfl, rfl⟩
  · rw [hm, hs]; exact h1.frags
  · intro r hr; rw [hm, hs]; exact h1.regs r hr
  · rw [hm, hs]; exact h1.dirty
  · rw [hm, hs]
    have e := congrArg (fun w : Warp => { w with flags := w.flags ||| fl }) h1.warp
    exact e
  · rw [hm, hs]; exact h1.stays
  · simp [raiseFlags, h1.count]
  · intro i hi
    have hne : ¬ s.cur.warp = i := fun e => hi (by simp [e])
    simp [raiseFlags, setMe, setWarp, writeDests, hne]

/-- Destinations written, flags raised, and the instruction left. -/
theorem flagsAndGo_retired (p : Option Pfx) (ds : List (Nat × Row)) (fl : BitVec 5) {s : State} (hi : Issuing s) :
    Retired (ds.map (·.1)) (raiseFlags fl s) (advance (holdRegs (ds.map (·.1)) true (raiseFlags fl (writeDests p ds s)))) ∧
      (me (advance (holdRegs (ds.map (·.1)) true (raiseFlags fl (writeDests p ds s))))).regs =
        (writeRegs (me s) (act p s) (zer p s) ds).regs := by
  have hw := hi.warp
  have h0 := raise_after_write p ds fl hw
  have hwr : (raiseFlags fl s).cur.warp < (raiseFlags fl s).warps.length := by simpa [raiseFlags] using hw
  have hms := raiseFlags_me fl s hw
  have hfr : (raiseFlags fl s).cur.frag < (me (raiseFlags fl s)).frags.length := by rw [hms]; exact hi.frag
  have h2 := holdRegs_touched (ds.map (·.1)) true hwr h0
  have hw1 : (raiseFlags fl (writeDests p ds s)).cur.warp < (raiseFlags fl (writeDests p ds s)).warps.length := by
    rw [h0.cur, h0.count]; exact hwr
  have hw2 : (holdRegs (ds.map (·.1)) true (raiseFlags fl (writeDests p ds s))).cur.warp <
      (holdRegs (ds.map (·.1)) true (raiseFlags fl (writeDests p ds s))).warps.length := by rw [h2.cur, h2.count]; exact hwr
  have hpc : nextPc (holdRegs (ds.map (·.1)) true (raiseFlags fl (writeDests p ds s))) = nextPc (raiseFlags fl s) := by
    simp [nextPc, fr, h2.frags, h2.cur]
  have h1 := writeDests_touched p ds s hw
  have hwd : (writeDests p ds s).cur.warp < (writeDests p ds s).warps.length := by rw [h1.cur, h1.count]; exact hw
  constructor
  · unfold advance
    rw [hpc]
    exact goto_goesTo _ hwr hfr h2
  · unfold advance
    rw [goto_regs _ _ hw2, holdRegs_regs _ _ _ hw1, raiseFlags_me _ _ hwd, writeDests_me _ _ _ hw]
    rfl

/-- A single destination of such an instruction. -/
theorem flags_wrote (p : Option Pfx) (d : Nat) (row : Row) (fl : BitVec 5) {s : State} (hd : d < 256) (hi : Issuing s) :
    Wrote p s (advance (holdRegs [d] true (raiseFlags fl (writeDests p [(d, row)] s)))) d (laneAt row) := by
  intro l hl
  have h2 := (flagsAndGo_retired p [(d, row)] fl hi).2
  have e : regOf (writeRegs (me s) (act p s) (zer p s) [(d, row)]) d = writeRow (regOf (me s) d) row (act p s) (zer p s) :=
    (regOf_set (me s) d d _ (by rw [hi.regs]; exact hd)).trans (if_pos rfl)
  have hr : regOf (me (advance (holdRegs [d] true (raiseFlags fl (writeDests p [(d, row)] s))))) d =
      writeRow (regOf (me s) d) row (act p s) (zer p s) := by
    rw [← e]; simp only [regOf]; exact congrArg (fun x => List.getD x d zeroRow) h2
  simp only [lane, hr]
  exact laneAt_writeRow _ _ _ _ l hl

end Sys2Proof.Machine
end

