-- ==== Sys2Proof/Laws/Memory.lean ====
section
/-! SUPPORT. The laws of memory: a read after a write, and the canonical form, which every operation of Bytes.lean keeps. -/

namespace Sys2Proof.Machine

/-! ## Cells -/

theorem cellsOk_mono {lo hi : Nat} (h : lo ≤ hi) : ∀ {cs : List Host.Cell}, cellsOk hi cs = true → cellsOk lo cs = true
  | [], _ => rfl
  | (x, v) :: rest, k => by
    simp only [cellsOk, Bool.and_eq_true, decide_eq_true_eq] at k ⊢
    exact ⟨⟨by omega, k.1.2⟩, k.2⟩

theorem cellsOk_cellSet (a : Nat) (b : Byte) : ∀ (lo : Nat) (cs : List Host.Cell), lo ≤ a → cellsOk lo cs = true →
    cellsOk lo (cellSet cs a b) = true
  | lo, [], h, _ => by
    unfold cellSet
    split
    · rfl
    · simp_all [cellsOk]
  | lo, (x, v) :: rest, h, k => by
    have k' := k
    simp only [cellsOk, Bool.and_eq_true, decide_eq_true_eq] at k
    unfold cellSet
    split
    · split
      · exact k'
      · simp_all [cellsOk] <;> omega
    · split
      · split
        · exact cellsOk_mono (by omega) k.2
        · subst_vars; simp_all [cellsOk]
      · simp only [cellsOk, Bool.and_eq_true, decide_eq_true_eq]
        exact ⟨k.1, cellsOk_cellSet a b (x + 1) rest (by omega) k.2⟩

theorem cellsOk_filter (f : Host.Cell → Bool) : ∀ (lo : Nat) (cs : List Host.Cell), cellsOk lo cs = true → cellsOk lo (cs.filter f) = true
  | _, [], _ => rfl
  | lo, (x, v) :: rest, k => by
    simp only [cellsOk, Bool.and_eq_true, decide_eq_true_eq] at k
    rw [List.filter_cons]
    split
    · simp only [cellsOk, Bool.and_eq_true, decide_eq_true_eq]
      exact ⟨k.1, cellsOk_filter f (x + 1) rest k.2⟩
    · exact cellsOk_mono (by omega) (cellsOk_filter f (x + 1) rest k.2)

/-- A read after a write of the same or of another byte. -/
theorem cellGet_cellSet (a c : Nat) (b : Byte) : ∀ (lo : Nat) (cs : List Host.Cell), cellsOk lo cs = true →
    cellGet (cellSet cs a b) c = if c = a then b else cellGet cs c
  | lo, [], _ => by
    unfold cellSet
    split <;> simp_all [cellGet]
  | lo, (x, v) :: rest, k => by
    simp only [cellsOk, Bool.and_eq_true, decide_eq_true_eq] at k
    have above : ∀ (lo : Nat) (cs : List Host.Cell), cellsOk lo cs = true → ∀ c, c < lo → cellGet cs c = 0#8 := by
      intro lo cs
      induction cs generalizing lo with
      | nil => intro _ _ _; rfl
      | cons y ys ih =>
        intro k c h
        simp only [cellsOk, Bool.and_eq_true, decide_eq_true_eq] at k
        unfold cellGet
        rw [if_neg (by omega)]
        exact ih _ k.2 c (by omega)
    have ih := cellGet_cellSet a c b (x + 1) rest k.2
    have top := above (x + 1) rest k.2
    unfold cellSet
    split
    · split
      · split
        · subst_vars; unfold cellGet; rw [if_neg (by omega)]; exact top _ (by omega)
        · rfl
      · rw [cellGet]
    · split
      · split
        · subst_vars
          split
          · subst_vars; exact top _ (by omega)
          · rename_i h; rw [cellGet, if_neg h]
        · subst_vars
          rw [cellGet, cellGet]
          split <;> rfl
      · rw [cellGet, cellGet, ih]
        split
        · rw [if_neg (by omega)]
        · rfl

/-! ## Rising lists -/

theorem risingOk_mono {lo hi : Nat} (h : lo ≤ hi) : ∀ {xs : List Nat}, risingOk hi xs = true → risingOk lo xs = true
  | [], _ => rfl
  | x :: rest, k => by
    simp only [risingOk, Bool.and_eq_true, decide_eq_true_eq] at k ⊢
    exact ⟨by omega, k.2⟩

theorem risingOk_insertNat (a : Nat) : ∀ (lo : Nat) (xs : List Nat), lo ≤ a → risingOk lo xs = true → risingOk lo (insertNat xs a) = true
  | lo, [], h, _ => by simp [insertNat, risingOk, h]
  | lo, x :: rest, h, k => by
    have k' := k
    simp only [risingOk, Bool.and_eq_true, decide_eq_true_eq] at k
    unfold insertNat
    split
    · simp_all [risingOk] <;> omega
    · split
      · exact k'
      · simp only [risingOk, Bool.and_eq_true, decide_eq_true_eq]
        exact ⟨k.1, risingOk_insertNat a (x + 1) rest (by omega) k.2⟩

theorem risingOk_filter (f : Nat → Bool) : ∀ (lo : Nat) (xs : List Nat), risingOk lo xs = true → risingOk lo (xs.filter f) = true
  | _, [], _ => rfl
  | lo, x :: rest, k => by
    simp only [risingOk, Bool.and_eq_true, decide_eq_true_eq] at k
    rw [List.filter_cons]
    split
    · simp only [risingOk, Bool.and_eq_true, decide_eq_true_eq]
      exact ⟨k.1, risingOk_filter f (x + 1) rest k.2⟩
    · exact risingOk_mono (by omega) (risingOk_filter f (x + 1) rest k.2)

theorem mem_insertNat (a c : Nat) : ∀ (xs : List Nat), c ∈ insertNat xs a ↔ c = a ∨ c ∈ xs
  | [] => by simp [insertNat]
  | x :: rest => by
    unfold insertNat
    split
    · simp
    · split
      · subst_vars; simp
      · simp only [List.mem_cons, mem_insertNat a c rest]
        constructor <;> rintro (h | h | h) <;> simp [h]

/-! ## The canonical form -/

theorem wf_iff (m : Memory) : m.wf = true ↔ cellsOk 0 m.cells = true ∧ risingOk 0 m.poison = true := by
  simp [Memory.wf]

theorem wf_set {m : Memory} (h : m.wf = true) (a : Nat) (b : Byte) : (m.set a b).wf = true := by
  rw [wf_iff] at h ⊢
  exact ⟨cellsOk_cellSet a b 0 _ (Nat.zero_le _) h.1, h.2⟩

theorem wf_setBytes : ∀ (bs : List Byte) {m : Memory}, m.wf = true → ∀ a, (m.setBytes a bs).wf = true
  | [], _, h, _ => h
  | b :: bs, _, h, a => wf_setBytes bs (wf_set h a b) (a + 1)

theorem wf_mark {m : Memory} (h : m.wf = true) (w : Nat) (p : Bool) : (m.mark w p).wf = true := by
  rw [wf_iff] at h ⊢
  refine ⟨h.1, ?_⟩
  unfold Memory.mark
  split
  · exact risingOk_insertNat w 0 _ (Nat.zero_le _) h.2
  · exact risingOk_filter _ 0 _ h.2

theorem wf_markAll (p : Bool) : ∀ (ws : List Nat) {m : Memory}, m.wf = true → (m.markAll p ws).wf = true
  | [], _, h => h
  | w :: ws, _, h => wf_markAll p ws (wf_mark h w p)

theorem wf_write {m : Memory} (h : m.wf = true) (a : Nat) (bs : List Byte) (p : Bool) : (m.write a bs p).wf = true := by
  unfold Memory.write
  split
  · exact wf_markAll _ _ h
  · exact wf_markAll _ _ (wf_setBytes bs h a)

theorem wf_clear {m : Memory} (h : m.wf = true) (a n : Nat) : (m.clear a n).wf = true := by
  rw [wf_iff] at h ⊢
  exact ⟨cellsOk_filter _ 0 _ h.1, risingOk_filter _ 0 _ h.2⟩

theorem cellsOk_shift (a : Nat) : ∀ (lo : Nat) (cs : List Host.Cell), (∀ c ∈ cs, a ≤ c.1) → a ≤ lo → cellsOk lo cs = true →
    cellsOk (lo - a) (cs.map fun c => (c.1 - a, c.2)) = true
  | _, [], _, _, _ => rfl
  | lo, (x, v) :: rest, h, q, k => by
    simp only [cellsOk, Bool.and_eq_true, decide_eq_true_eq] at k
    simp only [List.map_cons, cellsOk, Bool.and_eq_true, decide_eq_true_eq]
    have hx := h (x, v) (by simp)
    have := cellsOk_shift a (x + 1) rest (fun c hc => h c (by simp [hc])) (by simp at hx; omega) k.2
    simp only at hx
    rw [show x + 1 - a = x - a + 1 by omega] at this
    exact ⟨⟨by omega, k.1.2⟩, this⟩

theorem risingOk_shift (a : Nat) : ∀ (lo : Nat) (xs : List Nat), (∀ x ∈ xs, a ≤ x) → a ≤ lo → risingOk lo xs = true →
    risingOk (lo - a) (xs.map fun x => x - a) = true
  | _, [], _, _, _ => rfl
  | lo, x :: rest, h, q, k => by
    simp only [risingOk, Bool.and_eq_true, decide_eq_true_eq] at k
    simp only [List.map_cons, risingOk, Bool.and_eq_true, decide_eq_true_eq]
    have hx := h x (by simp)
    have := risingOk_shift a (x + 1) rest (fun c hc => h c (by simp [hc])) (by omega) k.2
    rw [show x + 1 - a = x - a + 1 by omega] at this
    exact ⟨by omega, this⟩

theorem cellsOk_from (a : Nat) : ∀ (lo : Nat) (cs : List Host.Cell), (∀ c ∈ cs, a ≤ c.1) → cellsOk lo cs = true → cellsOk a cs = true
  | _, [], _, _ => rfl
  | lo, (x, v) :: rest, h, k => by
    have hx := h (x, v) (by simp)
    simp only [cellsOk, Bool.and_eq_true, decide_eq_true_eq] at k ⊢
    exact ⟨⟨hx, k.1.2⟩, k.2⟩

theorem risingOk_from (a : Nat) : ∀ (lo : Nat) (xs : List Nat), (∀ x ∈ xs, a ≤ x) → risingOk lo xs = true → risingOk a xs = true
  | _, [], _, _ => rfl
  | lo, x :: rest, h, k => by
    have hx := h x (by simp)
    simp only [risingOk, Bool.and_eq_true, decide_eq_true_eq] at k ⊢
    exact ⟨hx, k.2⟩

theorem wf_slice {m : Memory} (h : m.wf = true) (a n : Nat) (keep : Nat → Bool) : (m.slice a n keep).wf = true := by
  rw [wf_iff] at h ⊢
  constructor
  · have q : ∀ c ∈ m.cells.filter (fun c => decide (a ≤ c.1) && decide (c.1 < a + n) && keep (c.1 - a)), a ≤ c.1 := by
      intro c hc
      have := (List.mem_filter.mp hc).2
      simp only [Bool.and_eq_true, decide_eq_true_eq] at this
      exact this.1.1
    have := cellsOk_shift a a _ q (Nat.le_refl _) (cellsOk_from a 0 _ q (cellsOk_filter _ 0 _ h.1))
    rwa [Nat.sub_self] at this
  · have q : ∀ w ∈ m.poison.filter (fun w => decide (a ≤ w) && decide (w < a + n) && (List.range 4).any fun j => keep (w - a + j)), a ≤ w := by
      intro c hc
      have := (List.mem_filter.mp hc).2
      simp only [Bool.and_eq_true, decide_eq_true_eq] at this
      exact this.1.1
    have := risingOk_shift a a _ q (Nat.le_refl _) (risingOk_from a 0 _ q (risingOk_filter _ 0 _ h.2))
    rwa [Nat.sub_self] at this

/-- Cells and poison moved into a memory from another, as the engines do that move a whole range. -/
theorem wf_pour {m : Memory} (h : m.wf = true) (cs : List Host.Cell) (ps : List Nat) (d : Nat) :
    Memory.wf { cells := cs.foldl (fun xs c => cellSet xs (d + c.1) c.2) m.cells
                poison := ps.foldl (fun xs w => insertNat xs (d + w)) m.poison } = true := by
  rw [wf_iff] at h ⊢
  constructor
  · show cellsOk 0 (cs.foldl _ m.cells) = true
    have k := h.1
    generalize m.cells = xs at k
    induction cs generalizing xs with
    | nil => exact k
    | cons c cs ih => exact ih _ (cellsOk_cellSet _ _ 0 _ (Nat.zero_le _) k)
  · show risingOk 0 (ps.foldl _ m.poison) = true
    have k := h.2
    generalize m.poison = xs at k
    induction ps generalizing xs with
    | nil => exact k
    | cons c cs ih => exact ih _ (risingOk_insertNat _ 0 _ (Nat.zero_le _) k)

theorem wf_reset : State.reset.mem.wf = true := rfl

/-! ## Reads after writes -/

theorem get_set {m : Memory} (h : m.wf = true) (a c : Nat) (b : Byte) : (m.set a b).get c = if c = a then b else m.get c :=
  cellGet_cellSet a c b 0 _ ((wf_iff m).mp h).1

theorem get_setBytes : ∀ (bs : List Byte) {m : Memory}, m.wf = true → ∀ a c, (m.setBytes a bs).get c =
    if a ≤ c ∧ c < a + bs.length then bs.getD (c - a) 0#8 else m.get c
  | [], _, _, a, c => by rw [if_neg (by simp)]; rfl
  | b :: bs, m, h, a, c => by
    rw [Memory.setBytes, get_setBytes bs (wf_set h a b) (a + 1) c, get_set h]
    simp only [List.length_cons]
    by_cases e : c = a
    · subst e; rw [if_neg (by omega), if_pos rfl, if_pos (by omega)]; simp
    · by_cases k : a + 1 ≤ c ∧ c < a + 1 + bs.length
      · rw [if_pos k, if_pos (by omega), show c - a = c - (a + 1) + 1 by omega]; simp
      · rw [if_neg k, if_neg e, if_neg (by omega)]

@[simp] theorem get_mark (m : Memory) (w : Nat) (p : Bool) (c : Nat) : (m.mark w p).get c = m.get c := rfl

theorem get_markAll (p : Bool) (c : Nat) : ∀ (ws : List Nat) (m : Memory), (m.markAll p ws).get c = m.get c
  | [], _ => rfl
  | w :: ws, m => (get_markAll p c ws (m.mark w p)).trans (get_mark m w p c)

/-- A clean write leaves its bytes where it wrote them and every other byte alone. -/
theorem get_write {m : Memory} (h : m.wf = true) (a : Nat) (bs : List Byte) (c : Nat) : (m.write a bs false).get c =
    if a ≤ c ∧ c < a + bs.length then bs.getD (c - a) 0#8 else m.get c := by
  unfold Memory.write
  rw [if_neg (by simp), get_markAll, get_setBytes bs h]

/-- A poisoned write changes no byte. -/
theorem get_write_poison (m : Memory) (a : Nat) (bs : List Byte) (c : Nat) : (m.write a bs true).get c = m.get c := by
  unfold Memory.write
  rw [if_pos rfl, get_markAll]

theorem read_write {m : Memory} (h : m.wf = true) (a : Nat) (bs : List Byte) : (m.write a bs false).read a bs.length = bs := by
  apply List.ext_getElem
  · simp [Memory.read]
  · intro i h1 h2
    simp only [Memory.read, List.getElem_map, List.getElem_range, get_write h]
    rw [if_pos (by omega), show a + i - a = i by omega]
    simp [List.getD, h2]

theorem mem_mark (m : Memory) (w x : Nat) (p : Bool) : x ∈ (m.mark w p).poison ↔ if x = w then p = true else x ∈ m.poison := by
  unfold Memory.mark
  cases p
  · simp only [Bool.false_eq_true, if_false, List.mem_filter, bne_iff_ne, ne_eq]
    split <;> simp_all
  · simp only [if_true, mem_insertNat]
    split <;> simp_all

end Sys2Proof.Machine
end

