-- ==== Sys2Proof/Laws/PerInstr.lean ====
section
/-! SUPPORT. Instruction by instruction: the word that the encoder writes is no prefix, its opcode finds the instruction's row, the bits
that the row requires to be 0 are 0, and the row's fields are the operands.  With the tests of well-formedness this is what the decoder's
rules ask of one word. -/

namespace Sys2Proof.Laws

open Sys2Proof

theorem field_low {m k : Nat} (x : BitVec m) (y : BitVec k) (lo n : Nat) (h : lo + n ≤ k) :
    BitVec.extractLsb' lo n (x ++ y) = BitVec.extractLsb' lo n y := BitVec.extractLsb'_append_eq_of_add_le h
theorem field_high {m k : Nat} (x : BitVec m) (y : BitVec k) (lo n : Nat) (h : k ≤ lo) :
    BitVec.extractLsb' lo n (x ++ y) = BitVec.extractLsb' (lo - k) n x := BitVec.extractLsb'_append_eq_of_le h

/-- Bits that a mask tests are 0 where the field that holds them is, and the rest of the mask finds none. -/
theorem masked_field (w z : Word) (lo n : Nat) (h : fieldOf w lo n = 0) (k : w &&& (z &&& ~~~(BitVec.ofNat 32 ((2 ^ n - 1) <<< lo))) = 0) :
    w &&& z = 0 := by
  apply BitVec.eq_of_getLsbD_eq
  intro i hi
  have a := congrArg (fun x => x.getLsbD i) k
  simp only [BitVec.getLsbD_and, BitVec.getLsbD_not, BitVec.getLsbD_ofNat, hi, decide_true, Bool.true_and,
    Nat.testBit_shiftLeft, Nat.testBit_two_pow_sub_one] at a ⊢
  by_cases q : lo ≤ i ∧ i - lo < n
  · have b := congrArg (fun x => x.getLsbD (i - lo)) h
    simp only [fieldOf, BitVec.getLsbD_extractLsb', q.2, decide_true, Bool.true_and] at b
    rw [show lo + (i - lo) = i by omega] at b
    simp_all
  · have e : (decide (i ≥ lo) && decide (i - lo < n)) = false := by
      simp only [Bool.and_eq_false_iff, decide_eq_false_iff_not]; omega
    rw [e] at a
    simpa using a

theorem masked_none (w : Word) : w &&& 0#32 = 0 := BitVec.and_zero

/-- The row, with its prefix, that reads an instruction back from its word. -/
structure Reads (p : Option Pfx) (w : Word) (r : OpRow) (i : Instr) : Prop where
  plain : isPfxWord w = false
  row : opRow w = some r
  zeros : w &&& r.zeros = 0
  pfx : p.isSome = true → r.takesPfx = true
  back : r.build p w = i

namespace Encoding

set_option linter.unusedSimpArgs false

/-- What an instruction's words are, and that its row reads it back from them. -/
def Statement (i : Instr) : Prop := ∀ ws, encode i = some ws → ∃ p w r, ws = withPfx p w ∧ Reads p w r i

/-- The row of an opcode by its two digits. -/
def rowAt (h l : Nat) (w : Word) : Option OpRow :=
  match h with
  | 0 => opRow0 w l
  | 1 => opRow1 w l
  | 2 => opRow2 w l
  | 3 => opRow3 w l
  | 4 => opRow4 w l
  | 5 => opRow5 w l
  | 6 => opRow6 w l
  | 7 => opRow7 w l
  | 8 => opRow8 w l
  | 9 => opRow9 w l
  | 10 => opRowA w l
  | 11 => opRowB w l
  | 12 => opRowC w l
  | 13 => opRowD w l
  | 14 => opRowE w l
  | _ => none

theorem bit_field (w : Word) (n : Nat) : bitOf w n = (fieldOf w n 1 == 1#1) := by
  unfold bitOf fieldOf
  have h : (w.extractLsb' n 1).getLsbD 0 = w.getLsbD n := by simp
  rw [← h]
  generalize w.extractLsb' n 1 = x
  revert x; decide

/-- An instruction whose word has the two digits of its row, zeros where the row asks for them, and the operands in its fields. -/
theorem byRow {i : Instr} {p : Option Pfx} {w : Word} {k l : BitVec 4} {r : OpRow} (h : encode i = some (withPfx p w))
    (hk : fieldOf w 28 4 = k) (hl : fieldOf w 24 4 = l) (plain : (k == 0xF#4) = false) (row : rowAt k.toNat l.toNat w = some r)
    (zeros : w &&& r.zeros = 0) (pfx : p.isSome = true → r.takesPfx = true) (back : r.build p w = i) : Statement i := by
  intro ws e
  rw [h] at e
  cases e
  refine ⟨p, w, r, rfl, by rw [isPfxWord, hk, plain], ?_, zeros, pfx, back⟩
  rw [← row, ← hk, ← hl]
  rfl

theorem silent {i : Instr} (h : encode i = none) : Statement i := fun ws k => by rw [h] at k; cases k

theorem nop : Statement (.nop) :=
  byRow (p := none) (k := 0x0#4) (l := 0x1#4) rfl rfl rfl (by decide) rfl
    rfl (fun h => nomatch h) rfl
theorem br (a0 a1 a2) : Statement (.br a0 a1 a2) :=
  byRow (p := a0) (k := 0x0#4) (l := 0x2#4) rfl (by simp (disch := omega) only [fieldOf, field_low, field_high]; rfl) (by simp (disch := omega) only [fieldOf, field_low, field_high]; rfl) (by decide) rfl
    (masked_none _) (fun _ => rfl) (by simp (disch := omega) only [fieldOf, field_low, field_high, Nat.sub_self, BitVec.extractLsb'_eq_self])
theorem brc (a0 a1 a2 a3) : Statement (.brc a0 a1 a2 a3) :=
  byRow (p := a0) (k := 0x0#4) (l := 0x3#4) rfl (by simp (disch := omega) only [fieldOf, field_low, field_high]; rfl) (by simp (disch := omega) only [fieldOf, field_low, field_high]; rfl) (by decide) rfl
    (masked_none _) (fun _ => rfl) (by simp (disch := omega) only [fieldOf, field_low, field_high, Nat.sub_self, BitVec.extractLsb'_eq_self])
theorem brz (a0 a1 a2 a3) : Statement (.brz a0 a1 a2 a3) :=
  byRow (p := a0) (k := 0x0#4) (l := 0x4#4) rfl (by simp (disch := omega) only [fieldOf, field_low, field_high]; rfl) (by simp (disch := omega) only [fieldOf, field_low, field_high]; rfl) (by decide) rfl
    (masked_none _) (fun _ => rfl) (by simp (disch := omega) only [fieldOf, field_low, field_high, Nat.sub_self, BitVec.extractLsb'_eq_self])
theorem call (a0 a1 a2) : Statement (.call a0 a1 a2) :=
  byRow (p := a0) (k := 0x0#4) (l := 0x5#4) rfl (by simp (disch := omega) only [fieldOf, field_low, field_high]; rfl) (by simp (disch := omega) only [fieldOf, field_low, field_high]; rfl) (by decide) rfl
    (masked_none _) (fun _ => rfl) (by simp (disch := omega) only [fieldOf, field_low, field_high, Nat.sub_self, BitVec.extractLsb'_eq_self])
theorem calli (a0) : Statement (.calli a0) :=
  byRow (p := none) (k := 0x0#4) (l := 0x6#4) rfl (by simp (disch := omega) only [fieldOf, field_low, field_high]; rfl) (by simp (disch := omega) only [fieldOf, field_low, field_high]; rfl) (by decide) rfl
    (masked_field _ _ 16 8 (by simp (disch := omega) only [fieldOf, field_low, field_high]; rfl) (masked_field _ _ 0 8 (by simp (disch := omega) only [fieldOf, field_low, field_high]; rfl) (masked_none _))) (fun h => nomatch h) (by simp (disch := omega) only [fieldOf, field_low, field_high, Nat.sub_self, BitVec.extractLsb'_eq_self])
theorem ret : Statement (.ret) :=
  byRow (p := none) (k := 0x0#4) (l := 0x7#4) rfl rfl rfl (by decide) rfl
    rfl (fun h => nomatch h) rfl
theorem join : Statement (.join) :=
  byRow (p := none) (k := 0x0#4) (l := 0x8#4) rfl rfl rfl (by decide) rfl
    rfl (fun h => nomatch h) rfl
theorem exitw : Statement (.exitw) :=
  byRow (p := none) (k := 0x0#4) (l := 0x9#4) rfl rfl rfl (by decide) rfl
    rfl (fun h => nomatch h) rfl
theorem yield : Statement (.yield) :=
  byRow (p := none) (k := 0x0#4) (l := 0xA#4) rfl rfl rfl (by decide) rfl
    rfl (fun h => nomatch h) rfl
theorem sleep (a0) : Statement (.sleep a0) :=
  byRow (p := none) (k := 0x0#4) (l := 0xB#4) rfl (by simp (disch := omega) only [fieldOf, field_low, field_high]; rfl) (by simp (disch := omega) only [fieldOf, field_low, field_high]; rfl) (by decide) rfl
    (masked_field _ _ 16 8 (by simp (disch := omega) only [fieldOf, field_low, field_high]; rfl) (masked_none _)) (fun h => nomatch h) (by simp (disch := omega) only [fieldOf, field_low, field_high, Nat.sub_self, BitVec.extractLsb'_eq_self])
theorem trap (a0) : Statement (.trap a0) :=
  byRow (p := none) (k := 0x0#4) (l := 0xC#4) rfl (by simp (disch := omega) only [fieldOf, field_low, field_high]; rfl) (by simp (disch := omega) only [fieldOf, field_low, field_high]; rfl) (by decide) rfl
    (masked_field _ _ 16 8 (by simp (disch := omega) only [fieldOf, field_low, field_high]; rfl) (masked_none _)) (fun h => nomatch h) (by simp (disch := omega) only [fieldOf, field_low, field_high, Nat.sub_self, BitVec.extractLsb'_eq_self])
theorem brx (a0 a1) : Statement (.brx a0 a1) :=
  byRow (p := none) (k := 0x0#4) (l := 0xD#4) rfl (by simp (disch := omega) only [fieldOf, field_low, field_high]; rfl) (by simp (disch := omega) only [fieldOf, field_low, field_high]; rfl) (by decide) rfl
    (masked_field _ _ 14 2 (by simp (disch := omega) only [fieldOf, field_low, field_high]; rfl) (masked_none _)) (fun h => nomatch h) (by simp (disch := omega) only [fieldOf, field_low, field_high, Nat.sub_self, BitVec.extractLsb'_eq_self])
theorem setmode (a0) : Statement (.setmode a0) :=
  byRow (p := none) (k := 0x0#4) (l := 0xE#4) rfl (by simp (disch := omega) only [fieldOf, field_low, field_high]; rfl) (by simp (disch := omega) only [fieldOf, field_low, field_high]; rfl) (by decide) rfl
    (masked_field _ _ 20 4 (by simp (disch := omega) only [fieldOf, field_low, field_high]; rfl) (masked_none _)) (fun h => nomatch h) (by simp (disch := omega) only [fieldOf, field_low, field_high, Nat.sub_self, BitVec.extractLsb'_eq_self])
theorem ipref (a0 a1) : Statement (.ipref a0 a1) :=
  byRow (p := none) (k := 0x0#4) (l := 0xF#4) rfl (by simp (disch := omega) only [fieldOf, field_low, field_high]; rfl) (by simp (disch := omega) only [fieldOf, field_low, field_high]; rfl) (by decide) rfl
    (masked_field _ _ 14 2 (by simp (disch := omega) only [fieldOf, field_low, field_high]; rfl) (masked_none _)) (fun h => nomatch h) (by simp (disch := omega) only [fieldOf, field_low, field_high, Nat.sub_self, BitVec.extractLsb'_eq_self])
theorem add (a0 a1 a2 a3) : Statement (.add a0 a1 a2 a3) :=
  byRow (p := a0) (k := 0x1#4) (l := 0x0#4) rfl (by simp (disch := omega) only [fieldOf, field_low, field_high]; rfl) (by simp (disch := omega) only [fieldOf, field_low, field_high]; rfl) (by decide) rfl
    (masked_none _) (fun _ => rfl) (by simp (disch := omega) only [fieldOf, field_low, field_high, Nat.sub_self, BitVec.extractLsb'_eq_self])
theorem sub (a0 a1 a2 a3) : Statement (.sub a0 a1 a2 a3) :=
  byRow (p := a0) (k := 0x1#4) (l := 0x1#4) rfl (by simp (disch := omega) only [fieldOf, field_low, field_high]; rfl) (by simp (disch := omega) only [fieldOf, field_low, field_high]; rfl) (by decide) rfl
    (masked_none _) (fun _ => rfl) (by simp (disch := omega) only [fieldOf, field_low, field_high, Nat.sub_self, BitVec.extractLsb'_eq_self])
theorem mul (a0 a1 a2 a3) : Statement (.mul a0 a1 a2 a3) :=
  byRow (p := a0) (k := 0x1#4) (l := 0x2#4) rfl (by simp (disch := omega) only [fieldOf, field_low, field_high]; rfl) (by simp (disch := omega) only [fieldOf, field_low, field_high]; rfl) (by decide) rfl
    (masked_none _) (fun _ => rfl) (by simp (disch := omega) only [fieldOf, field_low, field_high, Nat.sub_self, BitVec.extractLsb'_eq_self])
theorem mulh (a0 a1 a2 a3) : Statement (.mulh a0 a1 a2 a3) :=
  byRow (p := a0) (k := 0x1#4) (l := 0x3#4) rfl (by simp (disch := omega) only [fieldOf, field_low, field_high]; rfl) (by simp (disch := omega) only [fieldOf, field_low, field_high]; rfl) (by decide) rfl
    (masked_none _) (fun _ => rfl) (by simp (disch := omega) only [fieldOf, field_low, field_high, Nat.sub_self, BitVec.extractLsb'_eq_self])
theorem mad (a0 a1 a2 a3) : Statement (.mad a0 a1 a2 a3) :=
  byRow (p := a0) (k := 0x1#4) (l := 0x4#4) rfl (by simp (disch := omega) only [fieldOf, field_low, field_high]; rfl) (by simp (disch := omega) only [fieldOf, field_low, field_high]; rfl) (by decide) rfl
    (masked_none _) (fun _ => rfl) (by simp (disch := omega) only [fieldOf, field_low, field_high, Nat.sub_self, BitVec.extractLsb'_eq_self])
theorem iand (a0 a1 a2 a3) : Statement (.iand a0 a1 a2 a3) :=
  byRow (p := a0) (k := 0x1#4) (l := 0x5#4) rfl (by simp (disch := omega) only [fieldOf, field_low, field_high]; rfl) (by simp (disch := omega) only [fieldOf, field_low, field_high]; rfl) (by decide) rfl
    (masked_none _) (fun _ => rfl) (by simp (disch := omega) only [fieldOf, field_low, field_high, Nat.sub_self, BitVec.extractLsb'_eq_self])
theorem ior (a0 a1 a2 a3) : Statement (.ior a0 a1 a2 a3) :=
  byRow (p := a0) (k := 0x1#4) (l := 0x6#4) rfl (by simp (disch := omega) only [fieldOf, field_low, field_high]; rfl) (by simp (disch := omega) only [fieldOf, field_low, field_high]; rfl) (by decide) rfl
    (masked_none _) (fun _ => rfl) (by simp (disch := omega) only [fieldOf, field_low, field_high, Nat.sub_self, BitVec.extractLsb'_eq_self])
theorem ixor (a0 a1 a2 a3) : Statement (.ixor a0 a1 a2 a3) :=
  byRow (p := a0) (k := 0x1#4) (l := 0x7#4) rfl (by simp (disch := omega) only [fieldOf, field_low, field_high]; rfl) (by simp (disch := omega) only [fieldOf, field_low, field_high]; rfl) (by decide) rfl
    (masked_none _) (fun _ => rfl) (by simp (disch := omega) only [fieldOf, field_low, field_high, Nat.sub_self, BitVec.extractLsb'_eq_self])
theorem shl (a0 a1 a2 a3) : Statement (.shl a0 a1 a2 a3) :=
  byRow (p := a0) (k := 0x1#4) (l := 0x8#4) rfl (by simp (disch := omega) only [fieldOf, field_low, field_high]; rfl) (by simp (disch := omega) only [fieldOf, field_low, field_high]; rfl) (by decide) rfl
    (masked_none _) (fun _ => rfl) (by simp (disch := omega) only [fieldOf, field_low, field_high, Nat.sub_self, BitVec.extractLsb'_eq_self])
theorem shr (a0 a1 a2 a3) : Statement (.shr a0 a1 a2 a3) :=
  byRow (p := a0) (k := 0x1#4) (l := 0x9#4) rfl (by simp (disch := omega) only [fieldOf, field_low, field_high]; rfl) (by simp (disch := omega) only [fieldOf, field_low, field_high]; rfl) (by decide) rfl
    (masked_none _) (fun _ => rfl) (by simp (disch := omega) only [fieldOf, field_low, field_high, Nat.sub_self, BitVec.extractLsb'_eq_self])
theorem sar (a0 a1 a2 a3) : Statement (.sar a0 a1 a2 a3) :=
  byRow (p := a0) (k := 0x1#4) (l := 0xA#4) rfl (by simp (disch := omega) only [fieldOf, field_low, field_high]; rfl) (by simp (disch := omega) only [fieldOf, field_low, field_high]; rfl) (by decide) rfl
    (masked_none _) (fun _ => rfl) (by simp (disch := omega) only [fieldOf, field_low, field_high, Nat.sub_self, BitVec.extractLsb'_eq_self])
theorem imin (a0 a1 a2 a3) : Statement (.imin a0 a1 a2 a3) :=
  byRow (p := a0) (k := 0x1#4) (l := 0xB#4) rfl (by simp (disch := omega) only [fieldOf, field_low, field_high]; rfl) (by simp (disch := omega) only [fieldOf, field_low, field_high]; rfl) (by decide) rfl
    (masked_none _) (fun _ => rfl) (by simp (disch := omega) only [fieldOf, field_low, field_high, Nat.sub_self, BitVec.extractLsb'_eq_self])
theorem imax (a0 a1 a2 a3) : Statement (.imax a0 a1 a2 a3) :=
  byRow (p := a0) (k := 0x1#4) (l := 0xC#4) rfl (by simp (disch := omega) only [fieldOf, field_low, field_high]; rfl) (by simp (disch := omega) only [fieldOf, field_low, field_high]; rfl) (by decide) rfl
    (masked_none _) (fun _ => rfl) (by simp (disch := omega) only [fieldOf, field_low, field_high, Nat.sub_self, BitVec.extractLsb'_eq_self])
theorem sel (a0 a1 a2 a3) : Statement (.sel a0 a1 a2 a3) :=
  byRow (p := a0) (k := 0x1#4) (l := 0xD#4) rfl (by simp (disch := omega) only [fieldOf, field_low, field_high]; rfl) (by simp (disch := omega) only [fieldOf, field_low, field_high]; rfl) (by decide) rfl
    (masked_none _) (fun _ => rfl) (by simp (disch := omega) only [fieldOf, field_low, field_high, Nat.sub_self, BitVec.extractLsb'_eq_self])
theorem iabs (a0 a1 a2) : Statement (.iabs a0 a1 a2) :=
  byRow (p := a0) (k := 0x1#4) (l := 0xE#4) rfl (by simp (disch := omega) only [fieldOf, field_low, field_high]; rfl) (by simp (disch := omega) only [fieldOf, field_low, field_high]; rfl) (by decide) rfl
    (masked_field _ _ 0 8 (by simp (disch := omega) only [fieldOf, field_low, field_high]; rfl) (masked_none _)) (fun _ => rfl) (by simp (disch := omega) only [fieldOf, field_low, field_high, Nat.sub_self, BitVec.extractLsb'_eq_self])
theorem ineg (a0 a1 a2) : Statement (.ineg a0 a1 a2) :=
  byRow (p := a0) (k := 0x1#4) (l := 0xF#4) rfl (by simp (disch := omega) only [fieldOf, field_low, field_high]; rfl) (by simp (disch := omega) only [fieldOf, field_low, field_high]; rfl) (by decide) rfl
    (masked_field _ _ 0 8 (by simp (disch := omega) only [fieldOf, field_low, field_high]; rfl) (masked_none _)) (fun _ => rfl) (by simp (disch := omega) only [fieldOf, field_low, field_high, Nat.sub_self, BitVec.extractLsb'_eq_self])
theorem cmpeq (a0 a1 a2 a3) : Statement (.cmpeq a0 a1 a2 a3) :=
  byRow (p := a0) (k := 0x2#4) (l := 0x0#4) rfl (by simp (disch := omega) only [fieldOf, field_low, field_high]; rfl) (by simp (disch := omega) only [fieldOf, field_low, field_high]; rfl) (by decide) rfl
    (masked_none _) (fun _ => rfl) (by simp (disch := omega) only [fieldOf, field_low, field_high, Nat.sub_self, BitVec.extractLsb'_eq_self])
theorem cmpne (a0 a1 a2 a3) : Statement (.cmpne a0 a1 a2 a3) :=
  byRow (p := a0) (k := 0x2#4) (l := 0x1#4) rfl (by simp (disch := omega) only [fieldOf, field_low, field_high]; rfl) (by simp (disch := omega) only [fieldOf, field_low, field_high]; rfl) (by decide) rfl
    (masked_none _) (fun _ => rfl) (by simp (disch := omega) only [fieldOf, field_low, field_high, Nat.sub_self, BitVec.extractLsb'_eq_self])
theorem cmplt (a0 a1 a2 a3) : Statement (.cmplt a0 a1 a2 a3) :=
  byRow (p := a0) (k := 0x2#4) (l := 0x2#4) rfl (by simp (disch := omega) only [fieldOf, field_low, field_high]; rfl) (by simp (disch := omega) only [fieldOf, field_low, field_high]; rfl) (by decide) rfl
    (masked_none _) (fun _ => rfl) (by simp (disch := omega) only [fieldOf, field_low, field_high, Nat.sub_self, BitVec.extractLsb'_eq_self])
theorem cmple (a0 a1 a2 a3) : Statement (.cmple a0 a1 a2 a3) :=
  byRow (p := a0) (k := 0x2#4) (l := 0x3#4) rfl (by simp (disch := omega) only [fieldOf, field_low, field_high]; rfl) (by simp (disch := omega) only [fieldOf, field_low, field_high]; rfl) (by decide) rfl
    (masked_none _) (fun _ => rfl) (by simp (disch := omega) only [fieldOf, field_low, field_high, Nat.sub_self, BitVec.extractLsb'_eq_self])
theorem clz (a0 a1 a2) : Statement (.clz a0 a1 a2) :=
  byRow (p := a0) (k := 0x2#4) (l := 0x4#4) rfl (by simp (disch := omega) only [fieldOf, field_low, field_high]; rfl) (by simp (disch := omega) only [fieldOf, field_low, field_high]; rfl) (by decide) rfl
    (masked_field _ _ 0 8 (by simp (disch := omega) only [fieldOf, field_low, field_high]; rfl) (masked_none _)) (fun _ => rfl) (by simp (disch := omega) only [fieldOf, field_low, field_high, Nat.sub_self, BitVec.extractLsb'_eq_self])
theorem popc (a0 a1 a2) : Statement (.popc a0 a1 a2) :=
  byRow (p := a0) (k := 0x2#4) (l := 0x5#4) rfl (by simp (disch := omega) only [fieldOf, field_low, field_high]; rfl) (by simp (disch := omega) only [fieldOf, field_low, field_high]; rfl) (by decide) rfl
    (masked_field _ _ 0 8 (by simp (disch := omega) only [fieldOf, field_low, field_high]; rfl) (masked_none _)) (fun _ => rfl) (by simp (disch := omega) only [fieldOf, field_low, field_high, Nat.sub_self, BitVec.extractLsb'_eq_self])
theorem brev (a0 a1 a2) : Statement (.brev a0 a1 a2) :=
  byRow (p := a0) (k := 0x2#4) (l := 0x6#4) rfl (by simp (disch := omega) only [fieldOf, field_low, field_high]; rfl) (by simp (disch := omega) only [fieldOf, field_low, field_high]; rfl) (by decide) rfl
    (masked_field _ _ 0 8 (by simp (disch := omega) only [fieldOf, field_low, field_high]; rfl) (masked_none _)) (fun _ => rfl) (by simp (disch := omega) only [fieldOf, field_low, field_high, Nat.sub_self, BitVec.extractLsb'_eq_self])
theorem bfx (a0 a1 a2 a3) : Statement (.bfx a0 a1 a2 a3) :=
  byRow (p := a0) (k := 0x2#4) (l := 0x7#4) rfl (by simp (disch := omega) only [fieldOf, field_low, field_high]; rfl) (by simp (disch := omega) only [fieldOf, field_low, field_high]; rfl) (by decide) rfl
    (masked_none _) (fun _ => rfl) (by simp (disch := omega) only [fieldOf, field_low, field_high, Nat.sub_self, BitVec.extractLsb'_eq_self])
theorem bfi (a0 a1 a2 a3) : Statement (.bfi a0 a1 a2 a3) :=
  byRow (p := a0) (k := 0x2#4) (l := 0x8#4) rfl (by simp (disch := omega) only [fieldOf, field_low, field_high]; rfl) (by simp (disch := omega) only [fieldOf, field_low, field_high]; rfl) (by decide) rfl
    (masked_none _) (fun _ => rfl) (by simp (disch := omega) only [fieldOf, field_low, field_high, Nat.sub_self, BitVec.extractLsb'_eq_self])
theorem prmt (a0 a1 a2 a3) : Statement (.prmt a0 a1 a2 a3) :=
  byRow (p := a0) (k := 0x2#4) (l := 0x9#4) rfl (by simp (disch := omega) only [fieldOf, field_low, field_high]; rfl) (by simp (disch := omega) only [fieldOf, field_low, field_high]; rfl) (by decide) rfl
    (masked_none _) (fun _ => rfl) (by simp (disch := omega) only [fieldOf, field_low, field_high, Nat.sub_self, BitVec.extractLsb'_eq_self])
theorem dp4 (a0 a1 a2 a3) : Statement (.dp4 a0 a1 a2 a3) :=
  byRow (p := a0) (k := 0x2#4) (l := 0xA#4) rfl (by simp (disch := omega) only [fieldOf, field_low, field_high]; rfl) (by simp (disch := omega) only [fieldOf, field_low, field_high]; rfl) (by decide) rfl
    (masked_none _) (fun _ => rfl) (by simp (disch := omega) only [fieldOf, field_low, field_high, Nat.sub_self, BitVec.extractLsb'_eq_self])
theorem dp4s (a0 a1 a2 a3) : Statement (.dp4s a0 a1 a2 a3) :=
  byRow (p := a0) (k := 0x2#4) (l := 0xB#4) rfl (by simp (disch := omega) only [fieldOf, field_low, field_high]; rfl) (by simp (disch := omega) only [fieldOf, field_low, field_high]; rfl) (by decide) rfl
    (masked_none _) (fun _ => rfl) (by simp (disch := omega) only [fieldOf, field_low, field_high, Nat.sub_self, BitVec.extractLsb'_eq_self])
theorem dp2 (a0 a1 a2 a3) : Statement (.dp2 a0 a1 a2 a3) :=
  byRow (p := a0) (k := 0x2#4) (l := 0xC#4) rfl (by simp (disch := omega) only [fieldOf, field_low, field_high]; rfl) (by simp (disch := omega) only [fieldOf, field_low, field_high]; rfl) (by decide) rfl
    (masked_none _) (fun _ => rfl) (by simp (disch := omega) only [fieldOf, field_low, field_high, Nat.sub_self, BitVec.extractLsb'_eq_self])
theorem dp2s (a0 a1 a2 a3) : Statement (.dp2s a0 a1 a2 a3) :=
  byRow (p := a0) (k := 0x2#4) (l := 0xD#4) rfl (by simp (disch := omega) only [fieldOf, field_low, field_high]; rfl) (by simp (disch := omega) only [fieldOf, field_low, field_high]; rfl) (by decide) rfl
    (masked_none _) (fun _ => rfl) (by simp (disch := omega) only [fieldOf, field_low, field_high, Nat.sub_self, BitVec.extractLsb'_eq_self])
theorem mov (a0 a1 a2) : Statement (.mov a0 a1 a2) :=
  byRow (p := a0) (k := 0x2#4) (l := 0xE#4) rfl (by simp (disch := omega) only [fieldOf, field_low, field_high]; rfl) (by simp (disch := omega) only [fieldOf, field_low, field_high]; rfl) (by decide) rfl
    (masked_field _ _ 0 8 (by simp (disch := omega) only [fieldOf, field_low, field_high]; rfl) (masked_none _)) (fun _ => rfl) (by simp (disch := omega) only [fieldOf, field_low, field_high, Nat.sub_self, BitVec.extractLsb'_eq_self])
theorem inot (a0 a1 a2) : Statement (.inot a0 a1 a2) :=
  byRow (p := a0) (k := 0x2#4) (l := 0xF#4) rfl (by simp (disch := omega) only [fieldOf, field_low, field_high]; rfl) (by simp (disch := omega) only [fieldOf, field_low, field_high]; rfl) (by decide) rfl
    (masked_field _ _ 0 8 (by simp (disch := omega) only [fieldOf, field_low, field_high]; rfl) (masked_none _)) (fun _ => rfl) (by simp (disch := omega) only [fieldOf, field_low, field_high, Nat.sub_self, BitVec.extractLsb'_eq_self])
theorem addi (a0 a1 a2 a3) : Statement (.addi a0 a1 a2 a3) :=
  byRow (p := a0) (k := 0x3#4) (l := 0x0#4) rfl (by simp (disch := omega) only [fieldOf, field_low, field_high]; rfl) (by simp (disch := omega) only [fieldOf, field_low, field_high]; rfl) (by decide) rfl
    (masked_none _) (fun _ => rfl) (by simp (disch := omega) only [fieldOf, field_low, field_high, Nat.sub_self, BitVec.extractLsb'_eq_self])
theorem andi (a0 a1 a2 a3) : Statement (.andi a0 a1 a2 a3) :=
  byRow (p := a0) (k := 0x3#4) (l := 0x1#4) rfl (by simp (disch := omega) only [fieldOf, field_low, field_high]; rfl) (by simp (disch := omega) only [fieldOf, field_low, field_high]; rfl) (by decide) rfl
    (masked_none _) (fun _ => rfl) (by simp (disch := omega) only [fieldOf, field_low, field_high, Nat.sub_self, BitVec.extractLsb'_eq_self])
theorem ori (a0 a1 a2 a3) : Statement (.ori a0 a1 a2 a3) :=
  byRow (p := a0) (k := 0x3#4) (l := 0x2#4) rfl (by simp (disch := omega) only [fieldOf, field_low, field_high]; rfl) (by simp (disch := omega) only [fieldOf, field_low, field_high]; rfl) (by decide) rfl
    (masked_none _) (fun _ => rfl) (by simp (disch := omega) only [fieldOf, field_low, field_high, Nat.sub_self, BitVec.extractLsb'_eq_self])
theorem xori (a0 a1 a2 a3) : Statement (.xori a0 a1 a2 a3) :=
  byRow (p := a0) (k := 0x3#4) (l := 0x3#4) rfl (by simp (disch := omega) only [fieldOf, field_low, field_high]; rfl) (by simp (disch := omega) only [fieldOf, field_low, field_high]; rfl) (by decide) rfl
    (masked_none _) (fun _ => rfl) (by simp (disch := omega) only [fieldOf, field_low, field_high, Nat.sub_self, BitVec.extractLsb'_eq_self])
theorem shli (a0 a1 a2 a3) : Statement (.shli a0 a1 a2 a3) :=
  byRow (p := a0) (k := 0x3#4) (l := 0x4#4) rfl (by simp (disch := omega) only [fieldOf, field_low, field_high]; rfl) (by simp (disch := omega) only [fieldOf, field_low, field_high]; rfl) (by decide) rfl
    (masked_field _ _ 5 3 (by simp (disch := omega) only [fieldOf, field_low, field_high]; rfl) (masked_none _)) (fun _ => rfl) (by simp (disch := omega) only [fieldOf, field_low, field_high, Nat.sub_self, BitVec.extractLsb'_eq_self])
theorem shri (a0 a1 a2 a3) : Statement (.shri a0 a1 a2 a3) :=
  byRow (p := a0) (k := 0x3#4) (l := 0x5#4) rfl (by simp (disch := omega) only [fieldOf, field_low, field_high]; rfl) (by simp (disch := omega) only [fieldOf, field_low, field_high]; rfl) (by decide) rfl
    (masked_field _ _ 5 3 (by simp (disch := omega) only [fieldOf, field_low, field_high]; rfl) (masked_none _)) (fun _ => rfl) (by simp (disch := omega) only [fieldOf, field_low, field_high, Nat.sub_self, BitVec.extractLsb'_eq_self])
theorem sari (a0 a1 a2 a3) : Statement (.sari a0 a1 a2 a3) :=
  byRow (p := a0) (k := 0x3#4) (l := 0x6#4) rfl (by simp (disch := omega) only [fieldOf, field_low, field_high]; rfl) (by simp (disch := omega) only [fieldOf, field_low, field_high]; rfl) (by decide) rfl
    (masked_field _ _ 5 3 (by simp (disch := omega) only [fieldOf, field_low, field_high]; rfl) (masked_none _)) (fun _ => rfl) (by simp (disch := omega) only [fieldOf, field_low, field_high, Nat.sub_self, BitVec.extractLsb'_eq_self])
theorem muli (a0 a1 a2 a3) : Statement (.muli a0 a1 a2 a3) :=
  byRow (p := a0) (k := 0x3#4) (l := 0x7#4) rfl (by simp (disch := omega) only [fieldOf, field_low, field_high]; rfl) (by simp (disch := omega) only [fieldOf, field_low, field_high]; rfl) (by decide) rfl
    (masked_none _) (fun _ => rfl) (by simp (disch := omega) only [fieldOf, field_low, field_high, Nat.sub_self, BitVec.extractLsb'_eq_self])
theorem cmpeqi (a0 a1 a2 a3) : Statement (.cmpeqi a0 a1 a2 a3) :=
  byRow (p := a0) (k := 0x3#4) (l := 0x8#4) rfl (by simp (disch := omega) only [fieldOf, field_low, field_high]; rfl) (by simp (disch := omega) only [fieldOf, field_low, field_high]; rfl) (by decide) rfl
    (masked_none _) (fun _ => rfl) (by simp (disch := omega) only [fieldOf, field_low, field_high, Nat.sub_self, BitVec.extractLsb'_eq_self])
theorem cmplti (a0 a1 a2 a3) : Statement (.cmplti a0 a1 a2 a3) :=
  byRow (p := a0) (k := 0x3#4) (l := 0x9#4) rfl (by simp (disch := omega) only [fieldOf, field_low, field_high]; rfl) (by simp (disch := omega) only [fieldOf, field_low, field_high]; rfl) (by decide) rfl
    (masked_none _) (fun _ => rfl) (by simp (disch := omega) only [fieldOf, field_low, field_high, Nat.sub_self, BitVec.extractLsb'_eq_self])
theorem movi (a0 a1 a2) : Statement (.movi a0 a1 a2) :=
  byRow (p := a0) (k := 0x3#4) (l := 0xA#4) rfl (by simp (disch := omega) only [fieldOf, field_low, field_high]; rfl) (by simp (disch := omega) only [fieldOf, field_low, field_high]; rfl) (by decide) rfl
    (masked_none _) (fun _ => rfl) (by simp (disch := omega) only [fieldOf, field_low, field_high, Nat.sub_self, BitVec.extractLsb'_eq_self])
theorem movhi (a0 a1 a2) : Statement (.movhi a0 a1 a2) :=
  byRow (p := a0) (k := 0x3#4) (l := 0xB#4) rfl (by simp (disch := omega) only [fieldOf, field_low, field_high]; rfl) (by simp (disch := omega) only [fieldOf, field_low, field_high]; rfl) (by decide) rfl
    (masked_none _) (fun _ => rfl) (by simp (disch := omega) only [fieldOf, field_low, field_high, Nat.sub_self, BitVec.extractLsb'_eq_self])
theorem movx (a0 a1 a2) : Statement (.movx a0 a1 a2) :=
  byRow (p := a0) (k := 0x3#4) (l := 0xC#4) rfl (by simp (disch := omega) only [fieldOf, field_low, field_high]; rfl) (by simp (disch := omega) only [fieldOf, field_low, field_high]; rfl) (by decide) rfl
    (masked_field _ _ 8 8 (by simp (disch := omega) only [fieldOf, field_low, field_high]; rfl) (masked_none _)) (fun _ => rfl) (by simp (disch := omega) only [fieldOf, field_low, field_high, Nat.sub_self, BitVec.extractLsb'_eq_self])
theorem xmov (a0 a1 a2) : Statement (.xmov a0 a1 a2) :=
  byRow (p := a0) (k := 0x3#4) (l := 0xD#4) rfl (by simp (disch := omega) only [fieldOf, field_low, field_high]; rfl) (by simp (disch := omega) only [fieldOf, field_low, field_high]; rfl) (by decide) rfl
    (masked_field _ _ 16 8 (by simp (disch := omega) only [fieldOf, field_low, field_high]; rfl) (masked_none _)) (fun _ => rfl) (by simp (disch := omega) only [fieldOf, field_low, field_high, Nat.sub_self, BitVec.extractLsb'_eq_self])
theorem movrd (a0 a1 a2) : Statement (.movrd a0 a1 a2) :=
  byRow (p := a0) (k := 0x3#4) (l := 0xE#4) rfl (by simp (disch := omega) only [fieldOf, field_low, field_high]; rfl) (by simp (disch := omega) only [fieldOf, field_low, field_high]; rfl) (by decide) rfl
    (masked_field _ _ 0 8 (by simp (disch := omega) only [fieldOf, field_low, field_high]; rfl) (masked_none _)) (fun _ => rfl) (by simp (disch := omega) only [fieldOf, field_low, field_high, Nat.sub_self, BitVec.extractLsb'_eq_self])
theorem movrw (a0 a1 a2) : Statement (.movrw a0 a1 a2) :=
  byRow (p := a0) (k := 0x3#4) (l := 0xF#4) rfl (by simp (disch := omega) only [fieldOf, field_low, field_high]; rfl) (by simp (disch := omega) only [fieldOf, field_low, field_high]; rfl) (by decide) rfl
    (masked_field _ _ 0 8 (by simp (disch := omega) only [fieldOf, field_low, field_high]; rfl) (masked_none _)) (fun _ => rfl) (by simp (disch := omega) only [fieldOf, field_low, field_high, Nat.sub_self, BitVec.extractLsb'_eq_self])
theorem add64 (a0 a1 a2 a3) : Statement (.add64 a0 a1 a2 a3) :=
  byRow (p := a0) (k := 0x4#4) (l := 0x0#4) rfl (by simp (disch := omega) only [fieldOf, field_low, field_high]; rfl) (by simp (disch := omega) only [fieldOf, field_low, field_high]; rfl) (by decide) rfl
    (masked_none _) (fun _ => rfl) (by simp (disch := omega) only [fieldOf, field_low, field_high, Nat.sub_self, BitVec.extractLsb'_eq_self])
theorem add64w (a0 a1 a2 a3) : Statement (.add64w a0 a1 a2 a3) :=
  byRow (p := a0) (k := 0x4#4) (l := 0x1#4) rfl (by simp (disch := omega) only [fieldOf, field_low, field_high]; rfl) (by simp (disch := omega) only [fieldOf, field_low, field_high]; rfl) (by decide) rfl
    (masked_none _) (fun _ => rfl) (by simp (disch := omega) only [fieldOf, field_low, field_high, Nat.sub_self, BitVec.extractLsb'_eq_self])
theorem sub64 (a0 a1 a2 a3) : Statement (.sub64 a0 a1 a2 a3) :=
  byRow (p := a0) (k := 0x4#4) (l := 0x2#4) rfl (by simp (disch := omega) only [fieldOf, field_low, field_high]; rfl) (by simp (disch := omega) only [fieldOf, field_low, field_high]; rfl) (by decide) rfl
    (masked_none _) (fun _ => rfl) (by simp (disch := omega) only [fieldOf, field_low, field_high, Nat.sub_self, BitVec.extractLsb'_eq_self])
theorem addi64 (a0 a1 a2 a3) : Statement (.addi64 a0 a1 a2 a3) :=
  byRow (p := a0) (k := 0x4#4) (l := 0x3#4) rfl (by simp (disch := omega) only [fieldOf, field_low, field_high]; rfl) (by simp (disch := omega) only [fieldOf, field_low, field_high]; rfl) (by decide) rfl
    (masked_none _) (fun _ => rfl) (by simp (disch := omega) only [fieldOf, field_low, field_high, Nat.sub_self, BitVec.extractLsb'_eq_self])
theorem lea4 (a0 a1 a2 a3) : Statement (.lea4 a0 a1 a2 a3) :=
  byRow (p := a0) (k := 0x4#4) (l := 0x4#4) rfl (by simp (disch := omega) only [fieldOf, field_low, field_high]; rfl) (by simp (disch := omega) only [fieldOf, field_low, field_high]; rfl) (by decide) rfl
    (masked_none _) (fun _ => rfl) (by simp (disch := omega) only [fieldOf, field_low, field_high, Nat.sub_self, BitVec.extractLsb'_eq_self])
theorem lea8 (a0 a1 a2 a3) : Statement (.lea8 a0 a1 a2 a3) :=
  byRow (p := a0) (k := 0x4#4) (l := 0x5#4) rfl (by simp (disch := omega) only [fieldOf, field_low, field_high]; rfl) (by simp (disch := omega) only [fieldOf, field_low, field_high]; rfl) (by decide) rfl
    (masked_none _) (fun _ => rfl) (by simp (disch := omega) only [fieldOf, field_low, field_high, Nat.sub_self, BitVec.extractLsb'_eq_self])
theorem lea16 (a0 a1 a2 a3) : Statement (.lea16 a0 a1 a2 a3) :=
  byRow (p := a0) (k := 0x4#4) (l := 0x6#4) rfl (by simp (disch := omega) only [fieldOf, field_low, field_high]; rfl) (by simp (disch := omega) only [fieldOf, field_low, field_high]; rfl) (by decide) rfl
    (masked_none _) (fun _ => rfl) (by simp (disch := omega) only [fieldOf, field_low, field_high, Nat.sub_self, BitVec.extractLsb'_eq_self])
theorem mov64 (a0 a1 a2) : Statement (.mov64 a0 a1 a2) :=
  byRow (p := a0) (k := 0x4#4) (l := 0x7#4) rfl (by simp (disch := omega) only [fieldOf, field_low, field_high]; rfl) (by simp (disch := omega) only [fieldOf, field_low, field_high]; rfl) (by decide) rfl
    (masked_field _ _ 0 8 (by simp (disch := omega) only [fieldOf, field_low, field_high]; rfl) (masked_none _)) (fun _ => rfl) (by simp (disch := omega) only [fieldOf, field_low, field_high, Nat.sub_self, BitVec.extractLsb'_eq_self])
theorem wmul (a0 a1 a2 a3) : Statement (.wmul a0 a1 a2 a3) :=
  byRow (p := a0) (k := 0x4#4) (l := 0x8#4) rfl (by simp (disch := omega) only [fieldOf, field_low, field_high]; rfl) (by simp (disch := omega) only [fieldOf, field_low, field_high]; rfl) (by decide) rfl
    (masked_none _) (fun _ => rfl) (by simp (disch := omega) only [fieldOf, field_low, field_high, Nat.sub_self, BitVec.extractLsb'_eq_self])
theorem wmad (a0 a1 a2 a3) : Statement (.wmad a0 a1 a2 a3) :=
  byRow (p := a0) (k := 0x4#4) (l := 0x9#4) rfl (by simp (disch := omega) only [fieldOf, field_low, field_high]; rfl) (by simp (disch := omega) only [fieldOf, field_low, field_high]; rfl) (by decide) rfl
    (masked_none _) (fun _ => rfl) (by simp (disch := omega) only [fieldOf, field_low, field_high, Nat.sub_self, BitVec.extractLsb'_eq_self])
theorem shl64 (a0 a1 a2 a3) : Statement (.shl64 a0 a1 a2 a3) :=
  byRow (p := a0) (k := 0x4#4) (l := 0xA#4) rfl (by simp (disch := omega) only [fieldOf, field_low, field_high]; rfl) (by simp (disch := omega) only [fieldOf, field_low, field_high]; rfl) (by decide) rfl
    (masked_none _) (fun _ => rfl) (by simp (disch := omega) only [fieldOf, field_low, field_high, Nat.sub_self, BitVec.extractLsb'_eq_self])
theorem shr64 (a0 a1 a2 a3) : Statement (.shr64 a0 a1 a2 a3) :=
  byRow (p := a0) (k := 0x4#4) (l := 0xB#4) rfl (by simp (disch := omega) only [fieldOf, field_low, field_high]; rfl) (by simp (disch := omega) only [fieldOf, field_low, field_high]; rfl) (by decide) rfl
    (masked_none _) (fun _ => rfl) (by simp (disch := omega) only [fieldOf, field_low, field_high, Nat.sub_self, BitVec.extractLsb'_eq_self])
theorem cmplt64 (a0 a1 a2 a3) : Statement (.cmplt64 a0 a1 a2 a3) :=
  byRow (p := a0) (k := 0x4#4) (l := 0xC#4) rfl (by simp (disch := omega) only [fieldOf, field_low, field_high]; rfl) (by simp (disch := omega) only [fieldOf, field_low, field_high]; rfl) (by decide) rfl
    (masked_none _) (fun _ => rfl) (by simp (disch := omega) only [fieldOf, field_low, field_high, Nat.sub_self, BitVec.extractLsb'_eq_self])
theorem chkb (a0 a1 a2 a3) : Statement (.chkb a0 a1 a2 a3) :=
  byRow (p := none) (k := 0x4#4) (l := 0xD#4) rfl (by simp (disch := omega) only [fieldOf, field_low, field_high]; rfl) (by simp (disch := omega) only [fieldOf, field_low, field_high]; rfl) (by decide) rfl
    (masked_none _) (fun h => nomatch h) (by simp (disch := omega) only [fieldOf, field_low, field_high, Nat.sub_self, BitVec.extractLsb'_eq_self])
theorem chkr (a0 a1) : Statement (.chkr a0 a1) :=
  byRow (p := none) (k := 0x4#4) (l := 0xE#4) rfl (by simp (disch := omega) only [fieldOf, field_low, field_high]; rfl) (by simp (disch := omega) only [fieldOf, field_low, field_high]; rfl) (by decide) rfl
    (masked_none _) (fun h => nomatch h) (by simp (disch := omega) only [fieldOf, field_low, field_high, Nat.sub_self, BitVec.extractLsb'_eq_self])
theorem chka (a0 a1 a2 a3) : Statement (.chka a0 a1 a2 a3) :=
  byRow (p := none) (k := 0x4#4) (l := 0xF#4) rfl (by simp (disch := omega) only [fieldOf, field_low, field_high]; rfl) (by simp (disch := omega) only [fieldOf, field_low, field_high]; rfl) (by decide) rfl
    (masked_none _) (fun h => nomatch h) (by simp (disch := omega) only [fieldOf, field_low, field_high, Nat.sub_self, BitVec.extractLsb'_eq_self])
theorem fadd (a0 a1 a2 a3) : Statement (.fadd a0 a1 a2 a3) :=
  byRow (p := a0) (k := 0x5#4) (l := 0x0#4) rfl (by simp (disch := omega) only [fieldOf, field_low, field_high]; rfl) (by simp (disch := omega) only [fieldOf, field_low, field_high]; rfl) (by decide) rfl
    (masked_none _) (fun _ => rfl) (by simp (disch := omega) only [fieldOf, field_low, field_high, Nat.sub_self, BitVec.extractLsb'_eq_self])
theorem fsub (a0 a1 a2 a3) : Statement (.fsub a0 a1 a2 a3) :=
  byRow (p := a0) (k := 0x5#4) (l := 0x1#4) rfl (by simp (disch := omega) only [fieldOf, field_low, field_high]; rfl) (by simp (disch := omega) only [fieldOf, field_low, field_high]; rfl) (by decide) rfl
    (masked_none _) (fun _ => rfl) (by simp (disch := omega) only [fieldOf, field_low, field_high, Nat.sub_self, BitVec.extractLsb'_eq_self])
theorem fmul (a0 a1 a2 a3) : Statement (.fmul a0 a1 a2 a3) :=
  byRow (p := a0) (k := 0x5#4) (l := 0x2#4) rfl (by simp (disch := omega) only [fieldOf, field_low, field_high]; rfl) (by simp (disch := omega) only [fieldOf, field_low, field_high]; rfl) (by decide) rfl
    (masked_none _) (fun _ => rfl) (by simp (disch := omega) only [fieldOf, field_low, field_high, Nat.sub_self, BitVec.extractLsb'_eq_self])
theorem ffma (a0 a1 a2 a3) : Statement (.ffma a0 a1 a2 a3) :=
  byRow (p := a0) (k := 0x5#4) (l := 0x3#4) rfl (by simp (disch := omega) only [fieldOf, field_low, field_high]; rfl) (by simp (disch := omega) only [fieldOf, field_low, field_high]; rfl) (by decide) rfl
    (masked_none _) (fun _ => rfl) (by simp (disch := omega) only [fieldOf, field_low, field_high, Nat.sub_self, BitVec.extractLsb'_eq_self])
theorem fmin (a0 a1 a2 a3) : Statement (.fmin a0 a1 a2 a3) :=
  byRow (p := a0) (k := 0x5#4) (l := 0x4#4) rfl (by simp (disch := omega) only [fieldOf, field_low, field_high]; rfl) (by simp (disch := omega) only [fieldOf, field_low, field_high]; rfl) (by decide) rfl
    (masked_none _) (fun _ => rfl) (by simp (disch := omega) only [fieldOf, field_low, field_high, Nat.sub_self, BitVec.extractLsb'_eq_self])
theorem fmax (a0 a1 a2 a3) : Statement (.fmax a0 a1 a2 a3) :=
  byRow (p := a0) (k := 0x5#4) (l := 0x5#4) rfl (by simp (disch := omega) only [fieldOf, field_low, field_high]; rfl) (by simp (disch := omega) only [fieldOf, field_low, field_high]; rfl) (by decide) rfl
    (masked_none _) (fun _ => rfl) (by simp (disch := omega) only [fieldOf, field_low, field_high, Nat.sub_self, BitVec.extractLsb'_eq_self])
theorem fminn (a0 a1 a2 a3) : Statement (.fminn a0 a1 a2 a3) :=
  byRow (p := a0) (k := 0x5#4) (l := 0x6#4) rfl (by simp (disch := omega) only [fieldOf, field_low, field_high]; rfl) (by simp (disch := omega) only [fieldOf, field_low, field_high]; rfl) (by decide) rfl
    (masked_none _) (fun _ => rfl) (by simp (disch := omega) only [fieldOf, field_low, field_high, Nat.sub_self, BitVec.extractLsb'_eq_self])
theorem fmaxn (a0 a1 a2 a3) : Statement (.fmaxn a0 a1 a2 a3) :=
  byRow (p := a0) (k := 0x5#4) (l := 0x7#4) rfl (by simp (disch := omega) only [fieldOf, field_low, field_high]; rfl) (by simp (disch := omega) only [fieldOf, field_low, field_high]; rfl) (by decide) rfl
    (masked_none _) (fun _ => rfl) (by simp (disch := omega) only [fieldOf, field_low, field_high, Nat.sub_self, BitVec.extractLsb'_eq_self])
theorem fcmpeq (a0 a1 a2 a3) : Statement (.fcmpeq a0 a1 a2 a3) :=
  byRow (p := a0) (k := 0x5#4) (l := 0x8#4) rfl (by simp (disch := omega) only [fieldOf, field_low, field_high]; rfl) (by simp (disch := omega) only [fieldOf, field_low, field_high]; rfl) (by decide) rfl
    (masked_none _) (fun _ => rfl) (by simp (disch := omega) only [fieldOf, field_low, field_high, Nat.sub_self, BitVec.extractLsb'_eq_self])
theorem fcmplt (a0 a1 a2 a3) : Statement (.fcmplt a0 a1 a2 a3) :=
  byRow (p := a0) (k := 0x5#4) (l := 0x9#4) rfl (by simp (disch := omega) only [fieldOf, field_low, field_high]; rfl) (by simp (disch := omega) only [fieldOf, field_low, field_high]; rfl) (by decide) rfl
    (masked_none _) (fun _ => rfl) (by simp (disch := omega) only [fieldOf, field_low, field_high, Nat.sub_self, BitVec.extractLsb'_eq_self])
theorem fcmple (a0 a1 a2 a3) : Statement (.fcmple a0 a1 a2 a3) :=
  byRow (p := a0) (k := 0x5#4) (l := 0xA#4) rfl (by simp (disch := omega) only [fieldOf, field_low, field_high]; rfl) (by simp (disch := omega) only [fieldOf, field_low, field_high]; rfl) (by decide) rfl
    (masked_none _) (fun _ => rfl) (by simp (disch := omega) only [fieldOf, field_low, field_high, Nat.sub_self, BitVec.extractLsb'_eq_self])
theorem fcmpun (a0 a1 a2 a3) : Statement (.fcmpun a0 a1 a2 a3) :=
  byRow (p := a0) (k := 0x5#4) (l := 0xB#4) rfl (by simp (disch := omega) only [fieldOf, field_low, field_high]; rfl) (by simp (disch := omega) only [fieldOf, field_low, field_high]; rfl) (by decide) rfl
    (masked_none _) (fun _ => rfl) (by simp (disch := omega) only [fieldOf, field_low, field_high, Nat.sub_self, BitVec.extractLsb'_eq_self])
theorem fabs (a0 a1 a2) : Statement (.fabs a0 a1 a2) :=
  byRow (p := a0) (k := 0x5#4) (l := 0xC#4) rfl (by simp (disch := omega) only [fieldOf, field_low, field_high]; rfl) (by simp (disch := omega) only [fieldOf, field_low, field_high]; rfl) (by decide) rfl
    (masked_field _ _ 0 8 (by simp (disch := omega) only [fieldOf, field_low, field_high]; rfl) (masked_none _)) (fun _ => rfl) (by simp (disch := omega) only [fieldOf, field_low, field_high, Nat.sub_self, BitVec.extractLsb'_eq_self])
theorem fneg (a0 a1 a2) : Statement (.fneg a0 a1 a2) :=
  byRow (p := a0) (k := 0x5#4) (l := 0xD#4) rfl (by simp (disch := omega) only [fieldOf, field_low, field_high]; rfl) (by simp (disch := omega) only [fieldOf, field_low, field_high]; rfl) (by decide) rfl
    (masked_field _ _ 0 8 (by simp (disch := omega) only [fieldOf, field_low, field_high]; rfl) (masked_none _)) (fun _ => rfl) (by simp (disch := omega) only [fieldOf, field_low, field_high, Nat.sub_self, BitVec.extractLsb'_eq_self])
theorem fclass (a0 a1 a2) : Statement (.fclass a0 a1 a2) :=
  byRow (p := a0) (k := 0x5#4) (l := 0xE#4) rfl (by simp (disch := omega) only [fieldOf, field_low, field_high]; rfl) (by simp (disch := omega) only [fieldOf, field_low, field_high]; rfl) (by decide) rfl
    (masked_field _ _ 0 8 (by simp (disch := omega) only [fieldOf, field_low, field_high]; rfl) (masked_none _)) (fun _ => rfl) (by simp (disch := omega) only [fieldOf, field_low, field_high, Nat.sub_self, BitVec.extractLsb'_eq_self])
theorem fscale (a0 a1 a2 a3) : Statement (.fscale a0 a1 a2 a3) :=
  byRow (p := a0) (k := 0x5#4) (l := 0xF#4) rfl (by simp (disch := omega) only [fieldOf, field_low, field_high]; rfl) (by simp (disch := omega) only [fieldOf, field_low, field_high]; rfl) (by decide) rfl
    (masked_none _) (fun _ => rfl) (by simp (disch := omega) only [fieldOf, field_low, field_high, Nat.sub_self, BitVec.extractLsb'_eq_self])
theorem frcp (a0 a1 a2) : Statement (.frcp a0 a1 a2) :=
  byRow (p := a0) (k := 0x6#4) (l := 0x0#4) rfl (by simp (disch := omega) only [fieldOf, field_low, field_high]; rfl) (by simp (disch := omega) only [fieldOf, field_low, field_high]; rfl) (by decide) rfl
    (masked_field _ _ 0 8 (by simp (disch := omega) only [fieldOf, field_low, field_high]; rfl) (masked_none _)) (fun _ => rfl) (by simp (disch := omega) only [fieldOf, field_low, field_high, Nat.sub_self, BitVec.extractLsb'_eq_self])
theorem frsq (a0 a1 a2) : Statement (.frsq a0 a1 a2) :=
  byRow (p := a0) (k := 0x6#4) (l := 0x1#4) rfl (by simp (disch := omega) only [fieldOf, field_low, field_high]; rfl) (by simp (disch := omega) only [fieldOf, field_low, field_high]; rfl) (by decide) rfl
    (masked_field _ _ 0 8 (by simp (disch := omega) only [fieldOf, field_low, field_high]; rfl) (masked_none _)) (fun _ => rfl) (by simp (disch := omega) only [fieldOf, field_low, field_high, Nat.sub_self, BitVec.extractLsb'_eq_self])
theorem fsqrt (a0 a1 a2) : Statement (.fsqrt a0 a1 a2) :=
  byRow (p := a0) (k := 0x6#4) (l := 0x2#4) rfl (by simp (disch := omega) only [fieldOf, field_low, field_high]; rfl) (by simp (disch := omega) only [fieldOf, field_low, field_high]; rfl) (by decide) rfl
    (masked_field _ _ 0 8 (by simp (disch := omega) only [fieldOf, field_low, field_high]; rfl) (masked_none _)) (fun _ => rfl) (by simp (disch := omega) only [fieldOf, field_low, field_high, Nat.sub_self, BitVec.extractLsb'_eq_self])
theorem fexp2 (a0 a1 a2) : Statement (.fexp2 a0 a1 a2) :=
  byRow (p := a0) (k := 0x6#4) (l := 0x3#4) rfl (by simp (disch := omega) only [fieldOf, field_low, field_high]; rfl) (by simp (disch := omega) only [fieldOf, field_low, field_high]; rfl) (by decide) rfl
    (masked_field _ _ 0 8 (by simp (disch := omega) only [fieldOf, field_low, field_high]; rfl) (masked_none _)) (fun _ => rfl) (by simp (disch := omega) only [fieldOf, field_low, field_high, Nat.sub_self, BitVec.extractLsb'_eq_self])
theorem flog2 (a0 a1 a2) : Statement (.flog2 a0 a1 a2) :=
  byRow (p := a0) (k := 0x6#4) (l := 0x4#4) rfl (by simp (disch := omega) only [fieldOf, field_low, field_high]; rfl) (by simp (disch := omega) only [fieldOf, field_low, field_high]; rfl) (by decide) rfl
    (masked_field _ _ 0 8 (by simp (disch := omega) only [fieldOf, field_low, field_high]; rfl) (masked_none _)) (fun _ => rfl) (by simp (disch := omega) only [fieldOf, field_low, field_high, Nat.sub_self, BitVec.extractLsb'_eq_self])
theorem fsin (a0 a1 a2) : Statement (.fsin a0 a1 a2) :=
  byRow (p := a0) (k := 0x6#4) (l := 0x5#4) rfl (by simp (disch := omega) only [fieldOf, field_low, field_high]; rfl) (by simp (disch := omega) only [fieldOf, field_low, field_high]; rfl) (by decide) rfl
    (masked_field _ _ 0 8 (by simp (disch := omega) only [fieldOf, field_low, field_high]; rfl) (masked_none _)) (fun _ => rfl) (by simp (disch := omega) only [fieldOf, field_low, field_high, Nat.sub_self, BitVec.extractLsb'_eq_self])
theorem fcos (a0 a1 a2) : Statement (.fcos a0 a1 a2) :=
  byRow (p := a0) (k := 0x6#4) (l := 0x6#4) rfl (by simp (disch := omega) only [fieldOf, field_low, field_high]; rfl) (by simp (disch := omega) only [fieldOf, field_low, field_high]; rfl) (by decide) rfl
    (masked_field _ _ 0 8 (by simp (disch := omega) only [fieldOf, field_low, field_high]; rfl) (masked_none _)) (fun _ => rfl) (by simp (disch := omega) only [fieldOf, field_low, field_high, Nat.sub_self, BitVec.extractLsb'_eq_self])
theorem ftanh (a0 a1 a2) : Statement (.ftanh a0 a1 a2) :=
  byRow (p := a0) (k := 0x6#4) (l := 0x7#4) rfl (by simp (disch := omega) only [fieldOf, field_low, field_high]; rfl) (by simp (disch := omega) only [fieldOf, field_low, field_high]; rfl) (by decide) rfl
    (masked_field _ _ 0 8 (by simp (disch := omega) only [fieldOf, field_low, field_high]; rfl) (masked_none _)) (fun _ => rfl) (by simp (disch := omega) only [fieldOf, field_low, field_high, Nat.sub_self, BitVec.extractLsb'_eq_self])
theorem frnd (a0 a1 a2) : Statement (.frnd a0 a1 a2) :=
  byRow (p := a0) (k := 0x6#4) (l := 0x8#4) rfl (by simp (disch := omega) only [fieldOf, field_low, field_high]; rfl) (by simp (disch := omega) only [fieldOf, field_low, field_high]; rfl) (by decide) rfl
    (masked_field _ _ 0 8 (by simp (disch := omega) only [fieldOf, field_low, field_high]; rfl) (masked_none _)) (fun _ => rfl) (by simp (disch := omega) only [fieldOf, field_low, field_high, Nat.sub_self, BitVec.extractLsb'_eq_self])
theorem fdot2 (a0 a1 a2 a3) : Statement (.fdot2 a0 a1 a2 a3) :=
  byRow (p := a0) (k := 0x6#4) (l := 0x9#4) rfl (by simp (disch := omega) only [fieldOf, field_low, field_high]; rfl) (by simp (disch := omega) only [fieldOf, field_low, field_high]; rfl) (by decide) rfl
    (masked_none _) (fun _ => rfl) (by simp (disch := omega) only [fieldOf, field_low, field_high, Nat.sub_self, BitVec.extractLsb'_eq_self])
theorem cvtf (a0 a1 a2 a3 a4) : Statement (.cvtf a0 a1 a2 a3 a4) :=
  byRow (p := a0) (k := 0x6#4) (l := 0xA#4) rfl (by simp (disch := omega) only [fieldOf, field_low, field_high]; rfl) (by simp (disch := omega) only [fieldOf, field_low, field_high]; rfl) (by decide) rfl
    (masked_field _ _ 5 3 (by simp (disch := omega) only [fieldOf, field_low, field_high]; rfl) (masked_none _)) (fun _ => rfl) (by simp (disch := omega) only [fieldOf, field_low, field_high, Nat.sub_self, BitVec.extractLsb'_eq_self])
theorem cvtfi (a0 a1 a2 a3 a4) : Statement (.cvtfi a0 a1 a2 a3 a4) :=
  byRow (p := a0) (k := 0x6#4) (l := 0xB#4) rfl (by simp (disch := omega) only [fieldOf, field_low, field_high]; rfl) (by simp (disch := omega) only [fieldOf, field_low, field_high]; rfl) (by decide) rfl
    (masked_field _ _ 5 3 (by simp (disch := omega) only [fieldOf, field_low, field_high]; rfl) (masked_none _)) (fun _ => rfl) (by simp (disch := omega) only [fieldOf, field_low, field_high, Nat.sub_self, BitVec.extractLsb'_eq_self])
theorem cvtif (a0 a1 a2 a3 a4) : Statement (.cvtif a0 a1 a2 a3 a4) :=
  byRow (p := a0) (k := 0x6#4) (l := 0xC#4) rfl (by simp (disch := omega) only [fieldOf, field_low, field_high]; rfl) (by simp (disch := omega) only [fieldOf, field_low, field_high]; rfl) (by decide) rfl
    (masked_field _ _ 5 3 (by simp (disch := omega) only [fieldOf, field_low, field_high]; rfl) (masked_none _)) (fun _ => rfl) (by simp (disch := omega) only [fieldOf, field_low, field_high, Nat.sub_self, BitVec.extractLsb'_eq_self])
theorem cvtn (a0 a1 a2 a3 a4 a5) : Statement (.cvtn a0 a1 a2 a3 a4 a5) :=
  byRow (p := a0) (k := 0x6#4) (l := 0xD#4) rfl (by simp (disch := omega) only [fieldOf, field_low, field_high]; rfl) (by simp (disch := omega) only [fieldOf, field_low, field_high]; rfl) (by decide) rfl
    (masked_none _) (fun _ => rfl) (by simp (disch := omega) only [fieldOf, field_low, field_high, Nat.sub_self, BitVec.extractLsb'_eq_self])
theorem cvtw (a0 a1 a2 a3 a4 a5) : Statement (.cvtw a0 a1 a2 a3 a4 a5) :=
  byRow (p := a0) (k := 0x6#4) (l := 0xE#4) rfl (by simp (disch := omega) only [fieldOf, field_low, field_high]; rfl) (by simp (disch := omega) only [fieldOf, field_low, field_high]; rfl) (by decide) rfl
    (masked_none _) (fun _ => rfl) (by simp (disch := omega) only [fieldOf, field_low, field_high, Nat.sub_self, BitVec.extractLsb'_eq_self])
theorem shfl (a0 a1 a2 a3) : Statement (.shfl a0 a1 a2 a3) :=
  byRow (p := a0) (k := 0x7#4) (l := 0x0#4) rfl (by simp (disch := omega) only [fieldOf, field_low, field_high]; rfl) (by simp (disch := omega) only [fieldOf, field_low, field_high]; rfl) (by decide) rfl
    (masked_none _) (fun _ => rfl) (by simp (disch := omega) only [fieldOf, field_low, field_high, Nat.sub_self, BitVec.extractLsb'_eq_self])
theorem shflup (a0 a1 a2 a3) : Statement (.shflup a0 a1 a2 a3) :=
  byRow (p := a0) (k := 0x7#4) (l := 0x1#4) rfl (by simp (disch := omega) only [fieldOf, field_low, field_high]; rfl) (by simp (disch := omega) only [fieldOf, field_low, field_high]; rfl) (by decide) rfl
    (masked_none _) (fun _ => rfl) (by simp (disch := omega) only [fieldOf, field_low, field_high, Nat.sub_self, BitVec.extractLsb'_eq_self])
theorem shfldn (a0 a1 a2 a3) : Statement (.shfldn a0 a1 a2 a3) :=
  byRow (p := a0) (k := 0x7#4) (l := 0x2#4) rfl (by simp (disch := omega) only [fieldOf, field_low, field_high]; rfl) (by simp (disch := omega) only [fieldOf, field_low, field_high]; rfl) (by decide) rfl
    (masked_none _) (fun _ => rfl) (by simp (disch := omega) only [fieldOf, field_low, field_high, Nat.sub_self, BitVec.extractLsb'_eq_self])
theorem shflx (a0 a1 a2 a3) : Statement (.shflx a0 a1 a2 a3) :=
  byRow (p := a0) (k := 0x7#4) (l := 0x3#4) rfl (by simp (disch := omega) only [fieldOf, field_low, field_high]; rfl) (by simp (disch := omega) only [fieldOf, field_low, field_high]; rfl) (by decide) rfl
    (masked_none _) (fun _ => rfl) (by simp (disch := omega) only [fieldOf, field_low, field_high, Nat.sub_self, BitVec.extractLsb'_eq_self])
theorem vall (a0 a1 a2) : Statement (.vall a0 a1 a2) :=
  byRow (p := a0) (k := 0x7#4) (l := 0x4#4) rfl (by simp (disch := omega) only [fieldOf, field_low, field_high]; rfl) (by simp (disch := omega) only [fieldOf, field_low, field_high]; rfl) (by decide) rfl
    (masked_field _ _ 0 8 (by simp (disch := omega) only [fieldOf, field_low, field_high]; rfl) (masked_none _)) (fun _ => rfl) (by simp (disch := omega) only [fieldOf, field_low, field_high, Nat.sub_self, BitVec.extractLsb'_eq_self])
theorem vany (a0 a1 a2) : Statement (.vany a0 a1 a2) :=
  byRow (p := a0) (k := 0x7#4) (l := 0x5#4) rfl (by simp (disch := omega) only [fieldOf, field_low, field_high]; rfl) (by simp (disch := omega) only [fieldOf, field_low, field_high]; rfl) (by decide) rfl
    (masked_field _ _ 0 8 (by simp (disch := omega) only [fieldOf, field_low, field_high]; rfl) (masked_none _)) (fun _ => rfl) (by simp (disch := omega) only [fieldOf, field_low, field_high, Nat.sub_self, BitVec.extractLsb'_eq_self])
theorem ballot (a0 a1 a2) : Statement (.ballot a0 a1 a2) :=
  byRow (p := a0) (k := 0x7#4) (l := 0x6#4) rfl (by simp (disch := omega) only [fieldOf, field_low, field_high]; rfl) (by simp (disch := omega) only [fieldOf, field_low, field_high]; rfl) (by decide) rfl
    (masked_field _ _ 0 8 (by simp (disch := omega) only [fieldOf, field_low, field_high]; rfl) (masked_none _)) (fun _ => rfl) (by simp (disch := omega) only [fieldOf, field_low, field_high, Nat.sub_self, BitVec.extractLsb'_eq_self])
theorem redadd (a0 a1 a2) : Statement (.redadd a0 a1 a2) :=
  byRow (p := a0) (k := 0x7#4) (l := 0x7#4) rfl (by simp (disch := omega) only [fieldOf, field_low, field_high]; rfl) (by simp (disch := omega) only [fieldOf, field_low, field_high]; rfl) (by decide) rfl
    (masked_field _ _ 0 8 (by simp (disch := omega) only [fieldOf, field_low, field_high]; rfl) (masked_none _)) (fun _ => rfl) (by simp (disch := omega) only [fieldOf, field_low, field_high, Nat.sub_self, BitVec.extractLsb'_eq_self])
theorem redmin (a0 a1 a2) : Statement (.redmin a0 a1 a2) :=
  byRow (p := a0) (k := 0x7#4) (l := 0x8#4) rfl (by simp (disch := omega) only [fieldOf, field_low, field_high]; rfl) (by simp (disch := omega) only [fieldOf, field_low, field_high]; rfl) (by decide) rfl
    (masked_field _ _ 0 8 (by simp (disch := omega) only [fieldOf, field_low, field_high]; rfl) (masked_none _)) (fun _ => rfl) (by simp (disch := omega) only [fieldOf, field_low, field_high, Nat.sub_self, BitVec.extractLsb'_eq_self])
theorem redmax (a0 a1 a2) : Statement (.redmax a0 a1 a2) :=
  byRow (p := a0) (k := 0x7#4) (l := 0x9#4) rfl (by simp (disch := omega) only [fieldOf, field_low, field_high]; rfl) (by simp (disch := omega) only [fieldOf, field_low, field_high]; rfl) (by decide) rfl
    (masked_field _ _ 0 8 (by simp (disch := omega) only [fieldOf, field_low, field_high]; rfl) (masked_none _)) (fun _ => rfl) (by simp (disch := omega) only [fieldOf, field_low, field_high, Nat.sub_self, BitVec.extractLsb'_eq_self])
theorem redand (a0 a1 a2) : Statement (.redand a0 a1 a2) :=
  byRow (p := a0) (k := 0x7#4) (l := 0xA#4) rfl (by simp (disch := omega) only [fieldOf, field_low, field_high]; rfl) (by simp (disch := omega) only [fieldOf, field_low, field_high]; rfl) (by decide) rfl
    (masked_field _ _ 0 8 (by simp (disch := omega) only [fieldOf, field_low, field_high]; rfl) (masked_none _)) (fun _ => rfl) (by simp (disch := omega) only [fieldOf, field_low, field_high, Nat.sub_self, BitVec.extractLsb'_eq_self])
theorem redor (a0 a1 a2) : Statement (.redor a0 a1 a2) :=
  byRow (p := a0) (k := 0x7#4) (l := 0xB#4) rfl (by simp (disch := omega) only [fieldOf, field_low, field_high]; rfl) (by simp (disch := omega) only [fieldOf, field_low, field_high]; rfl) (by decide) rfl
    (masked_field _ _ 0 8 (by simp (disch := omega) only [fieldOf, field_low, field_high]; rfl) (masked_none _)) (fun _ => rfl) (by simp (disch := omega) only [fieldOf, field_low, field_high, Nat.sub_self, BitVec.extractLsb'_eq_self])
theorem scan (a0 a1 a2 a3 a4) : Statement (.scan a0 a1 a2 a3 a4) :=
  byRow (p := a0) (k := 0x7#4) (l := 0xC#4) rfl (by simp (disch := omega) only [fieldOf, field_low, field_high]; rfl) (by simp (disch := omega) only [fieldOf, field_low, field_high]; rfl) (by decide) rfl
    (masked_field _ _ 3 5 (by simp (disch := omega) only [fieldOf, field_low, field_high]; rfl) (masked_none _)) (fun _ => rfl) (by simp (disch := omega) only [fieldOf, field_low, field_high, Nat.sub_self, BitVec.extractLsb'_eq_self])
theorem elect (a0 a1) : Statement (.elect a0 a1) :=
  byRow (p := a0) (k := 0x7#4) (l := 0xD#4) rfl (by simp (disch := omega) only [fieldOf, field_low, field_high]; rfl) (by simp (disch := omega) only [fieldOf, field_low, field_high]; rfl) (by decide) rfl
    (masked_field _ _ 0 16 (by simp (disch := omega) only [fieldOf, field_low, field_high]; rfl) (masked_none _)) (fun _ => rfl) (by simp (disch := omega) only [fieldOf, field_low, field_high, Nat.sub_self, BitVec.extractLsb'_eq_self])
theorem matchv (a0 a1 a2) : Statement (.matchv a0 a1 a2) :=
  byRow (p := a0) (k := 0x7#4) (l := 0xE#4) rfl (by simp (disch := omega) only [fieldOf, field_low, field_high]; rfl) (by simp (disch := omega) only [fieldOf, field_low, field_high]; rfl) (by decide) rfl
    (masked_field _ _ 0 8 (by simp (disch := omega) only [fieldOf, field_low, field_high]; rfl) (masked_none _)) (fun _ => rfl) (by simp (disch := omega) only [fieldOf, field_low, field_high, Nat.sub_self, BitVec.extractLsb'_eq_self])
theorem xchg (a0 a1 a2 a3) : Statement (.xchg a0 a1 a2 a3) :=
  byRow (p := none) (k := 0x7#4) (l := 0xF#4) rfl (by simp (disch := omega) only [fieldOf, field_low, field_high]; rfl) (by simp (disch := omega) only [fieldOf, field_low, field_high]; rfl) (by decide) rfl
    (masked_none _) (fun h => nomatch h) (by simp (disch := omega) only [fieldOf, field_low, field_high, Nat.sub_self, BitVec.extractLsb'_eq_self])
theorem ldb (a0 a1 a2 a3) : Statement (.ldb a0 a1 a2 a3) :=
  byRow (p := a0) (k := 0x8#4) (l := 0x0#4) rfl (by simp (disch := omega) only [fieldOf, field_low, field_high]; rfl) (by simp (disch := omega) only [fieldOf, field_low, field_high]; rfl) (by decide) rfl
    (masked_none _) (fun _ => rfl) (by simp (disch := omega) only [fieldOf, field_low, field_high, Nat.sub_self, BitVec.extractLsb'_eq_self])
theorem ldbs (a0 a1 a2 a3) : Statement (.ldbs a0 a1 a2 a3) :=
  byRow (p := a0) (k := 0x8#4) (l := 0x1#4) rfl (by simp (disch := omega) only [fieldOf, field_low, field_high]; rfl) (by simp (disch := omega) only [fieldOf, field_low, field_high]; rfl) (by decide) rfl
    (masked_none _) (fun _ => rfl) (by simp (disch := omega) only [fieldOf, field_low, field_high, Nat.sub_self, BitVec.extractLsb'_eq_self])
theorem ldh (a0 a1 a2 a3) : Statement (.ldh a0 a1 a2 a3) :=
  byRow (p := a0) (k := 0x8#4) (l := 0x2#4) rfl (by simp (disch := omega) only [fieldOf, field_low, field_high]; rfl) (by simp (disch := omega) only [fieldOf, field_low, field_high]; rfl) (by decide) rfl
    (masked_none _) (fun _ => rfl) (by simp (disch := omega) only [fieldOf, field_low, field_high, Nat.sub_self, BitVec.extractLsb'_eq_self])
theorem ldhs (a0 a1 a2 a3) : Statement (.ldhs a0 a1 a2 a3) :=
  byRow (p := a0) (k := 0x8#4) (l := 0x3#4) rfl (by simp (disch := omega) only [fieldOf, field_low, field_high]; rfl) (by simp (disch := omega) only [fieldOf, field_low, field_high]; rfl) (by decide) rfl
    (masked_none _) (fun _ => rfl) (by simp (disch := omega) only [fieldOf, field_low, field_high, Nat.sub_self, BitVec.extractLsb'_eq_self])
theorem ldw (a0 a1 a2 a3) : Statement (.ldw a0 a1 a2 a3) :=
  byRow (p := a0) (k := 0x8#4) (l := 0x4#4) rfl (by simp (disch := omega) only [fieldOf, field_low, field_high]; rfl) (by simp (disch := omega) only [fieldOf, field_low, field_high]; rfl) (by decide) rfl
    (masked_none _) (fun _ => rfl) (by simp (disch := omega) only [fieldOf, field_low, field_high, Nat.sub_self, BitVec.extractLsb'_eq_self])
theorem ldd (a0 a1 a2 a3) : Statement (.ldd a0 a1 a2 a3) :=
  byRow (p := a0) (k := 0x8#4) (l := 0x5#4) rfl (by simp (disch := omega) only [fieldOf, field_low, field_high]; rfl) (by simp (disch := omega) only [fieldOf, field_low, field_high]; rfl) (by decide) rfl
    (masked_none _) (fun _ => rfl) (by simp (disch := omega) only [fieldOf, field_low, field_high, Nat.sub_self, BitVec.extractLsb'_eq_self])
theorem ldq (a0 a1 a2 a3) : Statement (.ldq a0 a1 a2 a3) :=
  byRow (p := a0) (k := 0x8#4) (l := 0x6#4) rfl (by simp (disch := omega) only [fieldOf, field_low, field_high]; rfl) (by simp (disch := omega) only [fieldOf, field_low, field_high]; rfl) (by decide) rfl
    (masked_none _) (fun _ => rfl) (by simp (disch := omega) only [fieldOf, field_low, field_high, Nat.sub_self, BitVec.extractLsb'_eq_self])
theorem stb (a0 a1 a2 a3) : Statement (.stb a0 a1 a2 a3) :=
  byRow (p := a0) (k := 0x8#4) (l := 0x7#4) rfl (by simp (disch := omega) only [fieldOf, field_low, field_high]; rfl) (by simp (disch := omega) only [fieldOf, field_low, field_high]; rfl) (by decide) rfl
    (masked_none _) (fun _ => rfl) (by simp (disch := omega) only [fieldOf, field_low, field_high, Nat.sub_self, BitVec.extractLsb'_eq_self])
theorem sth (a0 a1 a2 a3) : Statement (.sth a0 a1 a2 a3) :=
  byRow (p := a0) (k := 0x8#4) (l := 0x8#4) rfl (by simp (disch := omega) only [fieldOf, field_low, field_high]; rfl) (by simp (disch := omega) only [fieldOf, field_low, field_high]; rfl) (by decide) rfl
    (masked_none _) (fun _ => rfl) (by simp (disch := omega) only [fieldOf, field_low, field_high, Nat.sub_self, BitVec.extractLsb'_eq_self])
theorem stw (a0 a1 a2 a3) : Statement (.stw a0 a1 a2 a3) :=
  byRow (p := a0) (k := 0x8#4) (l := 0x9#4) rfl (by simp (disch := omega) only [fieldOf, field_low, field_high]; rfl) (by simp (disch := omega) only [fieldOf, field_low, field_high]; rfl) (by decide) rfl
    (masked_none _) (fun _ => rfl) (by simp (disch := omega) only [fieldOf, field_low, field_high, Nat.sub_self, BitVec.extractLsb'_eq_self])
theorem std (a0 a1 a2 a3) : Statement (.std a0 a1 a2 a3) :=
  byRow (p := a0) (k := 0x8#4) (l := 0xA#4) rfl (by simp (disch := omega) only [fieldOf, field_low, field_high]; rfl) (by simp (disch := omega) only [fieldOf, field_low, field_high]; rfl) (by decide) rfl
    (masked_none _) (fun _ => rfl) (by simp (disch := omega) only [fieldOf, field_low, field_high, Nat.sub_self, BitVec.extractLsb'_eq_self])
theorem stq (a0 a1 a2 a3) : Statement (.stq a0 a1 a2 a3) :=
  byRow (p := a0) (k := 0x8#4) (l := 0xB#4) rfl (by simp (disch := omega) only [fieldOf, field_low, field_high]; rfl) (by simp (disch := omega) only [fieldOf, field_low, field_high]; rfl) (by decide) rfl
    (masked_none _) (fun _ => rfl) (by simp (disch := omega) only [fieldOf, field_low, field_high, Nat.sub_self, BitVec.extractLsb'_eq_self])
theorem ldwr (a0 a1 a2 a3) : Statement (.ldwr a0 a1 a2 a3) :=
  byRow (p := a0) (k := 0x8#4) (l := 0xC#4) rfl (by simp (disch := omega) only [fieldOf, field_low, field_high]; rfl) (by simp (disch := omega) only [fieldOf, field_low, field_high]; rfl) (by decide) rfl
    (masked_none _) (fun _ => rfl) (by simp (disch := omega) only [fieldOf, field_low, field_high, Nat.sub_self, BitVec.extractLsb'_eq_self])
theorem ldqr (a0 a1 a2 a3) : Statement (.ldqr a0 a1 a2 a3) :=
  byRow (p := a0) (k := 0x8#4) (l := 0xD#4) rfl (by simp (disch := omega) only [fieldOf, field_low, field_high]; rfl) (by simp (disch := omega) only [fieldOf, field_low, field_high]; rfl) (by decide) rfl
    (masked_none _) (fun _ => rfl) (by simp (disch := omega) only [fieldOf, field_low, field_high, Nat.sub_self, BitVec.extractLsb'_eq_self])
theorem stnt (a0 a1 a2 a3) : Statement (.stnt a0 a1 a2 a3) :=
  byRow (p := a0) (k := 0x8#4) (l := 0xE#4) rfl (by simp (disch := omega) only [fieldOf, field_low, field_high]; rfl) (by simp (disch := omega) only [fieldOf, field_low, field_high]; rfl) (by decide) rfl
    (masked_none _) (fun _ => rfl) (by simp (disch := omega) only [fieldOf, field_low, field_high, Nat.sub_self, BitVec.extractLsb'_eq_self])
theorem prefL1 (a0 a1 a2) : Statement (.prefL1 a0 a1 a2) :=
  byRow (p := a0) (k := 0x8#4) (l := 0xF#4) (r := ⟨0xFF0000#32, true, fun p w => .prefL1 p (fieldOf w 8 8) (fieldOf w 0 8)⟩) rfl (by simp (disch := omega) only [fieldOf, field_low, field_high]; rfl) (by simp (disch := omega) only [fieldOf, field_low, field_high]; rfl) (by decide) (by unfold rowAt; show opRow8 _ 15 = _; unfold opRow8; rw [show fieldOf _ 16 8 = 0#8 by simp (disch := omega) only [fieldOf, field_low, field_high]; rfl]; rfl)
    (masked_field _ _ 16 8 (by simp (disch := omega) only [fieldOf, field_low, field_high]; rfl) (masked_none _)) (fun _ => rfl) (by simp (disch := omega) only [fieldOf, field_low, field_high, Nat.sub_self, BitVec.extractLsb'_eq_self])
theorem prefHome (a0 a1 a2) : Statement (.prefHome a0 a1 a2) :=
  byRow (p := a0) (k := 0x8#4) (l := 0xF#4) (r := ⟨0xFE0000#32, true, fun p w => .prefHome p (fieldOf w 8 8) (fieldOf w 0 8)⟩) rfl (by simp (disch := omega) only [fieldOf, field_low, field_high]; rfl) (by simp (disch := omega) only [fieldOf, field_low, field_high]; rfl) (by decide) (by unfold rowAt; show opRow8 _ 15 = _; unfold opRow8; rw [show fieldOf _ 16 8 = 1#8 by simp (disch := omega) only [fieldOf, field_low, field_high]; rfl]; rfl)
    (masked_field _ _ 17 7 (by simp (disch := omega) only [fieldOf, field_low, field_high]; rfl) (masked_none _)) (fun _ => rfl) (by simp (disch := omega) only [fieldOf, field_low, field_high, Nat.sub_self, BitVec.extractLsb'_eq_self])
theorem ldacq (a0 a1 a2 a3 a4) : Statement (.ldacq a0 a1 a2 a3 a4) :=
  byRow (p := a0) (k := 0x9#4) (l := 0x0#4) rfl (by simp (disch := omega) only [fieldOf, field_low, field_high]; rfl) (by simp (disch := omega) only [fieldOf, field_low, field_high]; rfl) (by decide) rfl
    (masked_field _ _ 0 2 (by simp (disch := omega) only [fieldOf, field_low, field_high]; rfl) (masked_none _)) (fun _ => rfl) (by simp (disch := omega) only [fieldOf, field_low, field_high, Nat.sub_self, BitVec.extractLsb'_eq_self])
theorem strel (a0 a1 a2 a3 a4) : Statement (.strel a0 a1 a2 a3 a4) :=
  byRow (p := a0) (k := 0x9#4) (l := 0x1#4) rfl (by simp (disch := omega) only [fieldOf, field_low, field_high]; rfl) (by simp (disch := omega) only [fieldOf, field_low, field_high]; rfl) (by decide) rfl
    (masked_field _ _ 0 2 (by simp (disch := omega) only [fieldOf, field_low, field_high]; rfl) (masked_none _)) (fun _ => rfl) (by simp (disch := omega) only [fieldOf, field_low, field_high, Nat.sub_self, BitVec.extractLsb'_eq_self])
theorem fence (a0 a1) : Statement (.fence a0 a1) :=
  byRow (p := none) (k := 0x9#4) (l := 0x2#4) rfl (by simp (disch := omega) only [fieldOf, field_low, field_high]; rfl) (by simp (disch := omega) only [fieldOf, field_low, field_high]; rfl) (by decide) rfl
    (masked_field _ _ 8 16 (by simp (disch := omega) only [fieldOf, field_low, field_high]; rfl) (masked_field _ _ 0 2 (by simp (disch := omega) only [fieldOf, field_low, field_high]; rfl) (masked_none _))) (fun h => nomatch h) (by simp (disch := omega) only [fieldOf, field_low, field_high, Nat.sub_self, BitVec.extractLsb'_eq_self])
theorem lds (a0 a1 a2 a3) : Statement (.lds a0 a1 a2 a3) :=
  byRow (p := a0) (k := 0x9#4) (l := 0x3#4) rfl (by simp (disch := omega) only [fieldOf, field_low, field_high]; rfl) (by simp (disch := omega) only [fieldOf, field_low, field_high]; rfl) (by decide) rfl
    (masked_none _) (fun _ => rfl) (by simp (disch := omega) only [fieldOf, field_low, field_high, Nat.sub_self, BitVec.extractLsb'_eq_self])
theorem sts (a0 a1 a2 a3) : Statement (.sts a0 a1 a2 a3) :=
  byRow (p := a0) (k := 0x9#4) (l := 0x4#4) rfl (by simp (disch := omega) only [fieldOf, field_low, field_high]; rfl) (by simp (disch := omega) only [fieldOf, field_low, field_high]; rfl) (by decide) rfl
    (masked_none _) (fun _ => rfl) (by simp (disch := omega) only [fieldOf, field_low, field_high, Nat.sub_self, BitVec.extractLsb'_eq_self])
theorem ldsq (a0 a1 a2 a3) : Statement (.ldsq a0 a1 a2 a3) :=
  byRow (p := a0) (k := 0x9#4) (l := 0x5#4) rfl (by simp (disch := omega) only [fieldOf, field_low, field_high]; rfl) (by simp (disch := omega) only [fieldOf, field_low, field_high]; rfl) (by decide) rfl
    (masked_none _) (fun _ => rfl) (by simp (disch := omega) only [fieldOf, field_low, field_high, Nat.sub_self, BitVec.extractLsb'_eq_self])
theorem stsq (a0 a1 a2 a3) : Statement (.stsq a0 a1 a2 a3) :=
  byRow (p := a0) (k := 0x9#4) (l := 0x6#4) rfl (by simp (disch := omega) only [fieldOf, field_low, field_high]; rfl) (by simp (disch := omega) only [fieldOf, field_low, field_high]; rfl) (by decide) rfl
    (masked_none _) (fun _ => rfl) (by simp (disch := omega) only [fieldOf, field_low, field_high, Nat.sub_self, BitVec.extractLsb'_eq_self])
theorem ldm (a0 a1 a2) : Statement (.ldm a0 a1 a2) :=
  byRow (p := none) (k := 0x9#4) (l := 0x7#4) rfl (by simp (disch := omega) only [fieldOf, field_low, field_high]; rfl) (by simp (disch := omega) only [fieldOf, field_low, field_high]; rfl) (by decide) rfl
    (masked_field _ _ 0 3 (by simp (disch := omega) only [fieldOf, field_low, field_high]; rfl) (masked_none _)) (fun h => nomatch h) (by simp (disch := omega) only [fieldOf, field_low, field_high, Nat.sub_self, BitVec.extractLsb'_eq_self])
theorem stm (a0 a1 a2) : Statement (.stm a0 a1 a2) :=
  byRow (p := none) (k := 0x9#4) (l := 0x8#4) rfl (by simp (disch := omega) only [fieldOf, field_low, field_high]; rfl) (by simp (disch := omega) only [fieldOf, field_low, field_high]; rfl) (by decide) rfl
    (masked_field _ _ 0 3 (by simp (disch := omega) only [fieldOf, field_low, field_high]; rfl) (masked_none _)) (fun h => nomatch h) (by simp (disch := omega) only [fieldOf, field_low, field_high, Nat.sub_self, BitVec.extractLsb'_eq_self])
theorem lock (a0 a1 a2) : Statement (.lock a0 a1 a2) :=
  byRow (p := none) (k := 0x9#4) (l := 0x9#4) rfl (by simp (disch := omega) only [fieldOf, field_low, field_high]; rfl) (by simp (disch := omega) only [fieldOf, field_low, field_high]; rfl) (by decide) rfl
    (masked_field _ _ 16 5 (by simp (disch := omega) only [fieldOf, field_low, field_high]; rfl) (masked_field _ _ 0 5 (by simp (disch := omega) only [fieldOf, field_low, field_high]; rfl) (masked_none _))) (fun h => nomatch h) (by simp (disch := omega) only [fieldOf, field_low, field_high, Nat.sub_self, BitVec.extractLsb'_eq_self])
theorem unlock (a0 a1 a2) : Statement (.unlock a0 a1 a2) :=
  byRow (p := none) (k := 0x9#4) (l := 0xA#4) rfl (by simp (disch := omega) only [fieldOf, field_low, field_high]; rfl) (by simp (disch := omega) only [fieldOf, field_low, field_high]; rfl) (by decide) rfl
    (masked_field _ _ 16 5 (by simp (disch := omega) only [fieldOf, field_low, field_high]; rfl) (masked_field _ _ 0 5 (by simp (disch := omega) only [fieldOf, field_low, field_high]; rfl) (masked_none _))) (fun h => nomatch h) (by simp (disch := omega) only [fieldOf, field_low, field_high, Nat.sub_self, BitVec.extractLsb'_eq_self])
theorem aadd (a0 a1 a2 a3 a4) : Statement (.aadd a0 a1 a2 a3 a4) :=
  byRow (p := a0) (k := 0xA#4) (l := 0x0#4) rfl (by simp (disch := omega) only [fieldOf, field_low, field_high]; rfl) (by simp (disch := omega) only [fieldOf, field_low, field_high]; rfl) (by decide) rfl
    (masked_field _ _ 0 2 (by simp (disch := omega) only [fieldOf, field_low, field_high]; rfl) (masked_none _)) (fun _ => rfl) (by simp (disch := omega) only [fieldOf, field_low, field_high, Nat.sub_self, BitVec.extractLsb'_eq_self])
theorem amin (a0 a1 a2 a3 a4) : Statement (.amin a0 a1 a2 a3 a4) :=
  byRow (p := a0) (k := 0xA#4) (l := 0x1#4) rfl (by simp (disch := omega) only [fieldOf, field_low, field_high]; rfl) (by simp (disch := omega) only [fieldOf, field_low, field_high]; rfl) (by decide) rfl
    (masked_field _ _ 0 2 (by simp (disch := omega) only [fieldOf, field_low, field_high]; rfl) (masked_none _)) (fun _ => rfl) (by simp (disch := omega) only [fieldOf, field_low, field_high, Nat.sub_self, BitVec.extractLsb'_eq_self])
theorem amax (a0 a1 a2 a3 a4) : Statement (.amax a0 a1 a2 a3 a4) :=
  byRow (p := a0) (k := 0xA#4) (l := 0x2#4) rfl (by simp (disch := omega) only [fieldOf, field_low, field_high]; rfl) (by simp (disch := omega) only [fieldOf, field_low, field_high]; rfl) (by decide) rfl
    (masked_field _ _ 0 2 (by simp (disch := omega) only [fieldOf, field_low, field_high]; rfl) (masked_none _)) (fun _ => rfl) (by simp (disch := omega) only [fieldOf, field_low, field_high, Nat.sub_self, BitVec.extractLsb'_eq_self])
theorem aand (a0 a1 a2 a3 a4) : Statement (.aand a0 a1 a2 a3 a4) :=
  byRow (p := a0) (k := 0xA#4) (l := 0x3#4) rfl (by simp (disch := omega) only [fieldOf, field_low, field_high]; rfl) (by simp (disch := omega) only [fieldOf, field_low, field_high]; rfl) (by decide) rfl
    (masked_field _ _ 0 2 (by simp (disch := omega) only [fieldOf, field_low, field_high]; rfl) (masked_none _)) (fun _ => rfl) (by simp (disch := omega) only [fieldOf, field_low, field_high, Nat.sub_self, BitVec.extractLsb'_eq_self])
theorem aor (a0 a1 a2 a3 a4) : Statement (.aor a0 a1 a2 a3 a4) :=
  byRow (p := a0) (k := 0xA#4) (l := 0x4#4) rfl (by simp (disch := omega) only [fieldOf, field_low, field_high]; rfl) (by simp (disch := omega) only [fieldOf, field_low, field_high]; rfl) (by decide) rfl
    (masked_field _ _ 0 2 (by simp (disch := omega) only [fieldOf, field_low, field_high]; rfl) (masked_none _)) (fun _ => rfl) (by simp (disch := omega) only [fieldOf, field_low, field_high, Nat.sub_self, BitVec.extractLsb'_eq_self])
theorem axor (a0 a1 a2 a3 a4) : Statement (.axor a0 a1 a2 a3 a4) :=
  byRow (p := a0) (k := 0xA#4) (l := 0x5#4) rfl (by simp (disch := omega) only [fieldOf, field_low, field_high]; rfl) (by simp (disch := omega) only [fieldOf, field_low, field_high]; rfl) (by decide) rfl
    (masked_field _ _ 0 2 (by simp (disch := omega) only [fieldOf, field_low, field_high]; rfl) (masked_none _)) (fun _ => rfl) (by simp (disch := omega) only [fieldOf, field_low, field_high, Nat.sub_self, BitVec.extractLsb'_eq_self])
theorem axchg (a0 a1 a2 a3 a4) : Statement (.axchg a0 a1 a2 a3 a4) :=
  byRow (p := a0) (k := 0xA#4) (l := 0x6#4) rfl (by simp (disch := omega) only [fieldOf, field_low, field_high]; rfl) (by simp (disch := omega) only [fieldOf, field_low, field_high]; rfl) (by decide) rfl
    (masked_field _ _ 0 2 (by simp (disch := omega) only [fieldOf, field_low, field_high]; rfl) (masked_none _)) (fun _ => rfl) (by simp (disch := omega) only [fieldOf, field_low, field_high, Nat.sub_self, BitVec.extractLsb'_eq_self])
theorem acas (a0 a1 a2 a3 a4) : Statement (.acas a0 a1 a2 a3 a4) :=
  byRow (p := a0) (k := 0xA#4) (l := 0x7#4) rfl (by simp (disch := omega) only [fieldOf, field_low, field_high]; rfl) (by simp (disch := omega) only [fieldOf, field_low, field_high]; rfl) (by decide) rfl
    (masked_field _ _ 0 2 (by simp (disch := omega) only [fieldOf, field_low, field_high]; rfl) (masked_none _)) (fun _ => rfl) (by simp (disch := omega) only [fieldOf, field_low, field_high, Nat.sub_self, BitVec.extractLsb'_eq_self])
theorem ainc (a0 a1 a2 a3 a4) : Statement (.ainc a0 a1 a2 a3 a4) :=
  byRow (p := a0) (k := 0xA#4) (l := 0x8#4) rfl (by simp (disch := omega) only [fieldOf, field_low, field_high]; rfl) (by simp (disch := omega) only [fieldOf, field_low, field_high]; rfl) (by decide) rfl
    (masked_field _ _ 0 2 (by simp (disch := omega) only [fieldOf, field_low, field_high]; rfl) (masked_none _)) (fun _ => rfl) (by simp (disch := omega) only [fieldOf, field_low, field_high, Nat.sub_self, BitVec.extractLsb'_eq_self])
theorem afadd (a0 a1 a2 a3 a4) : Statement (.afadd a0 a1 a2 a3 a4) :=
  byRow (p := a0) (k := 0xA#4) (l := 0x9#4) rfl (by simp (disch := omega) only [fieldOf, field_low, field_high]; rfl) (by simp (disch := omega) only [fieldOf, field_low, field_high]; rfl) (by decide) rfl
    (masked_field _ _ 0 2 (by simp (disch := omega) only [fieldOf, field_low, field_high]; rfl) (masked_none _)) (fun _ => rfl) (by simp (disch := omega) only [fieldOf, field_low, field_high, Nat.sub_self, BitVec.extractLsb'_eq_self])
theorem afadd2 (a0 a1 a2 a3 a4) : Statement (.afadd2 a0 a1 a2 a3 a4) :=
  byRow (p := a0) (k := 0xA#4) (l := 0xA#4) rfl (by simp (disch := omega) only [fieldOf, field_low, field_high]; rfl) (by simp (disch := omega) only [fieldOf, field_low, field_high]; rfl) (by decide) rfl
    (masked_field _ _ 0 2 (by simp (disch := omega) only [fieldOf, field_low, field_high]; rfl) (masked_none _)) (fun _ => rfl) (by simp (disch := omega) only [fieldOf, field_low, field_high, Nat.sub_self, BitVec.extractLsb'_eq_self])
theorem aadd64 (a0 a1 a2 a3 a4) : Statement (.aadd64 a0 a1 a2 a3 a4) :=
  byRow (p := a0) (k := 0xA#4) (l := 0xB#4) rfl (by simp (disch := omega) only [fieldOf, field_low, field_high]; rfl) (by simp (disch := omega) only [fieldOf, field_low, field_high]; rfl) (by decide) rfl
    (masked_field _ _ 0 2 (by simp (disch := omega) only [fieldOf, field_low, field_high]; rfl) (masked_none _)) (fun _ => rfl) (by simp (disch := omega) only [fieldOf, field_low, field_high, Nat.sub_self, BitVec.extractLsb'_eq_self])
theorem acas64 (a0 a1 a2 a3 a4) : Statement (.acas64 a0 a1 a2 a3 a4) :=
  byRow (p := a0) (k := 0xA#4) (l := 0xC#4) rfl (by simp (disch := omega) only [fieldOf, field_low, field_high]; rfl) (by simp (disch := omega) only [fieldOf, field_low, field_high]; rfl) (by decide) rfl
    (masked_field _ _ 0 2 (by simp (disch := omega) only [fieldOf, field_low, field_high]; rfl) (masked_none _)) (fun _ => rfl) (by simp (disch := omega) only [fieldOf, field_low, field_high, Nat.sub_self, BitVec.extractLsb'_eq_self])
theorem sadd (a0 a1 a2 a3 a4) : Statement (.sadd a0 a1 a2 a3 a4) :=
  byRow (p := a0) (k := 0xA#4) (l := 0xD#4) rfl (by simp (disch := omega) only [fieldOf, field_low, field_high]; rfl) (by simp (disch := omega) only [fieldOf, field_low, field_high]; rfl) (by decide) rfl
    (masked_field _ _ 0 2 (by simp (disch := omega) only [fieldOf, field_low, field_high]; rfl) (masked_none _)) (fun _ => rfl) (by simp (disch := omega) only [fieldOf, field_low, field_high, Nat.sub_self, BitVec.extractLsb'_eq_self])
theorem scas (a0 a1 a2 a3 a4) : Statement (.scas a0 a1 a2 a3 a4) :=
  byRow (p := a0) (k := 0xA#4) (l := 0xE#4) rfl (by simp (disch := omega) only [fieldOf, field_low, field_high]; rfl) (by simp (disch := omega) only [fieldOf, field_low, field_high]; rfl) (by decide) rfl
    (masked_field _ _ 0 2 (by simp (disch := omega) only [fieldOf, field_low, field_high]; rfl) (masked_none _)) (fun _ => rfl) (by simp (disch := omega) only [fieldOf, field_low, field_high, Nat.sub_self, BitVec.extractLsb'_eq_self])
theorem sxchg (a0 a1 a2 a3 a4) : Statement (.sxchg a0 a1 a2 a3 a4) :=
  byRow (p := a0) (k := 0xA#4) (l := 0xF#4) rfl (by simp (disch := omega) only [fieldOf, field_low, field_high]; rfl) (by simp (disch := omega) only [fieldOf, field_low, field_high]; rfl) (by decide) rfl
    (masked_field _ _ 0 2 (by simp (disch := omega) only [fieldOf, field_low, field_high]; rfl) (masked_none _)) (fun _ => rfl) (by simp (disch := omega) only [fieldOf, field_low, field_high, Nat.sub_self, BitVec.extractLsb'_eq_self])
theorem bar (a0 a1 a2) : Statement (.bar a0 a1 a2) :=
  byRow (p := none) (k := 0xB#4) (l := 0x0#4) rfl (by simp (disch := omega) only [fieldOf, field_low, field_high]; rfl) (by simp (disch := omega) only [fieldOf, field_low, field_high]; rfl) (by decide) rfl
    (masked_field _ _ 0 5 (by simp (disch := omega) only [fieldOf, field_low, field_high]; rfl) (masked_none _)) (fun h => nomatch h) (by simp (disch := omega) only [fieldOf, field_low, field_high, Nat.sub_self, BitVec.extractLsb'_eq_self])
theorem bararv (a0 a1) : Statement (.bararv a0 a1) :=
  byRow (p := none) (k := 0xB#4) (l := 0x1#4) rfl (by simp (disch := omega) only [fieldOf, field_low, field_high]; rfl) (by simp (disch := omega) only [fieldOf, field_low, field_high]; rfl) (by decide) rfl
    (masked_field _ _ 16 8 (by simp (disch := omega) only [fieldOf, field_low, field_high]; rfl) (masked_field _ _ 0 5 (by simp (disch := omega) only [fieldOf, field_low, field_high]; rfl) (masked_none _))) (fun h => nomatch h) (by simp (disch := omega) only [fieldOf, field_low, field_high, Nat.sub_self, BitVec.extractLsb'_eq_self])
theorem barwt (a0 a1 a2) : Statement (.barwt a0 a1 a2) :=
  byRow (p := none) (k := 0xB#4) (l := 0x2#4) rfl (by simp (disch := omega) only [fieldOf, field_low, field_high]; rfl) (by simp (disch := omega) only [fieldOf, field_low, field_high]; rfl) (by decide) rfl
    (masked_field _ _ 0 5 (by simp (disch := omega) only [fieldOf, field_low, field_high]; rfl) (masked_none _)) (fun h => nomatch h) (by simp (disch := omega) only [fieldOf, field_low, field_high, Nat.sub_self, BitVec.extractLsb'_eq_self])
theorem barexp (a0 a1 a2) : Statement (.barexp a0 a1 a2) :=
  byRow (p := none) (k := 0xB#4) (l := 0x3#4) rfl (by simp (disch := omega) only [fieldOf, field_low, field_high]; rfl) (by simp (disch := omega) only [fieldOf, field_low, field_high]; rfl) (by decide) rfl
    (masked_field _ _ 0 5 (by simp (disch := omega) only [fieldOf, field_low, field_high]; rfl) (masked_none _)) (fun h => nomatch h) (by simp (disch := omega) only [fieldOf, field_low, field_high, Nat.sub_self, BitVec.extractLsb'_eq_self])
theorem waitc (a0 a1 a2 a3) : Statement (.waitc a0 a1 a2 a3) :=
  byRow (p := none) (k := 0xB#4) (l := 0x4#4) rfl (by simp (disch := omega) only [fieldOf, field_low, field_high]; rfl) (by simp (disch := omega) only [fieldOf, field_low, field_high]; rfl) (by decide) rfl
    (masked_none _) (fun h => nomatch h) (by simp (disch := omega) only [fieldOf, field_low, field_high, Nat.sub_self, BitVec.extractLsb'_eq_self])
theorem waitr (a0) : Statement (.waitr a0) :=
  byRow (p := none) (k := 0xB#4) (l := 0x5#4) rfl (by simp (disch := omega) only [fieldOf, field_low, field_high]; rfl) (by simp (disch := omega) only [fieldOf, field_low, field_high]; rfl) (by decide) rfl
    (masked_field _ _ 16 8 (by simp (disch := omega) only [fieldOf, field_low, field_high]; rfl) (masked_field _ _ 0 8 (by simp (disch := omega) only [fieldOf, field_low, field_high]; rfl) (masked_none _))) (fun h => nomatch h) (by simp (disch := omega) only [fieldOf, field_low, field_high, Nat.sub_self, BitVec.extractLsb'_eq_self])
theorem hwait (a0 a1 a2) : Statement (.hwait a0 a1 a2) :=
  byRow (p := none) (k := 0xB#4) (l := 0x6#4) rfl (by simp (disch := omega) only [fieldOf, field_low, field_high]; rfl) (by simp (disch := omega) only [fieldOf, field_low, field_high]; rfl) (by decide) rfl
    (masked_field _ _ 16 8 (by simp (disch := omega) only [fieldOf, field_low, field_high]; rfl) (masked_field _ _ 0 6 (by simp (disch := omega) only [fieldOf, field_low, field_high]; rfl) (masked_none _))) (fun h => nomatch h) (by simp (disch := omega) only [fieldOf, field_low, field_high, Nat.sub_self, BitVec.extractLsb'_eq_self])
theorem hsetFree (a0 a1 a2) : Statement (.hsetFree a0 a1 a2) :=
  byRow (p := none) (k := 0xB#4) (l := 0x7#4) (r := ⟨0x0000C0#32, false, fun _ w => .hsetFree (fieldOf w 16 8) (fieldOf w 8 8) (fieldOf w 0 6)⟩) rfl (by simp (disch := omega) only [fieldOf, field_low, field_high]; rfl) (by simp (disch := omega) only [fieldOf, field_low, field_high]; rfl) (by decide) (by unfold rowAt; show opRowB _ 7 = _; unfold opRowB; rw [show fieldOf _ 6 2 = 0#2 by simp (disch := omega) only [fieldOf, field_low, field_high]; rfl]; rfl)
    (masked_field _ _ 6 2 (by simp (disch := omega) only [fieldOf, field_low, field_high]; rfl) (masked_none _)) (fun h => nomatch h) (by simp (disch := omega) only [fieldOf, field_low, field_high, Nat.sub_self, BitVec.extractLsb'_eq_self])
theorem hsetFull (a0 a1 a2) : Statement (.hsetFull a0 a1 a2) :=
  byRow (p := none) (k := 0xB#4) (l := 0x7#4) (r := ⟨0x000080#32, false, fun _ w => .hsetFull (fieldOf w 16 8) (fieldOf w 8 8) (fieldOf w 0 6)⟩) rfl (by simp (disch := omega) only [fieldOf, field_low, field_high]; rfl) (by simp (disch := omega) only [fieldOf, field_low, field_high]; rfl) (by decide) (by unfold rowAt; show opRowB _ 7 = _; unfold opRowB; rw [show fieldOf _ 6 2 = 1#2 by simp (disch := omega) only [fieldOf, field_low, field_high]; rfl]; rfl)
    (masked_field _ _ 7 1 (by simp (disch := omega) only [fieldOf, field_low, field_high]; rfl) (masked_none _)) (fun h => nomatch h) (by simp (disch := omega) only [fieldOf, field_low, field_high, Nat.sub_self, BitVec.extractLsb'_eq_self])
theorem hsetRel (a0) : Statement (.hsetRel a0) :=
  byRow (p := none) (k := 0xB#4) (l := 0x7#4) (r := ⟨0x00FF7F#32, false, fun _ w => .hsetRel (fieldOf w 16 8)⟩) rfl (by simp (disch := omega) only [fieldOf, field_low, field_high]; rfl) (by simp (disch := omega) only [fieldOf, field_low, field_high]; rfl) (by decide) (by unfold rowAt; show opRowB _ 7 = _; unfold opRowB; rw [show fieldOf _ 6 2 = 2#2 by simp (disch := omega) only [fieldOf, field_low, field_high]; rfl]; rfl)
    (masked_field _ _ 8 8 (by simp (disch := omega) only [fieldOf, field_low, field_high]; rfl) (masked_field _ _ 0 7 (by simp (disch := omega) only [fieldOf, field_low, field_high]; rfl) (masked_none _))) (fun h => nomatch h) (by simp (disch := omega) only [fieldOf, field_low, field_high, Nat.sub_self, BitVec.extractLsb'_eq_self])
theorem hsetFill (a0) : Statement (.hsetFill a0) :=
  byRow (p := none) (k := 0xB#4) (l := 0x7#4) (r := ⟨0x00FF3F#32, false, fun _ w => .hsetFill (fieldOf w 16 8)⟩) rfl (by simp (disch := omega) only [fieldOf, field_low, field_high]; rfl) (by simp (disch := omega) only [fieldOf, field_low, field_high]; rfl) (by decide) (by unfold rowAt; show opRowB _ 7 = _; unfold opRowB; rw [show fieldOf _ 6 2 = 3#2 by simp (disch := omega) only [fieldOf, field_low, field_high]; rfl]; rfl)
    (masked_field _ _ 8 8 (by simp (disch := omega) only [fieldOf, field_low, field_high]; rfl) (masked_field _ _ 0 6 (by simp (disch := omega) only [fieldOf, field_low, field_high]; rfl) (masked_none _))) (fun h => nomatch h) (by simp (disch := omega) only [fieldOf, field_low, field_high, Nat.sub_self, BitVec.extractLsb'_eq_self])
theorem ringadvNew (a0 a1 a2) : Statement (.ringadvNew a0 a1 a2) :=
  byRow (p := none) (k := 0xB#4) (l := 0x8#4) (r := ⟨0x000000#32, false, fun _ w => .ringadvNew (fieldOf w 16 8) (fieldOf w 8 8) (fieldOf w 0 7)⟩) rfl (by simp (disch := omega) only [fieldOf, field_low, field_high]; rfl) (by simp (disch := omega) only [fieldOf, field_low, field_high]; rfl) (by decide) (by unfold rowAt; show opRowB _ 8 = _; unfold opRowB; rw [bit_field, show fieldOf _ 7 1 = 1#1 by simp (disch := omega) only [fieldOf, field_low, field_high]; rfl]; rfl)
    (masked_none _) (fun h => nomatch h) (by simp (disch := omega) only [fieldOf, field_low, field_high, Nat.sub_self, BitVec.extractLsb'_eq_self])
theorem ringadv (a0 a1) : Statement (.ringadv a0 a1) :=
  byRow (p := none) (k := 0xB#4) (l := 0x8#4) (r := ⟨0x0000FF#32, false, fun _ w => .ringadv (fieldOf w 16 8) (fieldOf w 8 8)⟩) rfl (by simp (disch := omega) only [fieldOf, field_low, field_high]; rfl) (by simp (disch := omega) only [fieldOf, field_low, field_high]; rfl) (by decide) (by unfold rowAt; show opRowB _ 8 = _; unfold opRowB; rw [bit_field, show fieldOf _ 7 1 = 0#1 by simp (disch := omega) only [fieldOf, field_low, field_high]; rfl]; rfl)
    (masked_field _ _ 0 8 (by simp (disch := omega) only [fieldOf, field_low, field_high]; rfl) (masked_none _)) (fun h => nomatch h) (by simp (disch := omega) only [fieldOf, field_low, field_high, Nat.sub_self, BitVec.extractLsb'_eq_self])
theorem copy (a0 a1 a2) : Statement (.copy a0 a1 a2) :=
  byRow (p := none) (k := 0xC#4) (l := 0x0#4) rfl (by simp (disch := omega) only [fieldOf, field_low, field_high]; rfl) (by simp (disch := omega) only [fieldOf, field_low, field_high]; rfl) (by decide) rfl
    (masked_none _) (fun h => nomatch h) (by simp (disch := omega) only [fieldOf, field_low, field_high, Nat.sub_self, BitVec.extractLsb'_eq_self])
theorem copym (a0 a1 a2) : Statement (.copym a0 a1 a2) :=
  byRow (p := none) (k := 0xC#4) (l := 0x1#4) rfl (by simp (disch := omega) only [fieldOf, field_low, field_high]; rfl) (by simp (disch := omega) only [fieldOf, field_low, field_high]; rfl) (by decide) rfl
    (masked_none _) (fun h => nomatch h) (by simp (disch := omega) only [fieldOf, field_low, field_high, Nat.sub_self, BitVec.extractLsb'_eq_self])
theorem copys (a0 a1 a2) : Statement (.copys a0 a1 a2) :=
  byRow (p := none) (k := 0xC#4) (l := 0x2#4) rfl (by simp (disch := omega) only [fieldOf, field_low, field_high]; rfl) (by simp (disch := omega) only [fieldOf, field_low, field_high]; rfl) (by decide) rfl
    (masked_none _) (fun h => nomatch h) (by simp (disch := omega) only [fieldOf, field_low, field_high, Nat.sub_self, BitVec.extractLsb'_eq_self])
theorem launch (a0 a1) : Statement (.launch a0 a1) :=
  byRow (p := none) (k := 0xC#4) (l := 0x3#4) rfl (by simp (disch := omega) only [fieldOf, field_low, field_high]; rfl) (by simp (disch := omega) only [fieldOf, field_low, field_high]; rfl) (by decide) rfl
    (masked_field _ _ 0 8 (by simp (disch := omega) only [fieldOf, field_low, field_high]; rfl) (masked_none _)) (fun h => nomatch h) (by simp (disch := omega) only [fieldOf, field_low, field_high, Nat.sub_self, BitVec.extractLsb'_eq_self])
theorem job (a0 a1) : Statement (.job a0 a1) :=
  byRow (p := none) (k := 0xC#4) (l := 0x4#4) rfl (by simp (disch := omega) only [fieldOf, field_low, field_high]; rfl) (by simp (disch := omega) only [fieldOf, field_low, field_high]; rfl) (by decide) rfl
    (masked_field _ _ 0 8 (by simp (disch := omega) only [fieldOf, field_low, field_high]; rfl) (masked_none _)) (fun h => nomatch h) (by simp (disch := omega) only [fieldOf, field_low, field_high, Nat.sub_self, BitVec.extractLsb'_eq_self])
theorem jobwt (a0) : Statement (.jobwt a0) :=
  byRow (p := none) (k := 0xC#4) (l := 0x5#4) rfl (by simp (disch := omega) only [fieldOf, field_low, field_high]; rfl) (by simp (disch := omega) only [fieldOf, field_low, field_high]; rfl) (by decide) rfl
    (masked_field _ _ 16 8 (by simp (disch := omega) only [fieldOf, field_low, field_high]; rfl) (masked_field _ _ 0 8 (by simp (disch := omega) only [fieldOf, field_low, field_high]; rfl) (masked_none _))) (fun h => nomatch h) (by simp (disch := omega) only [fieldOf, field_low, field_high, Nat.sub_self, BitVec.extractLsb'_eq_self])
theorem tbld (a0 a1 a2 a3 a4) : Statement (.tbld a0 a1 a2 a3 a4) :=
  byRow (p := none) (k := 0xD#4) (l := 0x0#4) rfl (by simp (disch := omega) only [fieldOf, field_low, field_high]; rfl) (by simp (disch := omega) only [fieldOf, field_low, field_high]; rfl) (by decide) rfl
    (masked_field _ _ 8 8 (by simp (disch := omega) only [fieldOf, field_low, field_high]; rfl) (masked_field _ _ 0 1 (by simp (disch := omega) only [fieldOf, field_low, field_high]; rfl) (masked_none _))) (fun h => nomatch h) (by simp (disch := omega) only [fieldOf, field_low, field_high, Nat.sub_self, BitVec.extractLsb'_eq_self])
theorem tmma (a0 a1 a2 a3 a4) : Statement (.tmma a0 a1 a2 a3 a4) :=
  byRow (p := none) (k := 0xD#4) (l := 0x1#4) rfl (by simp (disch := omega) only [fieldOf, field_low, field_high]; rfl) (by simp (disch := omega) only [fieldOf, field_low, field_high]; rfl) (by decide) rfl
    (masked_field _ _ 0 3 (by simp (disch := omega) only [fieldOf, field_low, field_high]; rfl) (masked_none _)) (fun h => nomatch h) (by simp (disch := omega) only [fieldOf, field_low, field_high, Nat.sub_self, BitVec.extractLsb'_eq_self])
theorem tmmab (a0 a1 a2 a3 a4) : Statement (.tmmab a0 a1 a2 a3 a4) :=
  byRow (p := none) (k := 0xD#4) (l := 0x2#4) rfl (by simp (disch := omega) only [fieldOf, field_low, field_high]; rfl) (by simp (disch := omega) only [fieldOf, field_low, field_high]; rfl) (by decide) rfl
    (masked_field _ _ 0 3 (by simp (disch := omega) only [fieldOf, field_low, field_high]; rfl) (masked_none _)) (fun h => nomatch h) (by simp (disch := omega) only [fieldOf, field_low, field_high, Nat.sub_self, BitVec.extractLsb'_eq_self])
theorem tmmap (a0 a1 a2 a3 a4) : Statement (.tmmap a0 a1 a2 a3 a4) :=
  byRow (p := none) (k := 0xD#4) (l := 0x3#4) rfl (by simp (disch := omega) only [fieldOf, field_low, field_high]; rfl) (by simp (disch := omega) only [fieldOf, field_low, field_high]; rfl) (by decide) rfl
    (masked_field _ _ 0 3 (by simp (disch := omega) only [fieldOf, field_low, field_high]; rfl) (masked_none _)) (fun h => nomatch h) (by simp (disch := omega) only [fieldOf, field_low, field_high, Nat.sub_self, BitVec.extractLsb'_eq_self])
theorem taccz (a0 a1 a2) : Statement (.taccz a0 a1 a2) :=
  byRow (p := none) (k := 0xD#4) (l := 0x4#4) rfl (by simp (disch := omega) only [fieldOf, field_low, field_high]; rfl) (by simp (disch := omega) only [fieldOf, field_low, field_high]; rfl) (by decide) rfl
    (masked_field _ _ 8 8 (by simp (disch := omega) only [fieldOf, field_low, field_high]; rfl) (masked_field _ _ 0 3 (by simp (disch := omega) only [fieldOf, field_low, field_high]; rfl) (masked_none _))) (fun h => nomatch h) (by simp (disch := omega) only [fieldOf, field_low, field_high, Nat.sub_self, BitVec.extractLsb'_eq_self])
theorem taccld (a0 a1 a2 a3) : Statement (.taccld a0 a1 a2 a3) :=
  byRow (p := none) (k := 0xD#4) (l := 0x5#4) rfl (by simp (disch := omega) only [fieldOf, field_low, field_high]; rfl) (by simp (disch := omega) only [fieldOf, field_low, field_high]; rfl) (by decide) rfl
    (masked_field _ _ 0 3 (by simp (disch := omega) only [fieldOf, field_low, field_high]; rfl) (masked_none _)) (fun h => nomatch h) (by simp (disch := omega) only [fieldOf, field_low, field_high, Nat.sub_self, BitVec.extractLsb'_eq_self])
theorem taccst (a0 a1 a2 a3) : Statement (.taccst a0 a1 a2 a3) :=
  byRow (p := none) (k := 0xD#4) (l := 0x6#4) rfl (by simp (disch := omega) only [fieldOf, field_low, field_high]; rfl) (by simp (disch := omega) only [fieldOf, field_low, field_high]; rfl) (by decide) rfl
    (masked_field _ _ 0 5 (by simp (disch := omega) only [fieldOf, field_low, field_high]; rfl) (masked_none _)) (fun h => nomatch h) (by simp (disch := omega) only [fieldOf, field_low, field_high, Nat.sub_self, BitVec.extractLsb'_eq_self])
theorem trel : Statement (.trel) :=
  byRow (p := none) (k := 0xD#4) (l := 0x7#4) rfl rfl rfl (by decide) rfl
    rfl (fun h => nomatch h) rfl
theorem trelArray : Statement (.trelArray) :=
  byRow (p := none) (k := 0xD#4) (l := 0x7#4) rfl rfl rfl (by decide) rfl
    rfl (fun h => nomatch h) rfl
theorem clock (a0) : Statement (.clock a0) :=
  byRow (p := none) (k := 0xE#4) (l := 0x0#4) rfl (by simp (disch := omega) only [fieldOf, field_low, field_high]; rfl) (by simp (disch := omega) only [fieldOf, field_low, field_high]; rfl) (by decide) rfl
    (masked_field _ _ 0 16 (by simp (disch := omega) only [fieldOf, field_low, field_high]; rfl) (masked_none _)) (fun h => nomatch h) (by simp (disch := omega) only [fieldOf, field_low, field_high, Nat.sub_self, BitVec.extractLsb'_eq_self])
theorem perf (a0 a1) : Statement (.perf a0 a1) :=
  byRow (p := none) (k := 0xE#4) (l := 0x1#4) rfl (by simp (disch := omega) only [fieldOf, field_low, field_high]; rfl) (by simp (disch := omega) only [fieldOf, field_low, field_high]; rfl) (by decide) rfl
    (masked_field _ _ 8 8 (by simp (disch := omega) only [fieldOf, field_low, field_high]; rfl) (masked_none _)) (fun h => nomatch h) (by simp (disch := omega) only [fieldOf, field_low, field_high, Nat.sub_self, BitVec.extractLsb'_eq_self])
theorem eret : Statement (.eret) :=
  byRow (p := none) (k := 0xE#4) (l := 0x2#4) rfl rfl rfl (by decide) rfl
    rfl (fun h => nomatch h) rfl
theorem traprd (a0 a1) : Statement (.traprd a0 a1) :=
  byRow (p := none) (k := 0xE#4) (l := 0x3#4) rfl (by simp (disch := omega) only [fieldOf, field_low, field_high]; rfl) (by simp (disch := omega) only [fieldOf, field_low, field_high]; rfl) (by decide) rfl
    (masked_field _ _ 4 12 (by simp (disch := omega) only [fieldOf, field_low, field_high]; rfl) (masked_none _)) (fun h => nomatch h) (by simp (disch := omega) only [fieldOf, field_low, field_high, Nat.sub_self, BitVec.extractLsb'_eq_self])
theorem segq (a0 a1) : Statement (.segq a0 a1) :=
  byRow (p := none) (k := 0xE#4) (l := 0x4#4) rfl (by simp (disch := omega) only [fieldOf, field_low, field_high]; rfl) (by simp (disch := omega) only [fieldOf, field_low, field_high]; rfl) (by decide) rfl
    (masked_field _ _ 0 8 (by simp (disch := omega) only [fieldOf, field_low, field_high]; rfl) (masked_none _)) (fun h => nomatch h) (by simp (disch := omega) only [fieldOf, field_low, field_high, Nat.sub_self, BitVec.extractLsb'_eq_self])
theorem bkpt (a0) : Statement (.bkpt a0) :=
  byRow (p := none) (k := 0xE#4) (l := 0x5#4) rfl (by simp (disch := omega) only [fieldOf, field_low, field_high]; rfl) (by simp (disch := omega) only [fieldOf, field_low, field_high]; rfl) (by decide) rfl
    (masked_field _ _ 16 8 (by simp (disch := omega) only [fieldOf, field_low, field_high]; rfl) (masked_none _)) (fun h => nomatch h) (by simp (disch := omega) only [fieldOf, field_low, field_high, Nat.sub_self, BitVec.extractLsb'_eq_self])
theorem sleepExpiry (a0 a1 a2) : Statement (.sleepExpiry a0 a1 a2) := silent rfl
theorem warpEnd (a0 a1) : Statement (.warpEnd a0 a1) := silent rfl
theorem loadReply (a0) : Statement (.loadReply a0) := silent rfl
theorem storePerformed (a0) : Statement (.storePerformed a0) := silent rfl
theorem lockHandoverReply (a0 a1 a2) : Statement (.lockHandoverReply a0 a1 a2) := silent rfl
theorem lockRetry (a0 a1 a2) : Statement (.lockRetry a0 a1 a2) := silent rfl
theorem lockWaiterWake (a0) : Statement (.lockWaiterWake a0) := silent rfl
theorem copyAccept (a0) : Statement (.copyAccept a0) := silent rfl
theorem copyLinePerformed (a0 a1) : Statement (.copyLinePerformed a0 a1) := silent rfl
theorem copyComplete (a0) : Statement (.copyComplete a0) := silent rfl
theorem mergeEntryClose (a0) : Statement (.mergeEntryClose a0) := silent rfl
theorem xchgMatch (a0 a1 a2 a3) : Statement (.xchgMatch a0 a1 a2 a3) := silent rfl
theorem tbldLatch (a0 a1) : Statement (.tbldLatch a0 a1) := silent rfl
theorem tileRetire (a0 a1) : Statement (.tileRetire a0 a1) := silent rfl
theorem tmmapFollowerTimeout (a0) : Statement (.tmmapFollowerTimeout a0) := silent rfl
theorem jobComplete (a0) : Statement (.jobComplete a0) := silent rfl
theorem linkStackRefill (a0 a1) : Statement (.linkStackRefill a0 a1) := silent rfl
theorem comparisonPoint (a0) : Statement (.comparisonPoint a0) := silent rfl
theorem redundantWaitTimeout (a0) : Statement (.redundantWaitTimeout a0) := silent rfl
theorem translationWalkComplete (a0 a1 a2) : Statement (.translationWalkComplete a0 a1 a2) := silent rfl
theorem remoteTimeout (a0) : Statement (.remoteTimeout a0) := silent rfl
theorem demandFetch (a0 a1 a2) : Statement (.demandFetch a0 a1 a2) := silent rfl
theorem fetchAhead (a0 a1 a2) : Statement (.fetchAhead a0 a1 a2) := silent rfl
theorem trapEntry (a0 a1) : Statement (.trapEntry a0 a1) := silent rfl
theorem impreciseFaultTake (a0 a1) : Statement (.impreciseFaultTake a0 a1) := silent rfl
theorem faultLogAck : Statement (.faultLogAck) := silent rfl
theorem quantumExpiry (a0) : Statement (.quantumExpiry a0) := silent rfl
theorem teamPlace (a0) : Statement (.teamPlace a0) := silent rfl
theorem dieAdvertise (a0) : Statement (.dieAdvertise a0) := silent rfl
theorem migrationMessage (a0) : Statement (.migrationMessage a0) := silent rfl
theorem migrationConfirmTimeout (a0) : Statement (.migrationConfirmTimeout a0) := silent rfl
theorem taskComplete (a0) : Statement (.taskComplete a0) := silent rfl
theorem kick (a0 a1) : Statement (.kick a0 a1) := silent rfl
theorem queueEnWrite (a0 a1) : Statement (.queueEnWrite a0 a1) := silent rfl
theorem lapReread (a0) : Statement (.lapReread a0) := silent rfl
theorem queueLapTimeout (a0) : Statement (.queueLapTimeout a0) := silent rfl
theorem packetNop (a0) : Statement (.packetNop a0) := silent rfl
theorem packetLaunch (a0) : Statement (.packetLaunch a0) := silent rfl
theorem packetJob (a0) : Statement (.packetJob a0) := silent rfl
theorem packetFence (a0) : Statement (.packetFence a0) := silent rfl
theorem packetSignal (a0) : Statement (.packetSignal a0) := silent rfl
theorem packetWaitev (a0) : Statement (.packetWaitev a0) := silent rfl
theorem waitevReread (a0) : Statement (.waitevReread a0) := silent rfl
theorem msixUnmask (a0 a1) : Statement (.msixUnmask a0 a1) := silent rfl
theorem aduKick (a0) : Statement (.aduKick a0) := silent rfl
theorem aduSlotReread (a0) : Statement (.aduSlotReread a0) := silent rfl
theorem aduRequestConsume (a0) : Statement (.aduRequestConsume a0) := silent rfl
theorem admissionComplete (a0) : Statement (.admissionComplete a0) := silent rfl
theorem worldSet : Statement (.worldSet) := silent rfl
theorem map2 : Statement (.map2) := silent rfl
theorem unmap2 : Statement (.unmap2) := silent rfl
theorem inval : Statement (.inval) := silent rfl
theorem teardown : Statement (.teardown) := silent rfl
theorem ploughPageClean (a0) : Statement (.ploughPageClean a0) := silent rfl
theorem ploughTimeout (a0) : Statement (.ploughTimeout a0) := silent rfl
theorem ploughRestart (a0) : Statement (.ploughRestart a0) := silent rfl
theorem geninc (a0) : Statement (.geninc a0) := silent rfl
theorem vdevRegWrite (a0 a1 a2) : Statement (.vdevRegWrite a0 a1 a2) := silent rfl
theorem vdevDisable (a0) : Statement (.vdevDisable a0) := silent rfl
theorem vfEnableClear : Statement (.vfEnableClear) := silent rfl
theorem dbgenWrite (a0) : Statement (.dbgenWrite a0) := silent rfl
theorem resume (a0) : Statement (.resume a0) := silent rfl
theorem faultLogEnable (a0) : Statement (.faultLogEnable a0) := silent rfl
theorem registerWrite (a0 a1 a2) : Statement (.registerWrite a0 a1 a2) := silent rfl
theorem hostWindowAccess (a0 a1 a2 a3) : Statement (.hostWindowAccess a0 a1 a2 a3) := silent rfl
theorem sessionLockWrite (a0 a1) : Statement (.sessionLockWrite a0 a1) := silent rfl
theorem sessionTimeout : Statement (.sessionTimeout) := silent rfl
theorem readLife (a0) : Statement (.readLife a0) := silent rfl
theorem readState (a0 a1) : Statement (.readState a0 a1) := silent rfl
theorem stageFw (a0 a1) : Statement (.stageFw a0 a1) := silent rfl
theorem activateFw (a0) : Statement (.activateFw a0) := silent rfl
theorem fwUnitMove (a0 a1) : Statement (.fwUnitMove a0 a1) := silent rfl
theorem lifetimeAccumulate (a0) : Statement (.lifetimeAccumulate a0) := silent rfl
theorem lifetimeCommit : Statement (.lifetimeCommit) := silent rfl
theorem orderlyShutdown : Statement (.orderlyShutdown) := silent rfl
theorem getVersion (a0) : Statement (.getVersion a0) := silent rfl
theorem getCapabilities (a0) : Statement (.getCapabilities a0) := silent rfl
theorem negotiateAlgorithms (a0) : Statement (.negotiateAlgorithms a0) := silent rfl
theorem getDigests (a0) : Statement (.getDigests a0) := silent rfl
theorem getCertificate (a0) : Statement (.getCertificate a0) := silent rfl
theorem challenge (a0) : Statement (.challenge a0) := silent rfl
theorem getMeasurements (a0) : Statement (.getMeasurements a0) := silent rfl
theorem keyExchange (a0) : Statement (.keyExchange a0) := silent rfl
theorem finish (a0) : Statement (.finish a0) := silent rfl
theorem endSession (a0) : Statement (.endSession a0) := silent rfl
theorem coldReset : Statement (.coldReset) := silent rfl
theorem functionLevelReset : Statement (.functionLevelReset) := silent rfl
theorem hotReset : Statement (.hotReset) := silent rfl
theorem mctpEndpointLoss (a0) : Statement (.mctpEndpointLoss a0) := silent rfl
theorem securityCoreRestart (a0) : Statement (.securityCoreRestart a0) := silent rfl
theorem dieTrained (a0) : Statement (.dieTrained a0) := silent rfl
theorem linkTrained (a0 a1) : Statement (.linkTrained a0 a1) := silent rfl
theorem trainingDeadline : Statement (.trainingDeadline) := silent rfl
theorem structureError (a0) : Statement (.structureError a0) := silent rfl
theorem packetTagFailure (a0) : Statement (.packetTagFailure a0) := silent rfl
theorem linkRetrain (a0) : Statement (.linkRetrain a0) := silent rfl
theorem replicaPin (a0) : Statement (.replicaPin a0) := silent rfl
theorem sledInject (a0) : Statement (.sledInject a0) := silent rfl
theorem sledSteer (a0) : Statement (.sledSteer a0) := silent rfl
theorem sledAccept (a0) : Statement (.sledAccept a0) := silent rfl
theorem ringRefill (a0) : Statement (.ringRefill a0) := silent rfl
theorem sledAdmit (a0) : Statement (.sledAdmit a0) := silent rfl
theorem replicationWatch (a0 a1) : Statement (.replicationWatch a0 a1) := silent rfl
theorem sledTimeout (a0) : Statement (.sledTimeout a0) := silent rfl
theorem hostMemoryAccess (a0) : Statement (.hostMemoryAccess a0) := silent rfl
theorem scoreboardRelease (a0 a1 a2) : Statement (.scoreboardRelease a0 a1 a2) := silent rfl
theorem entryCacheFill (a0 a1) : Statement (.entryCacheFill a0 a1) := silent rfl
theorem linkRetrainDone (a0 a1) : Statement (.linkRetrainDone a0 a1) := silent rfl
theorem secondStageBuilt : Statement (.secondStageBuilt) := silent rfl
theorem testStart : Statement (.testStart) := silent rfl
theorem powerLoss : Statement (.powerLoss) := silent rfl

end Encoding

end Sys2Proof.Laws
end

