-- ==== Sys2Proof/Tests/Slice0.lean ====
section
/-! SUPPORT. Tests of the model against the spec's worked encodings and examples, and witnesses for the hypotheses of the
statements.  Each expected value comes from the table or example named in its docstring. -/

namespace Sys2Proof.Tests

set_option Elab.async false

open Sys2Proof Sys2Proof.Machine Sys2Proof.Safety

/-- What two words decode to, and why they do not. -/
def reads (w : Word) (next : Option Word) : Option Instr := (decodePair w next).toOption
def refuses (w : Word) (next : Option Word) : Option Reject :=
  match decodePair w next with
  | .ok _ => none
  | .error r => some r

/-! ## Ill-formed instructions are refused -/

def bare : Pfx := { z := false, rv := false, rm := 0, g := 0, gv := false, gn := false, x5 := 0, c := 0 }

/-- A prefix field that Table ENC.4 requires to be 0 (rule 102): C before ADD. -/
theorem test_pfx_zero_refused : (Instr.add (some { bare with c := 7 }) 1 2 3).pfxZeroOk = false ∧
    refuses 0xF0000007#32 (some 0x10010203#32) = some .zeroField := by decide

/-- SEL without a prefix (rule 103). -/
theorem test_sel_refused : (Instr.sel none 1 2 3).selOk = false ∧ refuses 0x1D010203#32 none = some .pfxUse := by decide

/-- A reserved rounding code in a prefix (rule 104). -/
theorem test_rounding_refused : (Instr.fadd (some { bare with rv := true, rm := 7 }) 1 2 3).pfxRmOk = false ∧
    refuses 0xF7800000#32 (some 0x50010203#32) = some .reserved := by decide

/-- BR under hint 11 (rule 104). -/
theorem test_reserved_refused : (Instr.br none 3 0).reservedOk = false ∧ refuses 0x02C00000#32 none = some .reserved := by decide

/-- An odd pair and a run that is no multiple of 4 (rule 106). -/
theorem test_pairs_refused : (Instr.wmul none 5 1 2).pairsOk = false ∧ (Instr.ldq none 6 2 0).pairsOk = false ∧
    refuses 0x86060200#32 none = some .pairRun := by decide

/-- The all-zero word, opcode 0xFF after a prefix, and two prefixes name no instruction (R113, R119). -/
theorem test_decode_refused : refuses 0x00000000#32 none = some .opcode ∧ refuses 0xF0000000#32 (some 0xF0000000#32) = some .pfxUse ∧
    decodeTableWord 32 0xF0000000 = none := by decide

/-! ## Worked encodings -/

/-- Table ENC.14. -/
theorem test_decode_encodings : reads 0x84040C02#32 none = some (.ldw none 4 12 2) ∧
    reads 0xF0000100#32 (some 0x84040C00#32) = some (.ldw (some { bare with x5 := 1 }) 4 12 0) ∧
    reads 0xF4800003#32 (some 0x53040102#32) = some (.ffma (some { bare with rv := true, rm := 1, c := 3 }) 4 1 2) ∧
    reads 0x53040102#32 none = some (.ffma none 4 1 2) ∧ reads 0x03050005#32 none = some (.brc none 5 0 5) ∧
    reads 0x03057FFD#32 none = some (.brc none 5 1 0x3FFD) ∧ reads 0x01000000#32 none = some .nop := by decide

/-- Table ISAI.5. -/
theorem test_decode_integer : reads 0x02800028#32 none = some (.br none 2 40) ∧
    reads 0x053FFF38#32 none = some (.call none 0 (BitVec.ofInt 22 (-200))) ∧ reads 0x0D060002#32 none = some (.brx 6 2) ∧
    reads 0x0F030010#32 none = some (.ipref 3 16) ∧ reads 0x0C000101#32 none = some (.trap 0x101) ∧
    reads 0xF0000009#32 (some 0x2B030102#32) = some (.dp4s (some { bare with c := 9 }) 3 1 2) ∧
    reads 0x3C0A0020#32 none = some (.movx none 10 0x20) ∧ reads 0x3D000300#32 none = some (.xmov none 3 0) ∧
    reads 0x440C0A02#32 none = some (.lea4 none 12 10 2) ∧ reads 0x4E020020#32 none = some (.chkr 2 32) ∧
    reads 0x4F07B001#32 none = some (.chka 7 1 12 1) := by decide

/-- Table ISAF.5. -/
theorem test_decode_float : reads 0xF4800000#32 (some 0x50040102#32) = some (.fadd (some { bare with rv := true, rm := 1 }) 4 1 2) ∧
    reads 0x5E060500#32 none = some (.fclass none 6 5) ∧
    reads 0xF8000008#32 (some 0x69090102#32) = some (.fdot2 (some { bare with z := true, c := 8 }) 9 1 2) := by decide

/-- Table ISAM.6. -/
theorem test_decode_memory : reads 0x8B100A02#32 none = some (.stq none 16 10 2) ∧
    reads 0xF0000000#32 (some 0x8D140680#32) = some (.ldqr (some bare) 20 6 0x80) ∧
    reads 0x8F010C00#32 none = some (.prefHome none 12 0) ∧ reads 0x90051464#32 none = some (.ldacq none 5 20 3 1) ∧
    reads 0x91061488#32 none = some (.strel none 6 20 4 2) ∧ reads 0x920000D0#32 none = some (.fence 6 4) ∧
    reads 0x93030703#32 none = some (.lds none 3 7 3) ∧ reads 0x97200A38#32 none = some (.ldm 32 10 7) ∧
    reads 0xF0000009#32 (some 0xA7080A4C#32) = some (.acas (some { bare with c := 9 }) 8 10 2 3) ∧
    reads 0xAD040720#32 none = some (.sadd none 4 7 1 0) ∧ reads 0x99400A60#32 none = some (.lock 2 10 3) := by decide

/-- Table ISAE.8. -/
theorem test_decode_engines : reads 0xB0030220#32 none = some (.bar 3 2 1) ∧ reads 0xB3090220#32 none = some (.barexp 9 2 1) ∧
    reads 0xB4FFF03F#32 none = some (.waitc 63 63 0 63) ∧ reads 0xB60006C0#32 none = some (.hwait 6 1 1) ∧
    reads 0xB704053F#32 none = some (.hsetFree 4 5 63) ∧ reads 0xB7040080#32 none = some (.hsetRel 4) ∧
    reads 0xB8060481#32 none = some (.ringadvNew 6 4 1) ∧ reads 0xC0040A0C#32 none = some (.copy 4 10 12) ∧
    reads 0xC4030A00#32 none = some (.job 3 10) ∧ reads 0xD0060048#32 none = some (.tbld 6 2 1 0 0) ∧
    reads 0xD1142030#32 none = some (.tmma 20 32 1 1 0) ∧ reads 0xD4140030#32 none = some (.taccz 20 3 0) ∧
    reads 0xD7000001#32 none = some .trelArray ∧ reads 0xE0080000#32 none = some (.clock 8) := by decide

/-! ## Every row's word

Each word is a row's `match` in spec/opcode_table.json with a value in each of its fields. -/

def allRead (ws : List (Word × Instr)) : Bool := ws.all fun x => reads x.1 none == some x.2

theorem test_words_0 : allRead [
    (0x01000000#32, .nop), (0x02400123#32, .br none 1 291), (0x03144123#32, .brc none 20 1 291), (0x04144123#32, .brz none 20 1 291),
    (0x05400123#32, .call none 1 291), (0x06001400#32, .calli 20), (0x07000000#32, .ret), (0x08000000#32, .join), (0x09000000#32, .exitw),
    (0x0A000000#32, .yield), (0x0B000123#32, .sleep 291), (0x0C000123#32, .trap 291), (0x0D140123#32, .brx 20 291),
    (0x0E000123#32, .setmode 291), (0x0F140123#32, .ipref 20 291)] = true := by decide +kernel

theorem test_words_1 : allRead [
    (0x1014283C#32, .add none 20 40 60), (0x1114283C#32, .sub none 20 40 60), (0x1214283C#32, .mul none 20 40 60),
    (0x1314283C#32, .mulh none 20 40 60), (0x1414283C#32, .mad none 20 40 60), (0x1514283C#32, .iand none 20 40 60),
    (0x1614283C#32, .ior none 20 40 60), (0x1714283C#32, .ixor none 20 40 60), (0x1814283C#32, .shl none 20 40 60),
    (0x1914283C#32, .shr none 20 40 60), (0x1A14283C#32, .sar none 20 40 60), (0x1B14283C#32, .imin none 20 40 60),
    (0x1C14283C#32, .imax none 20 40 60), (0x1E142800#32, .iabs none 20 40), (0x1F142800#32, .ineg none 20 40)] = true := by decide +kernel

theorem test_words_2 : allRead [
    (0x2014283C#32, .cmpeq none 20 40 60), (0x2114283C#32, .cmpne none 20 40 60), (0x2214283C#32, .cmplt none 20 40 60),
    (0x2314283C#32, .cmple none 20 40 60), (0x24142800#32, .clz none 20 40), (0x25142800#32, .popc none 20 40),
    (0x26142800#32, .brev none 20 40), (0x2714283C#32, .bfx none 20 40 60), (0x2814283C#32, .bfi none 20 40 60),
    (0x2914283C#32, .prmt none 20 40 60), (0x2A14283C#32, .dp4 none 20 40 60), (0x2B14283C#32, .dp4s none 20 40 60),
    (0x2C14283C#32, .dp2 none 20 40 60), (0x2D14283C#32, .dp2s none 20 40 60), (0x2E142800#32, .mov none 20 40),
    (0x2F142800#32, .inot none 20 40)] = true := by decide +kernel

theorem test_words_3 : allRead [
    (0x3014283C#32, .addi none 20 40 60), (0x3114283C#32, .andi none 20 40 60), (0x3214283C#32, .ori none 20 40 60),
    (0x3314283C#32, .xori none 20 40 60), (0x34142801#32, .shli none 20 40 1), (0x35142801#32, .shri none 20 40 1),
    (0x36142801#32, .sari none 20 40 1), (0x3714283C#32, .muli none 20 40 60), (0x3814283C#32, .cmpeqi none 20 40 60),
    (0x3914283C#32, .cmplti none 20 40 60), (0x3A140123#32, .movi none 20 291), (0x3B140123#32, .movhi none 20 291),
    (0x3C140028#32, .movx none 20 40), (0x3D001400#32, .xmov none 20 0), (0x3E142800#32, .movrd none 20 40),
    (0x3F142800#32, .movrw none 20 40)] = true := by decide +kernel

theorem test_words_4 : allRead [
    (0x4014283C#32, .add64 none 20 40 60), (0x4114283C#32, .add64w none 20 40 60), (0x4214283C#32, .sub64 none 20 40 60),
    (0x4314283C#32, .addi64 none 20 40 60), (0x4414283C#32, .lea4 none 20 40 60), (0x4514283C#32, .lea8 none 20 40 60),
    (0x4614283C#32, .lea16 none 20 40 60), (0x47142800#32, .mov64 none 20 40), (0x4814283C#32, .wmul none 20 40 60),
    (0x4914283C#32, .wmad none 20 40 60), (0x4A14283C#32, .shl64 none 20 40 60), (0x4B14283C#32, .shr64 none 20 40 60),
    (0x4C14283C#32, .cmplt64 none 20 40 60), (0x4D141145#32, .chkb 20 1 5 5), (0x4E140123#32, .chkr 20 291), (0x4F148405#32, .chka 20 1 1 5)] = true := by decide +kernel

theorem test_words_5 : allRead [
    (0x5014283C#32, .fadd none 20 40 60), (0x5114283C#32, .fsub none 20 40 60), (0x5214283C#32, .fmul none 20 40 60),
    (0x5314283C#32, .ffma none 20 40 60), (0x5414283C#32, .fmin none 20 40 60), (0x5514283C#32, .fmax none 20 40 60),
    (0x5614283C#32, .fminn none 20 40 60), (0x5714283C#32, .fmaxn none 20 40 60), (0x5814283C#32, .fcmpeq none 20 40 60),
    (0x5914283C#32, .fcmplt none 20 40 60), (0x5A14283C#32, .fcmple none 20 40 60), (0x5B14283C#32, .fcmpun none 20 40 60),
    (0x5C142800#32, .fabs none 20 40), (0x5D142800#32, .fneg none 20 40), (0x5E142800#32, .fclass none 20 40),
    (0x5F14283C#32, .fscale none 20 40 60)] = true := by decide +kernel

theorem test_words_6 : allRead [
    (0x60142800#32, .frcp none 20 40), (0x61142800#32, .frsq none 20 40), (0x62142800#32, .fsqrt none 20 40),
    (0x63142800#32, .fexp2 none 20 40), (0x64142800#32, .flog2 none 20 40), (0x65142800#32, .fsin none 20 40),
    (0x66142800#32, .fcos none 20 40), (0x67142800#32, .ftanh none 20 40), (0x68142800#32, .frnd none 20 40),
    (0x6914283C#32, .fdot2 none 20 40 60), (0x6A142805#32, .cvtf none 20 40 1 1), (0x6B142805#32, .cvtfi none 20 40 1 1),
    (0x6C142805#32, .cvtif none 20 40 1 1), (0x6D142825#32, .cvtn none 20 40 1 1 1), (0x6E142825#32, .cvtw none 20 40 1 1 1)] = true := by decide +kernel

theorem test_words_7 : allRead [
    (0x7014283C#32, .shfl none 20 40 60), (0x7114283C#32, .shflup none 20 40 60), (0x7214283C#32, .shfldn none 20 40 60),
    (0x7314283C#32, .shflx none 20 40 60), (0x74142800#32, .vall none 20 40), (0x75142800#32, .vany none 20 40),
    (0x76142800#32, .ballot none 20 40), (0x77142800#32, .redadd none 20 40), (0x78142800#32, .redmin none 20 40),
    (0x79142800#32, .redmax none 20 40), (0x7A142800#32, .redand none 20 40), (0x7B142800#32, .redor none 20 40),
    (0x7C142805#32, .scan none 20 40 1 1), (0x7D140000#32, .elect none 20), (0x7E142800#32, .matchv none 20 40),
    (0x7F142811#32, .xchg 20 40 1 1)] = true := by decide +kernel

theorem test_words_8 : allRead [
    (0x8014283C#32, .ldb none 20 40 60), (0x8114283C#32, .ldbs none 20 40 60), (0x8214283C#32, .ldh none 20 40 60),
    (0x8314283C#32, .ldhs none 20 40 60), (0x8414283C#32, .ldw none 20 40 60), (0x8514283C#32, .ldd none 20 40 60),
    (0x8614283C#32, .ldq none 20 40 60), (0x8714283C#32, .stb none 20 40 60), (0x8814283C#32, .sth none 20 40 60),
    (0x8914283C#32, .stw none 20 40 60), (0x8A14283C#32, .std none 20 40 60), (0x8B14283C#32, .stq none 20 40 60),
    (0x8C14283C#32, .ldwr none 20 40 60), (0x8D14283C#32, .ldqr none 20 40 60), (0x8E14283C#32, .stnt none 20 40 60),
    (0x8F001428#32, .prefL1 none 20 40), (0x8F011428#32, .prefHome none 20 40)] = true := by decide +kernel

theorem test_words_9 : allRead [
    (0x90142824#32, .ldacq none 20 40 1 1), (0x91142828#32, .strel none 20 40 1 2), (0x92000024#32, .fence 1 1),
    (0x9314283C#32, .lds none 20 40 60), (0x9414283C#32, .sts none 20 40 60), (0x9514283C#32, .ldsq none 20 40 60),
    (0x9614283C#32, .stsq none 20 40 60), (0x97142808#32, .ldm 20 40 1), (0x98142808#32, .stm 20 40 1), (0x99201420#32, .lock 1 20 1),
    (0x9A201420#32, .unlock 1 20 1)] = true := by decide +kernel

theorem test_words_A : allRead [
    (0xA0142824#32, .aadd none 20 40 1 1), (0xA1142824#32, .amin none 20 40 1 1), (0xA2142824#32, .amax none 20 40 1 1),
    (0xA3142824#32, .aand none 20 40 1 1), (0xA4142824#32, .aor none 20 40 1 1), (0xA5142824#32, .axor none 20 40 1 1),
    (0xA6142824#32, .axchg none 20 40 1 1), (0xA7142824#32, .acas none 20 40 1 1), (0xA8142824#32, .ainc none 20 40 1 1),
    (0xA9142824#32, .afadd none 20 40 1 1), (0xAA142824#32, .afadd2 none 20 40 1 1), (0xAB142824#32, .aadd64 none 20 40 1 1),
    (0xAC142824#32, .acas64 none 20 40 1 1), (0xAD142824#32, .sadd none 20 40 1 1), (0xAE142824#32, .scas none 20 40 1 1),
    (0xAF142824#32, .sxchg none 20 40 1 1)] = true := by decide +kernel

theorem test_words_B : allRead [
    (0xB0142820#32, .bar 20 40 1), (0xB1001420#32, .bararv 20 1), (0xB2142820#32, .barwt 20 40 1), (0xB3142820#32, .barexp 20 40 1),
    (0xB4145145#32, .waitc 5 5 5 5), (0xB5001400#32, .waitr 20), (0xB60014C0#32, .hwait 20 1 1), (0xB7142805#32, .hsetFree 20 40 5),
    (0xB7142845#32, .hsetFull 20 40 5), (0xB7140080#32, .hsetRel 20), (0xB71400C0#32, .hsetFill 20), (0xB8142885#32, .ringadvNew 20 40 5),
    (0xB8142800#32, .ringadv 20 40)] = true := by decide +kernel

theorem test_words_C : allRead [
    (0xC014283C#32, .copy 20 40 60), (0xC114283C#32, .copym 20 40 60), (0xC214283C#32, .copys 20 40 60), (0xC3142800#32, .launch 20 40),
    (0xC4142800#32, .job 20 40), (0xC5001400#32, .jobwt 20)] = true := by decide +kernel

theorem test_words_D : allRead [
    (0xD014002E#32, .tbld 20 1 1 1 1), (0xD1142038#32, .tmma 20 32 1 1 1), (0xD2142038#32, .tmmab 20 32 1 1 1),
    (0xD3142038#32, .tmmap 20 32 1 1 1), (0xD4140018#32, .taccz 20 1 1), (0xD5142818#32, .taccld 20 40 1 1),
    (0xD6142860#32, .taccst 20 40 1 1), (0xD7000000#32, .trel), (0xD7000001#32, .trelArray)] = true := by decide +kernel

theorem test_words_E : allRead [
    (0xE0140000#32, .clock 20), (0xE1140004#32, .perf 20 4), (0xE2000000#32, .eret), (0xE3140001#32, .traprd 20 1),
    (0xE4142800#32, .segq 20 40), (0xE5000123#32, .bkpt 291)] = true := by decide +kernel

/-- SEL, whose selector is C of its prefix (Table ENC.4, rule 103). -/
theorem test_words_sel : reads 0xF0000009#32 (some 0x1D14283C#32) = some (.sel (some { bare with c := 9 }) 20 40 60) := by decide

/-! ## A small machine -/

/-- A page of memory mapped at virtual page 1 of world 0, readable and writable, for core 0. -/
def page : TlbEntry := { quad := false, unit := 0, world := 0, page := 1, frame := 0x20000, r := true, w := true, x := false }

/-- One warp on core 0 at its first instruction; `regs`: registers with one word in every lane. -/
def stage (regs : List (Nat × Word)) (l : Launch → Launch := id) (w : Warp → Warp := id) : State :=
  let s := placeWords State.reset 0x01000000#32 0x01000000#32
  { s with
    inputs := [], tlb := [page], tasks := s.tasks.set 0 { bareTask with body := .launch (l bareLaunch) }
    warps := s.warps.map fun v => w { v with regs := regs.foldl (fun rs r => rs.set r.1 (splat r.2)) v.regs } }

/-- What an instruction leaves; the state itself where it stops. -/
def after (i : Instr) (s : State) : State :=
  match exec i s with
  | .next t => t
  | _ => s

/-- A lane's word after an instruction. -/
def out (i : Instr) (s : State) (r l : Nat) : Word := (lane (after i s) r l).val

theorem ok_of {ε α : Type} {r : Except ε α} (h : r.toOption.isSome = true) : ∃ x, r = .ok x := by
  cases r with
  | error e => cases h
  | ok x => exact ⟨x, rfl⟩

/-! ## Single instructions -/

/-- R170: MULH of -1 and 2 under i32 is -1; ADD wraps. -/
theorem test_integer : out (.mulh none 3 1 2) (stage [(1, 0xFFFFFFFF#32), (2, 2#32)]) 3 5 = 0xFFFFFFFF#32 ∧
    out (.add none 3 1 2) (stage [(1, 0xFFFFFFFF#32), (2, 2#32)]) 3 31 = 1#32 := by decide

/-- R172: MOVHI keeps the low half. -/
theorem test_movhi : out (.movhi none 4 0x1234) (stage [(4, 0xAAAA5678#32)]) 4 0 = 0x12345678#32 := by decide

/-- R176: MOVRD reads the register that the index names. -/
theorem test_movrd : out (.movrd none 3 2) (stage [(2, 7#32), (7, 99#32)]) 3 4 = 99#32 := by decide

/-- R195: SHFLUP below lane 0 keeps the lane's own value. -/
theorem test_shflup : out (.shflup none 4 2 3) { stage [(3, 1#32)] with warps := (stage [(3, 1#32)]).warps.map fun w =>
    { w with regs := w.regs.set 2 (rowOf fun l => clean (BitVec.ofNat 32 l)) } } 4 0 = 0#32 ∧
    out (.shflup none 4 2 3) { stage [(3, 1#32)] with warps := (stage [(3, 1#32)]).warps.map fun w =>
    { w with regs := w.regs.set 2 (rowOf fun l => clean (BitVec.ofNat 32 l)) } } 4 9 = 8#32 := by decide

/-- R196: BALLOT and ELECT over the active lanes. -/
theorem test_ballot : out (.ballot none 4 2) (stage [(2, 1#32)] id fun w => { w with frags := [{ exec := 0xF0#32, pc := barePc }] }) 4 5 =
    0xF0#32 ∧ out (.elect none 4) (stage [] id fun w => { w with frags := [{ exec := 0xF0#32, pc := barePc }] }) 4 5 = 4#32 := by decide

/-- R180: 1.0 + 2.0 under FP32 is 3.0, exactly; FP32 is ET 4. -/
theorem test_fadd : out (.fadd none 4 2 3) (stage [(2, 0x3F800000#32), (3, 0x40000000#32)] id fun w => { w with mode := 4#24 <<< 10 }) 4 1 =
    0x40400000#32 ∧
    (me (after (.fadd none 4 2 3) (stage [(2, 0x3F800000#32), (3, 0x40000000#32)] id fun w => { w with mode := 4#24 <<< 10 }))).flags = 0 := by
  decide

/-- R234's example: ringadv.new of handle 4 with two handles gives 0x44, which advances to 0x1044, and then to 0x40044. -/
theorem test_ring : out (.ringadvNew 6 4 1) (stage [(4, 4#32)]) 6 0 = 0x44#32 ∧ out (.ringadv 6 4) (stage [(4, 0x44#32)]) 6 0 = 0x1044#32 ∧
    out (.ringadv 6 4) (stage [(4, 0x1044#32)]) 6 0 = 0x40044#32 := by decide

/-- R127: SETMODE writes MODE; R126: with no active lane no register changes. -/
theorem test_setmode : (me (after (.setmode 0x12345) (stage []))).mode = 0x12345#24 ∧
    out (.add none 3 1 2) (stage [(1, 5#32), (2, 6#32), (3, 9#32)] id fun w => { w with frags := [{ exec := 0, pc := barePc }] }) 3 0 = 9#32 := by
  decide

/-- R116: a branch counts from the instruction's address. -/
theorem test_branch : (fr (after (.br none 0 (BitVec.ofInt 22 (-3))) (stage []))).pc = barePc - 12 ∧
    (fr (after (.brc none 5 0 5) (stage [(5, 1#32)]))).pc = barePc + 20 ∧ (fr (after (.brz none 5 0 5) (stage [(5, 1#32)]))).pc = barePc + 4 := by
  decide

/-- A store is found by the core that made it, in little-endian order (R2, R202). -/
theorem test_store :
    let s := stage [(3, 0x11223344#32), (4, 0x10000#32)] id fun w => { w with frags := [{ exec := 1, pc := barePc }] }
    (seen (after (.stw none 3 4 1) s) 0 0x20004).1 = [0x44#8] ∧ (seen (after (.stw none 3 4 1) s) 0 0x20007).1 = [0x11#8] := by
  decide +kernel

/-- A scratchpad exchange: the registers take the old word (R216). -/
theorem test_sxchg : out (.sxchg none 3 4 1 0) (stage [(3, 5#32)] (fun l => { l with scratch := 4096 }) fun w =>
    { w with frags := [{ exec := 1, pc := barePc }] }) 3 0 = 0#32 ∧
    (after (.sxchg none 3 4 1 0) (stage [(3, 5#32)] (fun l => { l with scratch := 4096 }) fun w =>
    { w with frags := [{ exec := 1, pc := barePc }] })).mem.get (scrAddr 0 0) = 5#8 := by decide

/-- R459's example: port 1 holds the session with tag 0x33; port 0's request leaves RESULT 1. -/
theorem test_session :
    let s := after (.sessionLockWrite 0 0x80000007#32) { after (.sessionLockWrite 1 0x80000033#32) State.reset with clk := 9 }
    managementWord s 0 0 = 0x81000033#32 ∧ managementWord s 0 4 = 1 ∧ managementWord s 1 4 = 0 := by decide
/-- R362's example: ports 2 and 0 write in the same clock, and port 0 wins, whichever write comes first. -/
theorem test_session_tie :
    let s := after (.sessionLockWrite 0 0x80000005#32) (after (.sessionLockWrite 2 0x800000A1#32) State.reset)
    managementWord s 0 0 = 0x80000005#32 ∧ managementWord s 2 4 = 1 ∧ managementWord s 0 4 = 0 := by decide

/-- R286: a message raised while its vector is masked is sent when it is unmasked. -/
theorem test_msix : (after (.msixUnmask 0 3) (raiseMsix State.reset 0 3)).out = [.msix 0 3] := by decide

/-- R357: GENINC of world 5. -/
theorem test_geninc : ((after (.geninc 5) State.reset).worlds.getD 5 {}).gen = 1 ∧ ((after (.geninc 5) State.reset).worlds.getD 4 {}).gen = 0 := by
  decide

/-- The first instruction after a word is placed runs (a NOP moves the PC by 4). -/
theorem test_first_step : (match step (State.reset.withFetchWord 32 0x01000000) with
    | .next t => (t.warps.map fun w => w.frags.map fun f => f.pc) == [[barePc + 4]]
    | _ => false) = true := by decide

/-! ## Witnesses: states and operands that meet the hypotheses of the statements -/

/-- A team with a scratchpad, handles and a barrier, registers 1 to 4 holding 5, 6, 7 and the address of the mapped page. -/
def plainState : State :=
  stage [(1, 5#32), (2, 6#32), (3, 7#32), (4, 0x10000#32)] fun l => { l with scratch := 65536, accb := 65536, handles := 4, bCore := 1 }

/-- The same with one active lane. -/
def oneLane : State :=
  stage [(1, 5#32), (2, 6#32), (3, 7#32), (4, 0x10000#32)] (fun l => { l with scratch := 65536, accb := 65536, handles := 4, bCore := 1 })
    fun w => { w with frags := [{ exec := 1, pc := barePc }] }

/-- Where the cursor stands is decided by looking. -/
theorem issues (s : State) (h : s.cur.warp < s.warps.length ∧ s.cur.frag < (me s).frags.length ∧ (me s).regs.length = 256) : Issuing s :=
  ⟨h.1, h.2.1, h.2.2⟩
theorem issuing_plain : Issuing plainState := issues _ (by decide +kernel)
theorem issuing_one : Issuing oneLane := issues _ (by decide +kernel)

theorem test_witness_IntegerOps : Issuing plainState ∧ Calm none [6, 1, 2] plainState ∧ Calm (some { bare with gv := true, g := 9 }) [6, 1, 2] plainState ∧
    (Instr.wmul none 6 1 2).wellFormed = true ∧ (Instr.mov64 none 6 2).wellFormed = true :=
  ⟨issuing_plain, ⟨by decide +kernel, by decide +kernel⟩, ⟨by decide +kernel, by decide +kernel⟩, by decide +kernel, by decide +kernel⟩

theorem test_witness_ElementArithmetic : 1 < (intEt 2).count ∧ 0 < (intEt 0).count := by decide +kernel

theorem test_witness_ResidualChecks : Inside [1] plainState ∧ Clean (fr plainState).exec [1] plainState ∧
    (∀ l, l < 32 → inMask (fr plainState).exec l = true → (lane plainState 1 l).val.toNat < (6#16).toNat) ∧
    (∀ l, l < 32 → inMask (fr plainState).exec l = true → (lane plainState 6 l).val.toNat + (1#10).toNat * 2 ^ (16#5).toNat ≤ 65536 ∧
      (lane plainState 6 l).val.toNat % checkAlign 1 16 = 0) := by
  unfold Inside Clean; decide +kernel

/-- A CHKR of register 1, which holds 5, against 5: every lane fails. -/
theorem test_witness_ResidualChecks_fails : (∀ l, l < 32 → inMask 0xFFFFFFFF#32 l =
    (inMask (fr plainState).exec l && decide ((5#16).toNat ≤ (lane plainState 1 l).val.toNat))) := by decide +kernel

/-- A region of 4096 bytes at 0x10000 and an address range that ends at its end. -/
def regioned : State := stage [(4, 0x10FF0#32)] fun l => { l with regions := [{ base := 0x10000, cls := 0, rights := 3, len := 4096 }] }
theorem test_witness_ResidualChecks_region : Issuing regioned ∧
    (∀ l, l < 32 → inMask (fr regioned).exec l = true →
      regionBase (launchOf regioned (me regioned)) (teamOf regioned (me regioned)) (me regioned).wid 0 + 64 * 0 ≤ (pairAt (me regioned) 4 l).toNat ∧
      (pairAt (me regioned) 4 l).toNat + 16 ≤
        regionBase (launchOf regioned (me regioned)) (teamOf regioned (me regioned)) (me regioned).wid 0 + regionLen (launchOf regioned (me regioned)) 0) :=
  ⟨⟨by decide +kernel, by decide +kernel, by decide +kernel⟩, by decide +kernel⟩

theorem test_witness_ModeAccess : Calm none [1] plainState ∧ act none plainState ≠ 0 ∧
    (lane plainState 1 (lowestLane (act none plainState))).poison = false ∧ ((me plainState).holds.all fun h => !h.flags) = true :=
  ⟨⟨by decide +kernel, by decide +kernel⟩, by decide +kernel, by decide +kernel, by decide +kernel⟩

theorem test_witness_SpecialReads : (Instr.movx none 6 0x20).wellFormed = true ∧ Calm none (regRun 6 2) plainState :=
  ⟨by decide +kernel, by decide +kernel, by decide +kernel⟩

theorem test_witness_IndexedMoves : Calm none [6, 1] plainState ∧ Clean (act none plainState) [1] plainState ∧
    (launchOf plainState (me plainState)).regs ≤ 256 ∧
    (∀ l, l < 32 → inMask (act none plainState) l = true → (lane plainState 1 l).val.toNat < (launchOf plainState (me plainState)).regs) :=
  ⟨⟨by decide +kernel, by decide +kernel⟩, by unfold Clean; decide +kernel, by decide +kernel, by decide +kernel⟩

/-- A launch of 32 registers: register 40 is outside; and a poisoned guard register 9. -/
def small : State := stage [] fun l => { l with regs := 32 }
def guarded' : State := stage [] id fun w => { w with regs := w.regs.set 9 (rowOf fun _ => poisoned) }
theorem test_witness_RegisterBounds :
    (guardPoison none (me small) (fr small) = 0 ∧
      ([40, 2] ++ guardRegs none (me small)).find? (fun r => !regInside (launchOf small (me small)).regs r) = some 40) ∧
    guardPoison (some { bare with gv := true, g := 9 }) (me guarded') (fr guarded') ≠ 0 := by decide +kernel

theorem test_witness_FloatOps : Issuing plainState ∧ Calm none [6, 1, 2, 6] plainState := ⟨issuing_plain, by decide +kernel, by decide +kernel⟩

/-- Slot 0 of FP8 takes variant 0; the empty slot's format does not take variant 3. -/
theorem test_witness_FormatConversions : (∃ v f, variantTakes v f = true) ∧ (∃ v f, variantTakes v f = false) ∧
    Calm none (6 :: regRun 8 (runLen 0)) plainState :=
  ⟨⟨0, 0, by decide +kernel⟩, ⟨0, 7, by decide +kernel⟩, by decide +kernel, by decide +kernel⟩

theorem test_witness_CrossLane : Issuing oneLane ∧ Calm none [6, 1, 2] oneLane := ⟨issuing_one, by decide +kernel, by decide +kernel⟩

/-- The accesses of the mapped page: a load, a store and an atomic of one lane. -/
theorem reaches_page (i : Nat) (need : Need) (atomic : Bool) (h : need = .read ∧ i = 16 ∨ need = .write ∧ i = 4 ∨ need = .write ∧ i = 8)
    (ha : atomic = (i == 8)) : Reaches none [6, 7, 8, 9, 4, 5] 4 (Claims.laneAddr none 4 0 i oneLane) i need atomic oneLane := by
  subst ha
  rcases h with ⟨rfl, rfl⟩ | ⟨rfl, rfl⟩ | ⟨rfl, rfl⟩ <;>
  exact ⟨⟨by decide +kernel, by decide +kernel⟩, by unfold Clean; decide +kernel, by decide +kernel, fun l hl hm =>
    ok_of ((by decide +kernel : ∀ l, l < 32 → inMask (act none oneLane) l = true →
      (spotOf oneLane (me oneLane) (Claims.laneAddr none 4 0 _ oneLane l) _ _).toOption.isSome = true) l hl hm),
    fun _ => by decide +kernel⟩

theorem settled_one : Settled oneLane := ⟨by decide +kernel, by decide +kernel, by decide +kernel, by decide +kernel⟩

theorem test_witness_Loads : act none oneLane ≠ 0 ∧ (me oneLane).cntLd < 128 ∧ isRedundant oneLane (me oneLane) = false ∧
    Reaches none [6, 7, 8, 9, 4, 5] 4 (Claims.laneAddr none 4 0 16 oneLane) 16 .read false oneLane ∧ Settled oneLane :=
  ⟨by decide +kernel, by decide +kernel, by decide +kernel, reaches_page 16 .read false (.inl ⟨rfl, rfl⟩) rfl, settled_one⟩

/-- Region 0 opens the team's own accumulators; a TACCZ of their first tile is queued (R60). -/
def heldTile : State :=
  { stage [(4, 0#32), (5, BitVec.ofNat 32 (aperture / 2 ^ 32))]
      (fun l => { l with accb := 65536, regions := [{ self := true, cls := 3, rights := 3 }] })
      fun w => { w with frags := [{ exec := 1, pc := barePc }] } with
    arrays := [{ queue := [{ (default : TileOp) with kind := .zero 0 1 false }] }] }
theorem test_witness_Loads_held : act none heldTile ≠ 0 ∧ (me heldTile).cntLd < 128 ∧ (me heldTile).cntSt < 128 ∧
    accessCauses none heldTile (act none heldTile) 4 [6, 4, 5] (Claims.laneAddr none 4 0 4 heldTile) 4 .read false = [] ∧
    tilesFree heldTile (windowPlaces heldTile (me heldTile) (act none heldTile) (Claims.laneAddr none 4 0 4 heldTile) .read) 4 = false :=
  by decide +kernel
theorem test_witness_Stores_held :
    accessCauses none heldTile (act none heldTile) 4 [6, 4, 5] (Claims.laneAddr none 4 0 4 heldTile) 4 .write false = [] ∧
    tilesFree heldTile (windowPlaces heldTile (me heldTile) (act none heldTile) (Claims.laneAddr none 4 0 4 heldTile) .write) 4 = false ∧
    tilesFree { heldTile with arrays := [] }
      (windowPlaces heldTile (me heldTile) (act none heldTile) (Claims.laneAddr none 4 0 4 heldTile) .write) 4 = true :=
  ⟨by decide +kernel, by decide +kernel, by decide +kernel⟩

/-- No active lane. -/
def idle : State := stage [] id fun w => { w with frags := [{ exec := 0, pc := barePc }] }
theorem test_witness_Loads_none : Issuing idle ∧ act none idle = 0 ∧ Calm none [6, 4, 5] idle :=
  ⟨⟨by decide +kernel, by decide +kernel, by decide +kernel⟩, by decide +kernel, by decide +kernel, by decide +kernel⟩

theorem test_witness_MemoryView : Settled oneLane ∧ oneLane.wcb = [] ∧ l1Find oneLane 0 0x20000 = none ∧ inBlock 0x20000 = false ∧
    oneLane.mem.wf = true ∧ isRedundant oneLane (me oneLane) = false := ⟨settled_one, by decide +kernel⟩

theorem test_witness_Stores : (me oneLane).cntSt < 128 ∧ gateFull oneLane (me oneLane) (4 * laneCount (act none oneLane)) = false ∧
    Reaches none [6, 7, 8, 9, 4, 5] 4 (Claims.laneAddr none 4 0 4 oneLane) 4 .write false oneLane ∧
    (∀ l, l < 32 ∧ inMask (act none oneLane) l = true → ∃ m, Claims.AtMemory oneLane .write false (Claims.laneAddr none 4 0 4 oneLane l) m ∧
      m % 4 = 0 ∧ inBlock m = false) :=
  ⟨by decide +kernel, by decide +kernel, reaches_page 4 .write false (.inr (.inl ⟨rfl, rfl⟩)) rfl, fun l h => by
    have e : l = 0 := (by decide +kernel : ∀ l, l < 32 → inMask (act none oneLane) l = true → l = 0) l h.1 h.2
    subst e
    exact ⟨0x20000, rfl, rfl, by decide +kernel⟩⟩

theorem test_witness_OrderedAndOther : holds oneLane (me oneLane) (.drained true) = true ∧ act none oneLane ≠ 0 ∧
    Calm none [4, 5] oneLane ∧ Clean (act none oneLane) [4, 5] oneLane ∧ (me oneLane).cntLd = 0 :=
  ⟨by decide +kernel, by decide +kernel, ⟨by decide +kernel, by decide +kernel⟩, by unfold Clean; decide +kernel, by decide +kernel⟩

/-- A release with a load in flight waits. -/
def flying : State := { oneLane with ops := [{ (default : Op) with team := 0, wid := 0, ctr := .ld, id := 9 }] }
theorem test_witness_OrderedAndOther_waits : holds flying (me flying) (.drained false) = false := by decide +kernel

theorem test_witness_RegisterRuns : (fr oneLane).exec ≠ 0 ∧ Inside (regRun 32 8 ++ [4, 5]) oneLane ∧
    scalarPoison (me oneLane) (fr oneLane) [4, 5] = 0 ∧ (scalarPair (me oneLane) (fr oneLane) 4).toNat % 128 = 0 ∧
    (∀ i, i < 8 → ∃ sp, spotOf oneLane (me oneLane) ((scalarPair (me oneLane) (fr oneLane) 4).toNat + 128 * i) .write false = .ok sp) :=
  ⟨by decide +kernel, by unfold Inside; decide +kernel, by decide +kernel, by decide +kernel, fun i h =>
    ok_of ((by decide +kernel : ∀ i, i < 8 → (spotOf oneLane (me oneLane)
      ((scalarPair (me oneLane) (fr oneLane) 4).toNat + 128 * i) .write false).toOption.isSome = true) i h)⟩

/-- A CHKA of register 1's 5 past the scratchpad, and a CHKB of the region with one byte too many: every lane fails. -/
theorem test_witness_ResidualChecks_fails_offset : (∀ l, l < 32 → inMask 0xFFFFFFFF#32 l = (inMask (fr plainState).exec l &&
    !(decide ((lane plainState 1 l).val.toNat + (1#10).toNat * 2 ^ (16#5).toNat ≤ (declOf plainState (me plainState)).scratch) &&
      decide ((lane plainState 1 l).val.toNat % checkAlign 1 16 = 0)))) ∧
    Inside [4, 5] regioned ∧ Clean (fr regioned).exec [4, 5] regioned ∧
    ∀ l, l < 32 → inMask 0xFFFFFFFF#32 l = (inMask (fr regioned).exec l &&
      !(decide (regionBase (launchOf regioned (me regioned)) (teamOf regioned (me regioned)) (me regioned).wid 0 + 64 * 0 ≤ (pairAt (me regioned) 4 l).toNat) &&
        decide ((pairAt (me regioned) 4 l).toNat + (17#6).toNat ≤ regionBase (launchOf regioned (me regioned)) (teamOf regioned (me regioned))
          (me regioned).wid 0 + regionLen (launchOf regioned (me regioned)) 0))) := by
  unfold Inside Clean; decide +kernel

theorem test_witness_ModeAccess_none : Calm none [1] idle ∧ act none idle = 0 ∧ ((me idle).holds.all fun h => !h.flags) = true :=
  ⟨⟨by decide +kernel, by decide +kernel⟩, by decide +kernel, by decide +kernel⟩

/-- Register 1 holds 300, which is no register. -/
def farIndex : State := stage [(1, 300#32)]
theorem test_witness_IndexedMoves_fails : Calm none [6, 1] farIndex ∧ Clean (act none farIndex) [1] farIndex ∧
    ∀ l, l < 32 → inMask 0xFFFFFFFF#32 l = (inMask (act none farIndex) l &&
      decide ((launchOf farIndex (me farIndex)).regs ≤ (lane farIndex 1 l).val.toNat)) :=
  ⟨⟨by decide +kernel, by decide +kernel⟩, by unfold Clean; decide +kernel, by decide +kernel⟩

/-- Slots of formats 0, 6 and 7. -/
def slotted : State := stage [] fun l => { l with slots := [{ fmt := 0 }, { fmt := 6 }, { fmt := 7 }] }
theorem test_witness_FormatConversions_slots : Calm none (6 :: regRun 8 8) slotted ∧ ((List.range 4).map fun v => runLen (BitVec.ofNat 2 v)).all (· ≤ 8) = true ∧
    (slotOf slotted 1).fmt = 6 ∧ (∃ v : BitVec 2, variantTakes v 6 = true) ∧ (∃ v : BitVec 2, variantTakes v (slotOf slotted 0).fmt = true) ∧
    (∃ v : BitVec 2, variantTakes v (slotOf slotted 2).fmt = false) ∧ (3#3 : BitVec 3) ≠ 0 :=
  ⟨⟨by decide +kernel, by decide +kernel⟩, by decide +kernel, by decide +kernel, by decide +kernel, by decide +kernel, by decide +kernel, by decide⟩

/-- Lane 0 at the first word of the mapped page, which the core has no copy of. -/
theorem reaches_word (need : Need) (h : need = .read ∨ need = .write) :
    Reaches none [6, 4, 5] 4 (Claims.laneAddr none 4 0 0 oneLane) 4 need false oneLane := by
  rcases h with rfl | rfl <;>
  exact ⟨⟨by decide +kernel, by decide +kernel⟩, by unfold Clean; decide +kernel, by decide +kernel, fun l hl hm =>
    ok_of ((by decide +kernel : ∀ l, l < 32 → inMask (act none oneLane) l = true →
      (spotOf oneLane (me oneLane) (Claims.laneAddr none 4 0 0 oneLane l) _ _).toOption.isSome = true) l hl hm),
    fun _ => by decide +kernel⟩
theorem test_witness_OrderedAndOther_lanes : Reaches none [6, 4, 5] 4 (Claims.laneAddr none 4 0 0 oneLane) 4 .read false oneLane ∧
    Reaches none [6, 4, 5] 4 (Claims.laneAddr none 4 0 0 oneLane) 4 .write false oneLane ∧ mustCompare oneLane = false ∧
    isRedundant oneLane (me oneLane) = false ∧ oneLane.wcb = [] ∧ oneLane.l1 = [] ∧ laneCount (act none oneLane) < 32 ∧
    (∀ l, l < 32 ∧ inMask (act none oneLane) l = true →
      Claims.AtMemory oneLane .read false (Claims.laneAddr none 4 0 0 oneLane l) 0x20000 ∧
      Claims.AtMemory oneLane .write false (Claims.laneAddr none 4 0 0 oneLane l) 0x20000) ∧ lineBase 0x20000 = 0x20000 :=
  ⟨reaches_word .read (.inl rfl), reaches_word .write (.inr rfl), by decide +kernel, by decide +kernel, rfl, rfl, by decide +kernel,
    fun l h => by
      have e : l = 0 := (by decide +kernel : ∀ l, l < 32 → inMask (act none oneLane) l = true → l = 0) l h.1 h.2
      subst e
      exact ⟨rfl, rfl⟩,
    by decide +kernel⟩
theorem test_witness_OrderedAndOther_held : Issuing flying ∧ act none flying ≠ 0 ∧
    tilesFree flying (windowPlaces flying (me flying) (act none flying) (Claims.laneAddr none 4 0 0 flying) .read) 4 = true ∧
    tilesFree flying (windowPlaces flying (me flying) (act none flying) (Claims.laneAddr none 4 0 0 flying) .write) 4 = true ∧
    gateFull flying (me flying) (4 * laneCount (act none flying)) = false :=
  ⟨issues _ (by decide +kernel), by decide +kernel⟩

/-- A run that begins 4 bytes past a multiple of 128; one with no lane in EXEC; one whose rows lie in the mapped page. -/
def askew : State := stage [(4, 0x10004#32)] id fun w => { w with frags := [{ exec := 1, pc := barePc }] }
theorem test_witness_RegisterRuns_stops : Inside (regRun 32 8 ++ [4, 5]) askew ∧ (fr askew).exec ≠ 0 ∧
    scalarPoison (me askew) (fr askew) [4, 5] = 0 ∧ (scalarPair (me askew) (fr askew) 4).toNat % 128 ≠ 0 ∧
    (∀ need ∈ [Need.read, .write], ∀ i, i < 8 →
      (spotOf askew (me askew) ((scalarPair (me askew) (fr askew) 4).toNat + 128 * i) need false).toOption.isSome = true) ∧
    Inside (regRun 32 8 ++ [4, 5]) idle ∧ (fr idle).exec = 0 := by unfold Inside; decide +kernel
theorem test_witness_RegisterRuns_rows : (∀ i, i < 8 → inBlock (0x20000 + 128 * i) = false) ∧ ∀ i l, i < 8 ∧ l < 32 ∧ inMask (fr oneLane).exec l = true →
    Claims.AtMemory oneLane .write false ((scalarPair (me oneLane) (fr oneLane) 4).toNat + 128 * i + 4 * l) (0x20000 + 128 * i) := by
  refine ⟨by decide +kernel, fun i l h => ?_⟩
  have e : l = 0 := (by decide +kernel : ∀ l, l < 32 → inMask (fr oneLane).exec l = true → l = 0) l h.2.1 h.2.2
  subst e
  have k := (by decide +kernel : ∀ i, i < 8 → (spotOf oneLane (me oneLane) ((scalarPair (me oneLane) (fr oneLane) 4).toNat + 128 * i + 4 * 0)
    .write false).toOption = some (.mem (0x20000 + 128 * i))) i h.1
  obtain ⟨x, hx⟩ := ok_of (Option.isSome_of_eq_some k)
  rw [hx, Except.toOption, Option.some.injEq] at k
  rw [k] at hx
  exact hx

/-- The scratchpad of one lane: offset 0 of register 6. -/
theorem test_witness_ScratchAccess : Calm none (regRun 8 4 ++ [6]) oneLane ∧ Clean (act none oneLane) [6] oneLane ∧
    (∀ l, l < 32 → inMask (act none oneLane) l = true → (dwordOf (offAt (me oneLane) 6 l 0)).toNat % 16 = 0) ∧
    (teamOf oneLane (me oneLane)).scrBase % 4 = 0 :=
  ⟨⟨by decide +kernel, by decide +kernel⟩, by unfold Clean; decide +kernel, by decide +kernel, by decide +kernel⟩

theorem test_witness_Atomics : Claims.Ordered 1 3 oneLane ∧
    Reaches none [6, 7, 8, 9, 4, 5] 4 (Claims.laneAddr none 4 0 8 oneLane) 8 .write true oneLane :=
  ⟨⟨by decide +kernel, fun _ => by decide +kernel⟩, reaches_page 8 .write true (.inr (.inr ⟨rfl, rfl⟩)) rfl⟩

theorem test_witness_AtomicLane : spotOf oneLane (me oneLane) 0x10008 .write true = .ok (.mem 0x20008) ∧ inBlock 0x20008 = false ∧
    (∀ x, l1Find oneLane (me oneLane).core 0x20008 = some x → x.dirty = 0) ∧ (fun _ => 7) (ofBytes (oneLane.mem.read 0x20008 8)) < 256 ^ 8 ∧
    oneLane.mem.readBad 0x20008 8 = false :=
  ⟨rfl, by decide +kernel, (fun _ h => by cases h), by decide +kernel, by decide +kernel⟩

theorem test_witness_ScratchAtomics : Calm none [3, 6] oneLane ∧ Clean (act none oneLane) [6] oneLane ∧ Claims.Ordered 1 0 oneLane ∧
    (∀ l, l < 32 → inMask (act none oneLane) l = true → (lane oneLane 6 l).val.toNat % 4 = 0) :=
  ⟨⟨by decide +kernel, by decide +kernel⟩, by unfold Clean; decide +kernel, ⟨by decide +kernel, fun _ => by decide +kernel⟩, by decide +kernel⟩

/-- The lock word of the mapped page, as memory holds it. -/
def locked (v : Nat) : State := { oneLane with mem := (oneLane.mem.write 0x20000 (toBytes 4 v) false) }
theorem lockword (v : Nat) (h : v = 0 ∨ v = 7 ∨ v = 0x80000000) : Claims.LockWord 4 0x20000 (locked v) := by
  rcases h with rfl | rfl | rfl <;>
  exact ⟨by decide +kernel, by decide +kernel, by unfold Inside; decide +kernel, by decide +kernel, rfl, by decide +kernel⟩
/-- Free, held by another, held by the warp itself. -/
theorem test_witness_Locks : Claims.LockWord 4 0x20000 (locked 0) ∧ Claims.LockWord 4 0x20000 (locked 7) ∧ Claims.LockWord 4 0x20000 (locked 0x80000000) ∧
    Claims.lockValue 0x20000 (locked 0) = 0 ∧ Claims.lockValue 0x20000 (locked 7) = 7 ∧
    Claims.lockValue 0x20000 (locked 0x80000000) = ownerValue (locked 0x80000000) 0 0 ∧ (locked 7).mem.wf = true ∧ homeTakes (locked 7) 0x20000 = true ∧
    sliceWaiters (locked 7) 0x20000 < 256 ∧ (me (locked 7)).tokens.length = 8 ∧ (∀ x ∈ (locked 7).l1, x.dirty = 0) :=
  ⟨lockword 0 (.inl rfl), lockword 7 (.inr (.inl rfl)), lockword _ (.inr (.inr rfl)), by decide +kernel, by decide +kernel, by decide +kernel,
    by decide +kernel, by decide +kernel, by decide +kernel, by decide +kernel, by decide +kernel⟩
theorem test_witness_Locks_reply : Claims.Answerable 0x20000 (locked 0) :=
  ⟨by decide +kernel, by decide +kernel, rfl, rfl, by decide +kernel, rfl, by decide +kernel⟩
/-- Another fragment waits for the word, which is poisoned in the second state. -/
def wanted : State := { locked 0x80000000 with waiters := [{ (default : Waiter) with word := 0x20000, core := 1, slot := 2 }] }
theorem test_witness_Locks_handed : wanted.waiters.find? (fun x => x.word == 0x20000 && !x.granted) ≠ none ∧
    (({ locked 7 with mem := (locked 7).mem.write 0x20000 [0, 0, 0, 0] true } : State).mem.bad 0x20000) = true := by decide +kernel

/-- A load, a store and a registered waiter of the warp. -/
def inAir : State := { oneLane with
  ops := [{ (default : Op) with id := 5, ctr := .ld, writes := [(6, splat 9)], active := 1 }, { (default : Op) with id := 6, ctr := .st }]
  waiters := [{ word := 0x20000, core := 0, slot := 0, frag := 0, token := 2, scope := 3, vaddr := 0x10000, granted := true, woken := false }] }
theorem test_witness_Completions : warpOfTeam inAir 0 0 < inAir.warps.length ∧ (∃ o, inAir.ops.find? (fun x => x.id == 5 && x.ctr == .ld) = some o ∧
    replyComes inAir o = true ∧ (o.writes.map (·.1)).Nodup) ∧ (∃ o, inAir.ops.find? (fun x => x.id == 6 && x.ctr == .st) = some o ∧
    replyComes inAir o = true ∧ o.stnt = false ∧ o.writes = []) ∧
    (∃ x, inAir.waiters.find? (fun y => y.core == 0 && y.slot == 0 && y.frag == 0 && y.granted) = some x) :=
  ⟨by decide +kernel, ⟨_, rfl, by decide +kernel, by decide +kernel⟩, ⟨_, rfl, by decide +kernel, rfl, rfl⟩, ⟨_, rfl⟩⟩

/-- Two teams of one warp whose window regions name each other, each waiting in an XCHG. -/
def pairUp : State :=
  let s := stage [] fun l => { l with gridX := 2, regions := [{ base := 1, cls := 4, rights := 3, len := 8192 }, { base := 0, cls := 4, rights := 3, len := 8192 },
    { base := 9, cls := 4, rights := 3, len := 8192 }] }
  let x : Nat → Xchg := fun k => { region := k, word := 0, ordinal := 0, dest := 8, count := 2, exec := 1, snapshot := [splat 3, splat 4], frag := 0, hold := 0, team := 1 - k }
  { s with
    teams := [{ bareTeam with }, { bareTeam with id := 1, index := 1, x := 1, core := 1 }]
    warps := (s.warps.map fun w => { w with xchg := some (x 0) }) ++ (s.warps.map fun w => { w with core := 1, team := 1, xchg := some (x 1) }) }
theorem test_witness_Exchanges : warpAt pairUp 0 0 < 2 ∧ warpAt pairUp 1 0 < 2 ∧ warpAt pairUp 0 0 ≠ warpAt pairUp 1 0 ∧
    xchgPartner pairUp (pairUp.warps.getD 0 {}) 0 = some 1 ∧ xchgPartner pairUp (pairUp.warps.getD 1 {}) 1 = some 0 ∧
    xchgPartner pairUp (pairUp.warps.getD 0 {}) 2 = none := by decide +kernel

theorem test_witness_Branches : Inside [1] plainState ∧ scalarPoison (me plainState) (fr plainState) [1] = 0 ∧ Clean (fr plainState).exec [1] plainState ∧
    (fr plainState).exec ≠ 0 ∧ joinOf plainState (fr plainState).pc = none := by unfold Inside Clean; decide +kernel

/-- A sealed module with a join for the branch at the first instruction and a jump table; register 1 is odd in lane 0 alone. -/
def sealedCode : Seal :=
  { world := 0, modId := 1, digest := 0, kind := 0, bytes := 4096, code := 0x1000, words := 64, pages := 1, firstExport := 0, exportCount := 0
    joins := [(0x1000, 0x1040)], jumps := [(0, [1, 2, 3])], travel := false, live := [], maxLive := 0, segments := [] }
def splitting : State := { stage [] id (fun w => { w with regs := w.regs.set 1 (rowOf fun l => clean (BitVec.ofNat 32 (l + 1))) }) with seals := [sealedCode] }
theorem test_witness_Branches_split : joinOf splitting (fr splitting).pc = some 0x1040 ∧ holds splitting (me splitting) .splitEntry = true ∧
    maskOf (fun l => inMask (fr splitting).exec l && (lane splitting 1 l).val.getLsbD 0) ≠ 0 ∧
    maskOf (fun l => inMask (fr splitting).exec l && (lane splitting 1 l).val.getLsbD 0) ≠ (fr splitting).exec ∧
    (jumpTable splitting 0)[2]? = some 3 ∧ (jumpTable splitting 0).length ≤ 3 := by decide +kernel

/-- An entry of the world's table, held by the entry cache; a link stack of one entry, a full one. -/
def entry0 : Entry := { world := 0, index := 0, modId := 1, name := 0, isFn := true, code := [some 0x1000, some 0x1000, some 0x1000, some 0x1000], frame := 0
                        sigRole := 0, sigBytes := [], decl := {} }
def calling : State := { stage [] id (fun w => { w with link := [{ ret := 0x1040, sp := 0, poisonLo := false, poisonHi := false }], onCore := 1 }) with
  entries := [entry0], entryCache := [(0, 0)] }
def deep : State := stage [] id fun w => { w with link := List.replicate 4096 { ret := 0x1040, sp := 0, poisonLo := false, poisonHi := false }, onCore := 32 }
theorem test_witness_Calls : (me calling).link.length < 4096 ∧ (me calling).onCore < 32 ∧ (me calling).onCore ≠ 0 ∧ entryCached calling 0 0 = true ∧
    entryCode calling 0 0 (roleCode (roleOf (me calling) (fr calling))) = some 0x1000 ∧ entryCached plainState 0 0 = false ∧
    (me plainState).link = [] ∧ (me deep).link.length = 4096 := by decide +kernel

/-- Two fragments of one split, both at its JOIN. -/
def mark : Split := { id := 1, join := 0x1000, parent := 0, favoured := 0 }
def parted : State := stage [] id fun w => { w with frags := [{ pc := barePc, exec := 1, frag := 0xFFFF, wait := .join 1, splits := [mark] },
  { id := 1, pc := barePc, exec := 0xFFFF0000, frag := 0xFFFF0000, wait := .join 1, splits := [mark] }] }
theorem test_witness_JoinFuses : ((me parted).frags.filter fun f => inSplit 1 f && !f.handler).length = 2 ∧
    (∀ f ∈ (me parted).frags, f.wait = .join 1) ∧ (fr parted).splits = [mark] ∧ mark.join = (fr parted).pc := by decide +kernel

/-- A warp with no fragment left, and a warp of the same team that goes on. -/
def ending : State := { stage [] id (fun w => { w with frags := [] }) with
  warps := [{ bareWarp barePc with frags := [] }, { bareWarp barePc with slot := 1, wid := 1 }] }
def asleep : State := stage [] id fun w => { w with frags := [{ pc := barePc, wait := .sleep 9 }] }
theorem test_witness_Exits : fragById (me plainState) (fr plainState).id = some (fr plainState) ∧ warpAt ending 0 0 < ending.warps.length ∧
    barriersOf ending (teamOf ending (ending.warps.getD 0 {})) = [] ∧
    (∃ v ∈ ending.warps, v.team = (ending.warps.getD 0 {}).team ∧ v.ended = false ∧ (v.core, v.slot) ≠ (0, 0)) ∧
    ((asleep.warps.getD 0 {}).frags.getD 0 {}).wait = .sleep 9 := by decide +kernel

/-- An executable, sealed page at virtual page 0 of world 0, out of ownership mode. -/
def fetchable : State := { stage [] with
  ilines := [], ownership := false, pages := [(2, .sealed)], tlb := [{ page with page := 0, x := true }] }
theorem test_witness_FetchesAndRefills : fragById (fetchable.warps.getD 0 {}) 0 = some (fr fetchable) ∧
    peek fetchable 0 0 0x1000 = .absent 0x1000 ∧ (fetchPage fetchable 0 0 0x1000).toOption.isSome = true ∧ iPresent fetchable 0 0 0x1000 = false ∧
    tlbFind plainState 0 0 0 = none ∧ iPresent plainState 0 0 0x2000 = false ∧ fetchDue fetchable (fetchable.warps.getD 0 {}) (fr fetchable) = true ∧
    mayFetch fetchable (fetchable.warps.getD 0 {}) 0x1000 = true := by decide +kernel

theorem test_witness_FetchesAndRefills_waits :
    ∃ (s : State) (f : Frag), s.warps = [{ bareWarp barePc with frags := [f] }] ∧ f.wait = .entryMiss 3 :=
  ⟨{ plainState with warps := [{ bareWarp barePc with frags := [{ wait := .entryMiss 3 }] }] }, _, rfl, rfl⟩

/-! Traps -/

/-- A launch with a trap handler (global entry 2) and its trap area on the mapped page. -/
def trapping : State := { stage [(1, 5#32)] (fun l => { l with save := 0x10000, trapEnt := 2 }) with
  entries := [{ entry0 with index := 2 }] }
def trapCause (n : BitVec 16) : Cause := { cls := 1, code := 0, res := true, info := n.zeroExtend 32, next := true }
theorem test_witness_TrapEntry : Issuing trapping ∧ ∃ u, Claims.CanEnter (trapCause 3) 0x1000 trapping u := by
  refine ⟨⟨by decide +kernel, by decide +kernel, by decide +kernel⟩, ?_⟩
  obtain ⟨u, h⟩ := ok_of (r := areaWrite (Claims.asked (trapCause 3) trapping) (me (Claims.asked (trapCause 3) trapping))
    (trapWrites (me (Claims.asked (trapCause 3) trapping)) (fr trapping) (Claims.recordAt (trapCause 3) trapping) (nextPc trapping)
      (trapArea trapping (me trapping)))) (by decide +kernel)
  exact ⟨u, by decide +kernel, by decide +kernel, by decide +kernel, by decide +kernel, ⟨by decide +kernel, by decide +kernel⟩, h⟩

/-- No handler; a fault in a handler. -/
def handling : State := { trapping with warps := (stage []).warps.map fun w => { w with
  served := some 0, frags := [{ pc := barePc, held := true }, { id := 1, pc := barePc, handler := true }] }, cur := { trapping.cur with frag := 1 } }
theorem test_witness_TrapEntry_halts : handlerPc plainState (me plainState) = none ∧ (fr plainState).handler = false ∧ Issuing handling ∧
    (fr handling).handler = true :=
  ⟨by decide +kernel, by decide +kernel, ⟨by decide +kernel, by decide +kernel, by decide +kernel⟩, by decide +kernel⟩

theorem test_witness_Halts : 0 < plainState.warps.length ∧ (teamOf plainState (plainState.warps.getD 0 {})).task < plainState.tasks.length ∧
    (launchOf trapping (trapping.warps.getD 0 {})).save ≠ 0 ∧
    (∃ u, areaWrite (silence trapping 0) (trapping.warps.getD 0 {}) [(trapArea trapping (trapping.warps.getD 0 {}), bytesOf (default : FaultRec).words, false)] =
      .ok u) ∧ (∀ k ∈ (trapping.warps.getD 0 {}).tokens, k.held = false) ∧ trapping.waiters = [] :=
  ⟨by decide +kernel, by decide +kernel, by decide +kernel, ok_of (by decide +kernel), by decide +kernel, rfl⟩

/-- The warp of team 0 halted, beside a warp in the next slot that goes on. -/
def halfHalted : State := { plainState with warps := [{ bareWarp barePc with halted := true }, { bareWarp barePc with slot := 1, wid := 1 }] }
theorem test_witness_Halts_lasts : (∃ t, step halfHalted = .next t) ∧ 0 < halfHalted.nextId ∧
    (∀ v ∈ halfHalted.warps, v.team = 0 → v.wid = 0 → v.halted = true) ∧ halfHalted.suspended = [] ∧ halfHalted.pins = [] ∧
    (match turnOf halfHalted 0 with | .run _ _ => true | _ => false) = true ∧
    (∀ v ∈ halfHalted.warps, ∀ w ∈ halfHalted.warps, v.core = w.core → v.slot = w.slot → v.halted = w.halted) := by
  refine ⟨?_, by decide +kernel, by decide +kernel, rfl, rfl, by decide +kernel, by decide +kernel⟩
  have h : (match step halfHalted with | .next _ => true | _ => false) = true := by decide +kernel
  revert h
  cases step halfHalted with
  | next t => exact fun _ => ⟨t, rfl⟩
  | fault f => intro h; cases h
  | refused r => intro h; cases h

/-- A handler whose trap area holds a resumable record (bit 14 of word 0), and one whose area holds zeros. -/
def returning : State := { handling with mem := handling.mem.write 0x22000 (toBytes 4 0x4000) false }
theorem test_witness_TrapReturns : (me handling).holds = [] ∧ (me handling).pending = [] ∧ (∀ f ∈ (me handling).frags, ∀ d c x, f.wait ≠ .released d c x) ∧
    (∃ u ws, readArea (issued handling) (me handling) (trapArea (issued handling) (me handling)) = .ok (u, ws) ∧
      (ws.getD 0 {}).val.getLsbD 14 = false) ∧
    ∃ u ws, readArea (issued returning) (me returning) (trapArea (issued returning) (me returning)) = .ok (u, ws) ∧
      (ws.getD 0 {}).val.getLsbD 14 = true ∧ (restored (me returning) ws).frags ≠ [] := by
  refine ⟨by decide +kernel, by decide +kernel, ?_, ?_, ?_⟩
  · intro f h
    have k : (me handling).frags.all (fun f => f.wait == .none) = true := by decide +kernel
    intro d c x e
    simpa [e] using List.all_eq_true.mp k f h
  · obtain ⟨x, h⟩ := ok_of (r := readArea (issued handling) (me handling) (trapArea (issued handling) (me handling))) (by decide +kernel)
    have k : ((readArea (issued handling) (me handling) (trapArea (issued handling) (me handling))).toOption.map
      fun x => (x.2.getD 0 {}).val.getLsbD 14) = some false := by decide +kernel
    rw [h] at k
    exact ⟨x.1, x.2, h, by simpa [Except.toOption] using k⟩
  · obtain ⟨x, h⟩ := ok_of (r := readArea (issued returning) (me returning) (trapArea (issued returning) (me returning))) (by decide +kernel)
    have k : ((readArea (issued returning) (me returning) (trapArea (issued returning) (me returning))).toOption.map
      fun x => ((x.2.getD 0 {}).val.getLsbD 14, (restored (me returning) x.2).frags.isEmpty)) = some (true, false) := by decide +kernel
    rw [h] at k
    simp only [Except.toOption, Option.map_some, Option.some.injEq, Prod.mk.injEq] at k
    exact ⟨x.1, x.2, h, k.1, by intro e; rw [e] at k; exact absurd k.2 (by decide)⟩

/-- A pending imprecise fault behind a load in flight; a load whose reply is lost; a record that waits for the fault log. -/
def lateFault : State := { trapping with
  warps := trapping.warps.map fun w => { w with
    holds := [{ (default : Hold) with id := 1 }]
    pending := [{ cls := 3, code := 0x020, res := false, pois := false, frag := 1, pc := barePc, instr := 0, pfxWord := 0, ctr := none, lanes := 1, addr := 0 }] }
  ops := [{ (default : Op) with id := 4, ctr := .ld, homes := [0x200000] }]
  log := { trapping.log with waiting := [default] } }
/-- The same with nothing in flight, an enabled log and a fault that was detected earlier; a LOCK whose request is lost. -/
def calmFault (t : Nat) : State := { lateFault with
  warps := lateFault.warps.map fun w => { w with holds := [], pending := w.pending.map fun p => { p with ctr := some .ld, time := t } }
  log := { lateFault.log with en := true, waiting := [{ (default : FaultRec) with time := 5 }] }, pod := { lateFault.pod with bridge := true } }
def askingLock : State := { oneLane with warps := oneLane.warps.map fun w => { w with frags := [{ exec := 1, pc := barePc, wait := .lockSent 0x20000 9 0x10000 }] } }
theorem test_witness_FaultEvents : (∃ p g, (lateFault.warps.getD 0 {}).pending = [p] ∧ servedBy (lateFault.warps.getD 0 {}) p.frag = some g ∧ p.cls < 5 ∧
      p.ctr = none) ∧ (handlerPc lateFault (lateFault.warps.getD 0 {})).isSome = true ∧ (lateFault.warps.getD 0 {}).holds ≠ [] ∧
    (∃ o, lateFault.ops.find? (fun x => x.id == 4) = some o ∧ o.homes ≠ [] ∧ warpOfTeam lateFault o.team o.wid = 0) ∧ lateFault.wcb = [] ∧
    (∃ r, lateFault.log.waiting = [r]) ∧ lateFault.log.head = lateFault.log.tail ∧
    (msixVec (after (.msixUnmask 0 0) lateFault) 0 0).masked = false ∧
    (trapping.warps.getD 0 {}).holds = [] ∧ lateFault.log.en = false :=
  ⟨⟨_, _, rfl, rfl, by decide +kernel, rfl⟩, by decide +kernel, by decide +kernel, ⟨_, rfl, by decide, by decide +kernel⟩, rfl, ⟨_, rfl⟩, by decide +kernel,
    by decide +kernel, by decide +kernel, by decide +kernel⟩
theorem test_witness_FaultEvents_taken : ((calmFault 9).warps.getD 0 {}).holds = [] ∧ ((calmFault 9).warps.getD 0 {}).blocked = false ∧
    (∃ p g, ((calmFault 9).warps.getD 0 {}).pending = [p] ∧ servedBy ((calmFault 9).warps.getD 0 {}) p.frag = some g ∧ p.ctr = some .ld ∧
      fatal (calmFault 9) ((calmFault 9).warps.getD 0 {}) (pendingRecord (calmFault 9) ((calmFault 9).warps.getD 0 {}) p (some g)) = false) ∧
    (∃ r, (calmFault 9).log.waiting = [r] ∧ detectedBefore (calmFault 9) r.time = false ∧ detectedBefore (calmFault 3) r.time = true) ∧
    (calmFault 9).log.en = true ∧ bridgeReachable (calmFault 9) = true ∧
    lockAsker askingLock 9 = some (0, 0, 0x20000, 0x10000) ∧ refillAsker askingLock 9 = none ∧ askingLock.ops = [] ∧ askingLock.copies = [] ∧
    warpOfTeam askingLock 0 0 = 0 :=
  ⟨by decide +kernel, by decide +kernel, ⟨_, _, rfl, rfl, rfl, by decide +kernel⟩, ⟨_, rfl, by decide +kernel, by decide +kernel⟩, by decide +kernel,
    by decide +kernel, by decide +kernel, by decide +kernel, rfl, rfl, by decide +kernel⟩

/-! Barriers, handles, copies, the array -/

/-- A barrier of two warps of the core that register 1 (5) numbers, open; the same once the warp has arrived, with the other, and with
nothing pending. -/
def meet (arrived : Nat) (marks : List (Nat × Nat)) : Barrier :=
  { id := 7, scope := 1, index := 5, teams := [0], expect := 2, arrived := arrived, marks := marks }
def meeting (x : Barrier) : State := { stage [(1, 5#32), (2, 1#32), (3, 6#32)] (fun l => { l with bCore := 6 }) id with barriers := [x] }
theorem test_witness_BarrierArrivals : Issuing (meeting (meet 0 [])) ∧ Inside [6, 1, 2] (meeting (meet 0 [])) ∧
    Claims.AtBarrier 1 1 (meet 0 []) (meeting (meet 0 [])) ∧ arrivedAt (meeting (meet 0 [])) (meet 0 []) = false ∧
    Claims.AtBarrier 1 1 (meet 1 [(0, 0)]) (meeting (meet 1 [(0, 0)])) ∧ arrivedAt (meeting (meet 1 [(0, 0)])) (meet 1 [(0, 0)]) = true ∧
    pendOut ((meet 0 []).pend + 1) = false ∧ pendOut ({ meet 0 [] with pend := 2 ^ 31 - 1 }.pend + 1) = true ∧
    declared (launchOf (meeting (meet 0 [])) (me (meeting (meet 0 [])))) 1 ≤ (scalarAt (me (meeting (meet 0 []))) (fr (meeting (meet 0 []))) 3).toNat :=
  ⟨issues _ (by decide +kernel), by unfold Inside Claims.AtBarrier; decide +kernel⟩

/-- A phase whose two warps have arrived. -/
theorem test_witness_BarrierPhases : (meeting (meet 2 [(0, 0), (0, 1)])).barriers.find? (fun y => y.id == 7) = some (meet 2 [(0, 0), (0, 1)]) ∧
    (meet 2 [(0, 0), (0, 1)]).arrived = (meet 2 [(0, 0), (0, 1)]).expect ∧
    comparesFirst (meeting (meet 2 [(0, 0), (0, 1)])) (meet 2 [(0, 0), (0, 1)]) = false ∧ flitLost (meeting (meet 2 [(0, 0), (0, 1)])) 7 = false := by
  decide +kernel

/-- Counters at the limit 5 and above it; WAITR's limits in register 1. -/
def counted (n : Nat) : State := stage [(1, 5#32)] id fun w => { w with cntTl := n }
theorem test_witness_CounterWaits : (me (counted 5)).cntTl ≤ (5#6).toNat ∧ ¬ (me (counted 6)).cntTl ≤ (5#6).toNat ∧ Inside [1] (counted 5) ∧
    scalarPoison (me (counted 5)) (fr (counted 5)) [1] = 0 ∧ bitsOf (scalarAt (me (counted 5)) (fr (counted 5)) 1).toNat 0 6 = 5 := by
  unfold Inside; decide +kernel

/-- Handle 3 of four; the offset in register 2 at the end of the scratchpad. -/
def handled (x : HState) : State := { stage [(1, 3#32), (2, 65408#32)] (fun l => { l with scratch := 65536, handles := 4 }) with
  handles := [{ team := 0, num := 3, state := x }] }
theorem test_witness_Handles : Inside [1, 2, 6] (handled .free) ∧ (launchOf (handled .free) (me (handled .free))).pair = false ∧
    scalarPoison (me (handled .free)) (fr (handled .free)) [1, 2] = 0 ∧
    (scalarAt (me (handled .free)) (fr (handled .free)) 2).toNat + ((0#6).toNat + 1) * 128 ≤ (declOf (handled .free) (me (handled .free))).scratch ∧
    holds (handled .free) (me (handled .free)) (.drained false) = true ∧ (handleOf (handled .free) 0 3 false).state = .free ∧
    (handleOf (handled .full) 0 3 false).state = .full ∧ (handleOf (handled .draining) 0 3 false).state = .draining ∧
    (handleOf (handled .corrupt) 0 3 false).state = .corrupt := by
  unfold Inside; decide +kernel

/-- A world with a page table whose one leaf maps virtual page 1 to frame 2, and an enabled device. -/
def tabled (s : State) : State :=
  { s with
    ownership := false
    stage2 := [(0, 2, 2), (0, 3, 3)]
    mem := (((s.mem.write 0x30000 (toBytes 8 0x30101) false).write 0x30100 (toBytes 8 0x30201) false).write 0x30200 (toBytes 8 0x30301) false).write
      0x30308 (toBytes 8 0x2000F) false
    worlds := s.worlds.set 0 { s.worlds.getD 0 {} with en := true, root := 0x30000 }
    vdevs := s.vdevs.set 0 { s.vdevs.getD 0 {} with en := true }
    pod := { s.pod with dies := 1 } }

/-- The walk of Table MEM's four levels finds the leaf (R54). -/
theorem test_walk : frontPage (tabled (stage [])) 0 0x10040 .write = some 0x20040 ∧ frontPage (tabled (stage [])) 0 0x20040 .write = none := by
  decide +kernel

/-- A job card in memory, and a copy of 128 bytes from the page to offset 256 of the scratchpad: asked for, queued, accepted. -/
def copying : State := tabled { stage [(4, 0x10000#32), (6, 256#32), (10, 128#32), (11, 1#32), (12, 1#32)] (fun l => { l with
    scratch := 65536, regions := [{ base := 0x10000, cls := 0, rights := 3, len := 4096 }] }) with
  mem := State.reset.mem.write 0x20000 (toBytes 8 0 ++ toBytes 8 0x10100 ++ toBytes 8 0x10200 ++ toBytes 4 64) false }
theorem test_witness_Copies : Issuing copying ∧ (me copying).cntCp < 64 ∧ copyCauses copying (copyReq copying 0 6 4 10) 10 = [] ∧
    copyCauses copying (copyReq copying 1 6 4 10) 10 = [] ∧ copyCauses copying (copyReq copying 2 6 4 10) 10 = [] ∧
    isRedundant copying (me copying) = false ∧ (firstCause (copyCauses copying (copyReq copying 0 4 6 10) 10)).isSome = true :=
  ⟨issues _ (by decide +kernel), by decide +kernel⟩

def queued : Copy := { id := 3, len := 128, src := .mem 0x10000, dst := .scratch 256 }
def taken : Copy := { queued with accepted := true, lines := [256] }
def carrying (c : Copy) : State := { copying with copies := [c], merges := [⟨4, 0, 0x10000, 128, 1, 0, 0x10000, 0x20000, [3], 0⟩] }
theorem test_witness_CopyEvents : (carrying queued).copies.find? (fun c => c.id == 3 && !c.accepted) = some queued ∧
    queuedBefore (carrying queued) queued = false ∧ gated (carrying queued) queued = false ∧ (∃ m, readSource (carrying queued) queued = .ok m) :=
  ⟨by decide +kernel, by decide +kernel, by decide +kernel, ok_of (by decide +kernel)⟩
theorem test_witness_CopyEvents_line : (carrying taken).copies.find? (fun c => c.id == 3 && c.accepted && c.lines.contains 256) = some taken ∧
    lineReady (carrying taken) taken 256 = true ∧ lineLost (carrying taken) 3 256 = false ∧ lineDeny (carrying taken) taken 256 = none ∧
    unreached (carrying queued) queued = none ∧ queued.hears (carrying queued) 0x20000 = true ∧
    gated (carrying taken) taken = false ∧ taken.words ≠ [] ∧ (carrying taken).mem.wf = true ∧ (teamById (carrying taken) 0).scrBase % 4 = 0 ∧
    (carrying { taken with lines := [] }).copies.find? (fun c => c.id == 3 && c.accepted && c.lines.isEmpty && c.owed.isEmpty) =
      some { taken with lines := [] } ∧
    (carrying { taken with lines := [] }).warps.length = 1 ∧ warpOfTeam (carrying taken) 0 0 = 0 ∧
    (∃ m, (carrying queued).merges.find? (fun m => m.id == 4) = some m ∧ m.full (carrying queued) = true) := by
  and_intros <;> first | decide +kernel | exact ⟨_, rfl, by decide +kernel⟩

/-- A redundant copy from the scratchpad to memory, whose gate has room. -/
def gatedCopy : State := { copying with
  tasks := copying.tasks.set 0 { taskAt copying 0 with body := .launch { (taskAt copying 0).launch with redundant := true } }
  copies := [{ id := 3, len := 128, src := .scratch 256, dst := .mem 0x10000 }] }
theorem test_witness_CopyEvents_gated : gated gatedCopy (gatedCopy.copies.getD 0 default) = true ∧ isRedundant gatedCopy (me gatedCopy) = true ∧
    gatedWait (gatedCopy.copies.getD 0 default) { gatedCopy with copies := [] } = none ∧
    (readSource gatedCopy (gatedCopy.copies.getD 0 default)).toOption.isSome = true ∧ unreached gatedCopy (gatedCopy.copies.getD 0 default) = none := by
  decide +kernel

/-- LAUNCH of a record of zeros is refused; JOB of the card is accepted; a task word of a free slot is over, one of a task in its slot is not. -/
theorem test_witness_DeviceTasks : Inside (6 :: regRun 4 2) copying ∧ scalarPoison (me copying) (fr copying) (regRun 4 2) = 0 ∧
    holds copying (me copying) (.drained true) = true ∧
    (deviceLaunch (releaseActs copying (me copying).core 4) 0x10000).2.getLsbD 31 = true ∧
    (deviceJob (releaseActs copying (me copying).core 4) 0x10000).2.getLsbD 31 = false ∧ copying.tasks.length = 512 ∧
    taskOver copying 1 = true ∧ taskOver copying 0 = false := by unfold Inside; decide +kernel

/-- A team that holds its core's array, alone and with its follower's; its queue at the limit and one below. -/
def tiled (pair : Bool) (n : Nat) : State := { stage [(2, 0#32), (6, 3#32)] (fun l => { l with
    accb := 65536, scratch := 65536, handles := 4, nMat := 1, pair := pair, slots := [{}, {}] }) with
  arrays := [{ queue := List.replicate n (default : TileOp), shadowKw := nativeKw {} }, { core := 1, follower := true, shadowKw := nativeKw {} }]
  handles := [{ team := 0, num := 3, state := .full }] }
theorem test_witness_TileQueue : Issuing (tiled false 7) ∧ (∃ x, arrayOf (tiled false 7) 0 = some x ∧ x.releasing = false ∧ x.queue.length = 7) ∧
    (∃ x, arrayOf (tiled false 8) 0 = some x ∧ 8 ≤ x.queue.length) ∧
    ((Claims.tileTable (tiled false 7) 2 32 6 6 0 0 0 0 0).map fun x => x.2.2.isEmpty) = [true, true, false, true, true, true, true, true, true] ∧
    ((Claims.tileTable (tiled true 7) 2 32 6 6 0 0 0 0 0).map fun x => x.2.2.isEmpty) = [true, true, true, true, true, true, true, true, true] ∧
    (teamOf (tiled false 7) (me (tiled false 7))).id = (me (tiled false 7)).team ∧ (handleOf (tiled false 7) 0 3 false).state = .full :=
  ⟨⟨by decide +kernel, by decide +kernel, by decide +kernel⟩, ⟨_, rfl, by decide +kernel⟩, ⟨_, rfl, by decide +kernel⟩, by decide +kernel, by decide +kernel,
    by decide +kernel, by decide +kernel⟩
/-- No claim yet: the array is free, or another team has it. -/
theorem test_witness_TileQueue_claims : arrayOf plainState 0 = none ∧ claimFree plainState (teamOf plainState (me plainState)) = true ∧
    claimFree { plainState with arrays := [{ team := 9 }] } (teamOf plainState (me plainState)) = false ∧
    arrayOf { plainState with arrays := [{ team := 9 }] } 0 = none := by decide +kernel

theorem test_witness_TileProducts : State.reset.mem.wf = true ∧ (accAddr 0 0) % 4 = 0 := by decide +kernel

/-- The oldest instruction of an array: an element product, a release, and a TBLD. -/
def rolling (k : TileKind) : State := { tiled false 0 with arrays := [{ queue := [{ (default : TileOp) with kind := k }] }] }
theorem test_witness_TileEvents : (∀ k ∈ [TileKind.mma 0 32 0 false true, .mmaB 0 32 0 false true, .zero 0 1 false, .store none 0 0 false, .release true],
      ∃ a, arrayAt (rolling k) 0 2 = some a ∧ arrayOf (rolling k) a.team = some a ∧ a.queue = [{ (default : TileOp) with kind := k }]) ∧
    (∃ a, arrayAt (rolling (.load (some 3) 0 0 false false)) 0 2 = some a ∧
      TileOp.isLoad { (default : TileOp) with kind := .load (some 3) 0 0 false false } = true) ∧
    TileOp.isPair { (default : TileOp) with kind := .mmaPair 0 32 0 false true } = true := by
  refine ⟨?_, ⟨_, rfl, by decide +kernel⟩, by decide +kernel⟩
  intro k _
  exact ⟨_, rfl, rfl, rfl⟩

/-- The partner of `pairUp`'s first warp waits; the first one stands at its XCHG of registers 8 and 9 with 12 and 13. -/
def pairOne : State := { pairUp with warps := pairUp.warps.modify 0 fun w => { w with xchg := none } }
theorem test_witness_Exchanges_completes : Issuing pairOne ∧ Inside (regRun 8 2 ++ regRun 12 2) pairOne ∧
    warpAt pairOne (me pairOne).core (me pairOne).slot = pairOne.cur.warp ∧ warpAt pairOne 1 0 = 1 ∧
    (pairOne.warps.getD 1 {}).core = 1 ∧ (pairOne.warps.getD 1 {}).slot = 0 ∧
    indexWhere (fun f => f.id == (fr pairOne).id) (me pairOne).frags = pairOne.cur.frag ∧
    xchgPartner pairOne (me pairOne) 0 = some 1 ∧ (1 : Nat) ≠ pairOne.cur.warp ∧
    (∃ y g, (pairOne.warps.getD 1 {}).xchg = some y ∧ fragById (pairOne.warps.getD 1 {}) y.frag = some g ∧
      xchgPartner pairOne (pairOne.warps.getD 1 {}) y.region = some pairOne.cur.warp ∧
      sentTo (me pairOne) (pairOne.warps.getD 1 {}).team = y.ordinal ∧ y.count = 2 ∧ y.snapshot.length = 2 ∧ y.dest + 2 ≤ 256) ∧
    (pairOne.warps.getD 1 {}).regs.length = 256 :=
  ⟨issues _ (by decide +kernel), by unfold Inside; decide +kernel, by decide +kernel, by decide +kernel, by decide +kernel, by decide +kernel,
    by decide +kernel, by decide +kernel, by decide +kernel, ⟨_, _, rfl, rfl, by decide +kernel⟩, by decide +kernel⟩

/-- A word whose page no TLB holds, and one whose page may be fetched; a core that pins a segment. -/
theorem test_witness_FetchesAndRefills_ahead : pinOf fetchable 0 = none ∧ (launchOf fetchable (me fetchable)).travelling = false ∧
    (let line := iLineBase (Claims.target none fetchable (0#14)).toNat + 64 * 0
     line < aperture ∧ iPresent fetchable 0 0 line = false ∧ (tlbFind fetchable 0 0 (line / 65536)).isSome = true ∧
       (fetchPage fetchable 0 0 line).toOption.isSome = true) ∧
    (let line := iLineBase (Claims.target none plainState (32#14)).toNat + 64 * 0
     iPresent plainState 0 0 line = false ∧ tlbFind plainState 0 0 (line / 65536) = none) ∧
    (launchOf { plainState with tasks := plainState.tasks.set 0 { bareTask with body := .launch { bareLaunch with travelling := true } } }
      (me plainState)).travelling = true ∧
    (pinOf { plainState with pins := [{ core := 0, task := 0, k := 0, j := 0, since := 0 }] } 0).isSome = true ∧
    (∃ e, fetchPage { fetchable with walks := [{ quad := quadOf 0, world := 0, page := 0, asked := [(0, 0x1000)] }] } 0 0 0x1000 = .ok e) :=
  ⟨by decide +kernel, by decide +kernel, by decide +kernel, by decide +kernel, by decide +kernel, by decide +kernel, ok_of (by decide +kernel)⟩

/-- A RET that waits for a poisoned entry. -/
theorem test_witness_FetchesAndRefills_poison : let w : Warp := { bareWarp barePc with
      frags := [{ pc := barePc, wait := .linkRefill 4 }], link := [{ ret := 0, sp := 0, poisonLo := true, poisonHi := false }] }
    warpAt { plainState with warps := [w] } 0 0 < 1 ∧ refilling w = some ({ pc := barePc, wait := .linkRefill 4 }, 4) ∧
    (w.link.headD {}).poisonLo = true := by decide +kernel
/-- A warp whose RET waits for the one entry that it has spilled, at virtual address 0x10100: the page is this package's, with sound words or
poisoned ones; and the home of a page in another package, toward which no link is up. -/
def refiller : Warp := { bareWarp barePc with
  frags := [{ pc := barePc, wait := .linkRefill 4 }], link := [{ ret := 0x1040, sp := 0, poisonLo := false, poisonHi := false }], spill := 0x10110 }
theorem test_witness_FetchesAndRefills_block : let s : State := { tabled (stage []) with warps := [refiller] }
    refilling refiller = some ({ pc := barePc, wait := .linkRefill 4 }, 4) ∧ refillComes s refiller 4 = true ∧ refillBad s refiller = false ∧
    spillPlace s refiller 0x10100 = some 0x20100 ∧
    refillBad { s with mem := { s.mem with poison := [0x20100] } } refiller = true ∧
    refillComes { s with pod := { s.pod with podIdx := 1 } } refiller 4 = false := by decide +kernel

/-- The branch at the first instruction with no lane in EXEC. -/
theorem test_witness_Branches_none : Inside [1] idle ∧ (fr idle).exec = 0 ∧ Issuing idle := ⟨by unfold Inside; decide +kernel, by decide +kernel, issues _ (by decide +kernel)⟩

/-- A stack with 32 entries on the core, its spill page within reach or not; entries all spilled; a cached entry without code. -/
def stacked (n : Nat) (spill : BitVec 64) : State := { stage [] id (fun w => { w with
    link := List.replicate 40 { ret := 0x1040, sp := 0, poisonLo := false, poisonHi := false }, onCore := n, spill := spill }) with
  entries := [{ entry0 with code := [none, none, none, none] }], entryCache := [(0, 0)] }
theorem test_witness_Calls_spills : (∃ x, pageFor (stacked 32 0x10100) 0 0 (me (stacked 32 0x10100)).spill.toNat = .ok x) ∧
    (me (stacked 32 0x10100)).link.length < 4096 ∧ 32 ≤ (me (stacked 32 0x10100)).onCore ∧
    (pageFor (stacked 32 0x90100) 0 0 (me (stacked 32 0x90100)).spill.toNat).toOption.isSome = false ∧
    (let s := stacked 0 0x10100
     (pageFor s 0 0 ((me s).spill - BitVec.ofNat 64 (16 * min 8 (me s).link.length)).toNat).toOption.isSome = true ∧ (me s).onCore = 0 ∧ (me s).link ≠ []) ∧
    (let s := stacked 0 0x90100
     (pageFor s 0 0 ((me s).spill - BitVec.ofNat 64 (16 * min 8 (me s).link.length)).toNat).toOption.isSome = false) ∧
    entryCached (stacked 0 0) 0 0 = true ∧ entryCode (stacked 0 0) 0 0 (roleCode (roleOf (me (stacked 0 0)) (fr (stacked 0 0)))) = none ∧
    scalarPoison (me calling) (fr calling) [1] = 0 ∧ Inside [1] calling :=
  ⟨ok_of (by decide +kernel), by unfold Inside; decide +kernel⟩

/-- The last warp of a phase arrives; an abandoned barrier. -/
theorem test_witness_BarrierArrivals_last : Claims.AtBarrier 1 1 (meet 1 [(0, 1)]) (meeting (meet 1 [(0, 1)])) ∧
    arrivedAt (meeting (meet 1 [(0, 1)])) (meet 1 [(0, 1)]) = false ∧
    (meeting (meet 1 [(0, 1)])).barriers.find? (fun y => y.id == (meet 1 [(0, 1)]).id) = some (meet 1 [(0, 1)]) ∧
    (meet 1 [(0, 1)]).arrived + 1 = (meet 1 [(0, 1)]).expect ∧ (meet 1 [(0, 1)]).pend = 0 ∧
    isRedundant (meeting (meet 1 [(0, 1)])) (me (meeting (meet 1 [(0, 1)]))) = false ∧ flitLost (meeting (meet 1 [(0, 1)])) 7 = false ∧
    (me (meeting (meet 1 [(0, 1)]))).frags = [fr (meeting (meet 1 [(0, 1)]))] ∧ (fr (meeting (meet 1 [(0, 1)]))).held = false ∧
    (me (meeting (meet 1 [(0, 1)]))).halted = false ∧ (meet 1 [(0, 1)]).scope ≠ 5 ∧
    (let x := { meet 0 [] with abandoned := true }
     let s := meeting x
     barrierAt s 1 (scalarAt (me s) (fr s) 1).toNat = some x ∧ scalarPoison (me s) (fr s) [2, 1] = 0 ∧ scalarPoison (me s) (fr s) [1] = 0 ∧
       (scalarAt (me s) (fr s) 1).toNat < declared (launchOf s (me s)) 1 ∧ holds s (me s) (.drained false) = true) :=
  ⟨by unfold Claims.AtBarrier; decide +kernel, by decide +kernel⟩

/-- A pair launch whose handle 3 is in a state on the leader's side and in one on the follower's; handle 4 and a ring past the four. -/
def paired (x y : HState) : State := { stage [(1, 3#32), (2, 65408#32), (3, 4#32), (7, 0x42#32), (8, 0xC3#32)] (fun l => { l with
    scratch := 65536, handles := 4, pair := true, nMat := 1, slots := [{}, {}] }) with
  handles := [{ team := 0, num := 3, state := x }, { team := 0, num := 3, follower := true, state := y }]
  arrays := [{ shadowKw := nativeKw {} }, { core := 1, follower := true, shadowKw := nativeKw {} }] }
theorem test_witness_Handles_pair : Inside [1, 2, 3, 6, 7, 8] (paired .full .full) ∧ (launchOf (paired .full .full) (me (paired .full .full))).pair = true ∧
    (∀ side ∈ [false, true], (handleOf (paired .full .full) 0 3 side).state = .full) ∧
    (∀ side ∈ [false, true], (handleOf (paired .free .free) 0 3 side).state = .free) ∧
    (∃ side ∈ [false, true], (handleOf (paired .draining .full) 0 3 side).state = .draining) ∧
    (∃ side ∈ [false, true], (handleOf (paired .full .free) 0 3 side).state ≠ .full) ∧
    (∃ side ∈ [false, true], (handleOf (paired .full .free) 0 3 side).state ≠ .free) ∧
    (launchOf (paired .full .full) (me (paired .full .full))).handles ≤ (scalarAt (me (paired .full .full)) (fr (paired .full .full)) 3).toNat ∧
    (ringOf (paired .full .full) 0x42#32).ok = true ∧ (ringOf (paired .full .full) 0xC3#32).ok = false ∧
    (launchOf (handled .free) (me (handled .free))).scratch < 65408 + ((1#6).toNat + 1) * 128 ∧ (fr (handled .free)).exec ≠ 0 := by
  unfold Inside; decide +kernel
/-- The ring of handles 2 and 3 at its first and at its last handle. -/
theorem test_witness_Handles_rings : (let v := 0x42#32; bitsOf v.toNat 12 6 + 1 < bitsOf v.toNat 6 6 + 1) ∧
    (let v := 0x1042#32; bitsOf v.toNat 12 6 + 1 = bitsOf v.toNat 6 6 + 1) := by decide

theorem test_witness_TileQueue_handles : Issuing (paired .full .full) ∧ (teamOf (paired .full .full) (me (paired .full .full))).pairBroken = false ∧
    (teamOf (paired .full .full) (me (paired .full .full))).id = (me (paired .full .full)).team ∧ (me (paired .full .full)).cntTl < 16 ∧
    (∃ x, arrayOf (paired .full .full) 0 = some x ∧ x.releasing = false ∧ x.queue.length < 8) ∧
    (namedHandle (paired .full .full) (scalarAt (me (paired .full .full)) (fr (paired .full .full)) 1) false).causes = [] ∧
    (namedHandle (paired .full .full) 0x1042#32 true).causes = [] ∧ (namedHandle (paired .full .full) 0x1042#32 true).h = 3 ∧
    (ringOf (paired .full .full) 0x1042#32).phase = (handleOf (paired .full .full) 0 3 false).phase ∧
    (tileSlot (paired .full .full) 0).fmt ≠ 7 ∧ scalarPoison (me (paired .full .full)) (fr (paired .full .full)) [1, 2] = 0 ∧
    (let s := { paired .free .free with handles := [{ team := 0, num := 3, state := .free, size := 63 }] }
     (handleOf s 0 3 false).state = .free ∧ tileBytes (launchOf s (me s)) ≤ ((handleOf s 0 3 false).size + 1) * 128) :=
  ⟨issues _ (by decide +kernel), by decide +kernel, by decide +kernel, by decide +kernel, ⟨_, rfl, by decide +kernel⟩, by decide +kernel⟩

theorem test_witness_CounterWaits_none : (fr idle).exec = 0 ∧ Issuing idle := ⟨by decide +kernel, issues _ (by decide +kernel)⟩

/-- COPY, COPYM and COPYS of the mapped page to the scratchpad. -/
theorem test_witness_Copies_sound : ∀ k : Nat, k < 3 → Claims.SoundFill copying k 6 4 10 (copyReq copying k 6 4 10) := by
  intro k h
  rcases k with _ | _ | _ | k
  all_goals first | omega | exact ⟨by decide +kernel, by decide +kernel, by unfold Inside; decide +kernel, by decide +kernel, by decide +kernel,
    by decide +kernel, by decide +kernel, by decide +kernel, .inr (.inr ⟨0, by decide +kernel⟩)⟩
theorem test_witness_Copies_full : let s := { copying with copies := List.replicate 64 queued }
    64 ≤ (s.copies.filter fun c => c.core == (me s).core).length := by
  decide +kernel

theorem test_witness_CopyEvents_merged : let c := { queued with merged := true }
    (carrying c).copies.find? (fun c => c.id == 3 && !c.accepted) = some c ∧ queuedBefore (carrying c) c = false ∧
    copyHeld (carrying c) c c.src false (c.words.map (·.2.1)) .read = false ∧ c.after = [] ∧ (∀ x ∈ (carrying c).l1, x.dirty = 0) ∧
    c.src = .mem 0x10000 ∧ 0x10000 < aperture ∧ gated (carrying c) c = false ∧ (readSource (carrying c) c).toOption.isSome = true := by decide +kernel

/-- A record of one team of one vector warp of 8 registers, and a kernel that asks for them. -/
def launching : State := { tabled { stage [(4, 0x11000#32)] with
    mem := State.reset.mem.write 0x21000 (toBytes 4 0 ++ toBytes 4 0x10001 ++ toBytes 4 0x10001 ++ toBytes 4 8) false } with
  entries := [{ entry0 with isFn := false, decl := { regs := 8 } }] }
theorem test_witness_DeviceTasks_takes : Claims.TakesTasks (evictPrivate (releaseActs launching 0 4) 0) ∧ Claims.TakesTasks (evictPrivate (releaseActs copying 0 4) 0) :=
  ⟨⟨by decide +kernel, by decide +kernel, by decide +kernel, ⟨1, by decide +kernel⟩, by decide +kernel⟩,
    ⟨by decide +kernel, by decide +kernel, by decide +kernel, ⟨1, by decide +kernel⟩, by decide +kernel⟩⟩
theorem test_witness_DeviceTasks_launch : let r := evictPrivate (releaseActs launching (me launching).core 4) 0
    let asker := deviceAsker r
    (taskAt launching (teamOf launching (me launching)).task).state ≠ .free ∧ (fr launching).exec ≠ 0 ∧
    ((deviceBytes r asker (scalarPair (me launching) (fr launching) 4).toNat 512).map fun bs =>
      (((resolve r bs (asker.adopt (launchAt bs))).toOption.map fun x => (x.jobs,
        bodyStatuses r (grantsOf r asker.world) x.record (asker.adopt (launchAt x.record)) asker.world asker.vdev)),
       fixedStatuses r (grantsOf r asker.world) bs (asker.adopt (launchAt bs)) asker.world asker.vdev)) = some (some ([], []), []) := by
  decide +kernel
theorem test_witness_DeviceTasks_job : let r := evictPrivate (releaseActs copying (me copying).core 4) 0
    ((deviceBytes r (deviceAsker r) (scalarPair (me copying) (fr copying) 4).toNat 64).map fun bs => (cardZeroBad bs, cardBad (cardAt bs),
      inOwnRegion r (cardAt bs).dst.toNat (cardAt bs).len 2, inOwnRegion r (cardAt bs).src.toNat (cardAt bs).len 1)) =
      some (false, false, true, true) := by decide +kernel
theorem test_witness_DeviceTasks_waits : Issuing idle ∧ (fr idle).exec = 0 ∧ (taskAt idle (teamOf idle (me idle)).task).state ≠ .free ∧
    (let s := { copying with tasks := copying.tasks.set 0 { bareTask with body := .launch { bareLaunch with redundant := true } } }
     mustCompare s = true ∧ holds s (me s) (.drained true) = true) := ⟨issues _ (by decide +kernel), by decide +kernel⟩

/-- Tile instructions of a pair at the head of its queue, and a travelling launch that may read its map. -/
theorem test_witness_TileEvents_pair : (∀ k ∈ [TileKind.mmaPair 0 32 0 false true, .zero 0 1 true, .readAcc 8 0 0 true 1 0, .store (some 3) 0 0 true],
      arrayAt (rolling k) 0 2 = some { queue := [{ (default : TileOp) with kind := k }] } ∧
      ((rolling k).warps.getD 0 {}).halted = false ∧ ((rolling k).warps.getD 0 {}).regs.length = 256) ∧
    (handleOf (rolling (.store (some 3) 0 0 true)) 0 3 true).state = .free := by decide +kernel
/-- A travelling launch whose map, on the mapped page, has one segment of 16 words at 0x10000, where register 4 points; register 6 does not. -/
def mapped : State := { stage [(4, 0x10000#32), (6, 0x20000#32)] (fun l => { l with travelling := true, travMap := 0x10000 }) with
  mem := (State.reset.mem.write 0x20000 (toBytes 4 1) false).write 0x20040 (toBytes 8 0x10000 ++ toBytes 4 16) false }
theorem test_witness_SystemAndDebug_segment : (launchOf mapped (me mapped)).travelling = true ∧ (fr mapped).exec ≠ 0 ∧
    scalarPoison (me mapped) (fr mapped) (regRun 4 2) = 0 ∧ ((readMap mapped (me mapped)).toOption.map fun x =>
      (x.2.segmentOf (scalarPair (me mapped) (fr mapped) 4).toNat, x.2.segmentOf (scalarPair (me mapped) (fr mapped) 6).toNat)) = some (some 0, none) ∧
    Issuing mapped ∧ Inside [8, 9, 4, 5] mapped :=
  ⟨by decide +kernel, by decide +kernel, by decide +kernel, by decide +kernel, issues _ (by decide +kernel), by unfold Inside; decide +kernel⟩

/-! System instructions, queues, admission, the security core, the host -/

/-- A device that may be debugged, and a fragment that a breakpoint stopped, logged already. -/
def stopped : State := { stage [] id (fun w => { w with frags := [{ pc := barePc, wait := .stopped true }] }) with dbgen := 1 }
theorem test_witness_SystemAndDebug : Issuing plainState ∧ (fr plainState).exec ≠ 0 ∧ Inside [6, 7, 4, 5] plainState ∧ (fr idle).exec = 0 ∧
    (launchOf plainState (me plainState)).travelling = false ∧ scalarPoison (me plainState) (fr plainState) (regRun 4 2) = 0 ∧
    plainState.dbgen.getLsbD (taskOf plainState (me plainState)).vdev = false ∧ stopped.dbgen.getLsbD (taskOf stopped (me stopped)).vdev = true ∧
    (∀ w ∈ stopped.warps, ∀ f ∈ w.frags, f.wait ≠ .stopped false) ∧ (∃ w ∈ stopped.warps, w.core = 0 ∧ w.slot = 0) :=
  ⟨issuing_plain, by decide +kernel, by unfold Inside; decide +kernel, by decide +kernel, by decide +kernel, by decide +kernel, by decide +kernel,
    by decide +kernel, by decide +kernel, by decide +kernel⟩

/-- A queue of 16 packets at the mapped page whose first packet is of a kind, its lap word 1, its words at 0x10400. -/
def dwords (xs : List Nat) : List Byte := xs.flatMap (toBytes 8)
def holding (a : Nat) (xs : List Nat) : State := { stage [] with mem := State.reset.mem.write a (dwords xs) false }
def packet (kind lap : Nat) (tries : Nat := 64) : State :=
  let s := tabled (holding 0x20000 [kind + 256, if kind = 0 ∨ kind = 5 then 0 else 0x10400, 0, 0, 0, 0, 0, lap])
  { s with queues := s.queues.set 0 { qbase := 0x10000, en := true, kick := 1, waiting := .lap tries } }
/-- What the queue reads: the kind of a packet. -/
def kindRead (s : State) : Option Nat := match readPacket s 0 with
  | .packet p _ => some p.kind
  | _ => none
/-- The queue with nothing to wait for, whose turn it is. -/
def served (kind : Nat) : State := { packet kind 1 with queues := (packet kind 1).queues.set 0 { qbase := 0x10000, en := true, kick := 1 } }
theorem test_witness_QueuePackets_turn : (∀ k ∈ [0, 1, 2, 3, 4, 5], cfeTurn (served k) = some 0 ∧ kindRead (served k) = some k) ∧
    queueClear (served 5) 0 = true ∧ queueClear (served 4) 0 = true ∧ frontPage (served 4) 0 0x10400 .write = some 0x20400 := by decide +kernel
theorem test_witness_QueuePackets : (packet 0 1).queues.length = 256 ∧ (∀ k ∈ [0, 1, 2, 3, 4, 5], kindRead (packet k 1) = some k) ∧
    readPacket (packet 0 2) 0 = .unmatched ∧ (Claims.queueAt (packet 0 2) 0).waiting = .lap 64 ∧
    readPacket (packet 0 2 3) 0 = .unmatched ∧ (Claims.queueAt (packet 0 2 3) 0).waiting = .lap 3 ∧ queueClear (packet 4 1) 0 = true ∧
    queueClear { packet 4 1 with tasks := (packet 4 1).tasks.set 3 { state := .running, origin := { queue := some 0 } } } 0 = false ∧
    frontPage (packet 4 1) 0 0x10400 .write = some 0x20400 ∧ inBlock 0x20400 = false ∧ (packet 4 1).mem.wf = true ∧ 0 < msixSize 0 ∧
    (beforeStep { packet 4 1 with inputs := [.mask 0 256] }).inputs.head? = some (.mask 0 256) ∧ 256 < msixSize 0 := by
  decide +kernel
/-- An admission ring at the mapped page: its slot 0 holds a request of lap 1 (an image of 64 zero bytes), or none; a ring nowhere. -/
def ringed (ring lap : Nat) : State :=
  let s := tabled (holding 0x20040 [0x10000, 64, 0, 0x12000, 0, 0, 0, lap])
  { s with worlds := s.worlds.set 0 { s.worlds.getD 0 {} with aring := BitVec.ofNat 64 ring } }
def slotBytes : List Byte := (frontRead (ringed 0x10000 1) 0 0x10040 64).getD []
def imageBytes : List Byte := (frontRead (ringed 0x10000 1) 0 0x10000 64).getD []
theorem test_witness_AdmissionRequests : aduSlot (ringed 0x90000 1) 0 = .unread ∧ aduSlot (ringed 0x10000 0) 0 = .waiting false ∧
    aduSlot (ringed 0x10000 1) 0 = .valid 0 slotBytes ∧ frontPage (ringed 0x10000 1) 0 0x10004 .write = some 0x20004 := by decide +kernel
theorem test_witness_AdmissionRequests_taken : (dwordIn slotBytes 0x18).toNat % 32 = 0 ∧
    (frontPage (ringed 0x10000 1) 0 (dwordIn slotBytes 0x18).toNat .write).isSome = true ∧ field slotBytes 8 0 32 = 64 ∧
    frontRead (ringed 0x10000 1) 0 0x10000 64 = some imageBytes ∧ malformedCode (ringed 0x10000 1) 0 0 slotBytes (some imageBytes) = none ∧
    (ringed 0x10000 1).seals = [] ∧ malformedCode (ringed 0x10000 1) 0 0 (slotBytes.set 12 2) (some imageBytes) = some 1 := by decide +kernel
/-- A job whose image is no Labry file. -/
def badJob : AduJob := { world := 0, kind := 0, addr := 0x10000, len := 64, status := 0x12000, image := imageBytes }
theorem test_witness_AdmissionRequests_rejected : aduServes { ringed 0x10000 1 with adu := [badJob] } = true ∧
    (∃ r, checkRequest { ringed 0x10000 1 with adu := [badJob] } badJob = .error r) := by
  have h : (checkRequest { ringed 0x10000 1 with adu := [badJob] } badJob).toOption.isSome = false := by decide +kernel
  refine ⟨by decide +kernel, ?_⟩
  cases k : checkRequest { ringed 0x10000 1 with adu := [badJob] } badJob with
  | error r => exact ⟨r, rfl⟩
  | ok x => rw [k] at h; cases h

/-- Commands of the mailbox: each of the five operations, with a clean page for MAP2 and a mapped one for UNMAP2. -/
def boxed (op world page : Nat) : State :=
  let s := tabled (stage [])
  { s with
    secUp := true, owners := [{ page := 5, owner := 0, sealed := false, clean := true }]
    tasks := State.reset.tasks
    worlds := s.worlds.set 1 { s.worlds.getD 1 {} with en := true }
    box := { s.box with op := BitVec.ofNat 8 op, world := BitVec.ofNat 8 world, count := 1, addr := BitVec.ofNat 64 (page * 65536), busy := true } }
theorem test_witness_MailboxCommands : Claims.Commanded 1 (boxed 1 2 0) ∧ Claims.Commanded 1 (boxed 1 0 0) ∧ Claims.Commanded 2 (boxed 2 0 9) ∧
    Claims.Commanded 3 (boxed 3 0 2) ∧ Claims.Commanded 4 (boxed 4 0 2) ∧ Claims.Commanded 5 (boxed 5 1 0) ∧ (boxed 5 1 0).condemned = [] ∧
    accessesDone (boxed 3 0 2) 0 (boxed 3 0 2).nextId = true := by unfold Claims.Commanded; decide +kernel

/-- A frame that waits for the Plough; ownership mode with the security core running. -/
theorem test_witness_SecurityEvents : (∃ s : State, s.scrub.find? (fun q => pageDie q == 0) = some 2 ∧ 0 ∉ s.ploughDown ∧ 2 ∉ s.retiredPages ∧
    s.mem.wf = true) ∧ ∃ s : State, s.ownership = true ∧ s.secUp = true ∧ s.worlds.length = 64 :=
  ⟨⟨{ tabled (stage []) with scrub := [2], ploughDown := [], retiredPages := [] }, by decide +kernel, by decide +kernel, by decide +kernel, by decide +kernel⟩,
    ⟨{ State.reset with secUp := true }, by decide +kernel, rfl, by decide +kernel⟩⟩

/-- A package that is no bridge, the fourth of its group; a die that serves and one that does not. -/
theorem test_witness_HostAccesses_member : let p : Pod := { valid := true, podIdx := 3, bridgeIdx := 0, dies := 1 }
    p.bridge = false ∧ p.bridgeIdx + 3 = p.podIdx ∧ serves { State.reset with pod := p } (2 * 0) = true ∧
    serves { State.reset with pod := p } (2 * 1) = false := by decide +kernel
/-- A bridge package of one: itself the first member; a world that the device of function 0 reaches, byte by byte and as an aligned word. -/
def bridged : State := { tabled (stage []) with pod := { (tabled (stage [])).pod with bridge := true, valid := true, bridgeIdx := 0, podIdx := 0 } }
theorem test_witness_HostAccesses : bridged.vdevs.length = 64 ∧ isMember bridged 0 = true ∧ isMember bridged 3 = false ∧
    (bridged.vdevs.getD 0 {}).en = true ∧ (bridged.worlds.getD 0 {}).en = true ∧ (bridged.worlds.getD 9 {}).en = false ∧
    mayReach bridged 0 0 = true ∧ mayReach bridged 0 9 = false ∧
    bytePlaces bridged 0 0x10040 1 .write = some [0x20040] ∧ bytePlaces bridged 0 0x10040 4 .write = some [0x20040, 0x20041, 0x20042, 0x20043] ∧
    (homeMem bridged 0x20040).readBad 0x20040 4 = false ∧ inBlock 0x20040 = false ∧ bridged.mem.wf = true ∧
    hostHeld bridged [0x20040] = false ∧ hostHeld bridged [0x20040, 0x20041, 0x20042, 0x20043] = false := by decide +kernel
/-- The same bytes as homes of another package, toward which no link is up. -/
theorem test_witness_HostAccesses_held : let s : State := { bridged with pod := { bridged.pod with podIdx := 1 } }
    s.pod.bridge = true ∧ mayReach s 0 0 = true ∧ bytePlaces s 0 0x10040 1 .read = some [0x20040] ∧ hostHeld s [0x20040] = true := by decide +kernel
/-- A condemned world that nothing holds any more; a task and an enabled device of a virtual function, in an enabled world. -/
theorem test_witness_HostAccesses_lost : condemnedWorld { State.reset with secUp := true, condemned := [5] } = some 5 ∧
    State.reset.box.own = none ∧ State.reset.box.busy = false ∧
    (let s : State := { bridged with vdevs := bridged.vdevs.set 1 { en := true, world := 0 }, worlds := bridged.worlds, tasks := bridged.tasks.set 0 { taskAt bridged 0 with vdev := 1 } }
     (s.vdevs.getD 1 {}).en = true ∧ (s.worlds.getD 0 {}).en = true ∧ (taskAt s 0).vdev ≠ 0 ∧ (taskAt s 0).state = .running) := by decide +kernel
/-- A member that is not this package. -/
theorem test_witness_HostAccesses_far : isMember { bridged with pod := { bridged.pod with route := bridged.pod.route.set 2 1 } } 2 = true ∧
    2 ≠ bridged.pod.podIdx := by decide +kernel

/-! Management, resets, errors, work, travel, encodings -/

/-- The session held by port 0. -/
def inSession : State := { State.reset with session := { State.reset.session with held := true, port := 0, tag := 7 } }
theorem test_witness_ManagementCommands : State.reset.session.held = false ∧ inSession.session.held = true ∧ inSession.session.port = 0 ∧
    manages inSession = true ∧ inSession.life.power.length = 16 ∧ inSession.life.heat.length = 16 := by decide +kernel

/-- Two units with staged images, one of them moved and the other to go, forward and back. -/
def changing (back : Bool) (left : List FwUnit) : State := { inSession with
  fw := [(.training, { staged := some (1, 2) }), (.frontEnd, { staged := some (3, 4), moved := true })]
  activation := some { port := 0, back := back, left := left } }
theorem test_witness_FirmwareMoves : holdsSession inSession 0 = true ∧ holdsSession State.reset 0 = false ∧
    (∃ i, stageCode inSession 0 i ≠ 0) ∧
    (∃ (s : State), manages s = true ∧ holdsSession s 0 = true ∧ activationPending s = false ∧ stagedUnits s ≠ []) ∧
    (∃ a, (changing false [.training, .frontEnd]).activation = some a ∧ FwUnit.training ∈ a.left ∧ a.left.filter (fun x => x != .training) ≠ []) ∧
    (∃ a, (changing false [.training]).activation = some a ∧ a.back = false ∧ a.left.filter (fun x => x != .training) = []) ∧
    (∃ a, (changing true [.training]).activation = some a ∧ a.back = true) ∧ (changing true [.training]).fw.any (fun x => x.1 == .training) = true := by
  refine ⟨by decide +kernel, by decide +kernel, ⟨⟨none, 0, 0, [], 0⟩, by decide +kernel⟩, ⟨{ changing false [] with activation := none }, by decide +kernel,
    by decide +kernel, by decide +kernel, by decide +kernel⟩, ⟨_, rfl, by decide +kernel, by decide +kernel⟩, ⟨_, rfl, rfl, by decide +kernel⟩, ⟨_, rfl, rfl⟩,
    by decide +kernel⟩
/-- An image whose digest is its body's stages once its signature verifies, which is a free value of the model (log entry 18). -/
def goodImage : FwImage := { target := some .training, svn := 0, digest := sha384 [], body := [], signature := 5 }
theorem test_witness_FirmwareMoves_staged (h : Config.fwSigned (fwNumber .training) 0 (sha384 []) 5 = true) :
    stageCode inSession 0 goodImage = 0 := by
  have a : holdsSession inSession 0 = true := by decide +kernel
  have b : (fwOf inSession .training).fused = 0 := by decide +kernel
  have c : activationPending inSession = false := by decide +kernel
  have d : Config.fwSigned (fwNumber .training) 0#32 (sha384 []) 5#768 = true := h
  simp [stageCode, goodImage, a, b, c, d]

/-- A request of SPDM 1.3, and the responder's states. -/
def request : SpdmReq := { version := 0x13, wellFormed := true, secured := false, slot := 1, index := 2, offset := 0, length := 64, nonce := 5, algs := spdmAlgs, payload := [] }
def talking (p : SpdmPhase) (keyed session resynch : Bool) : State :=
  { tabled (stage []) with secUp := true, spdm := { phase := p, keyed := keyed, session := session, resynch := resynch } }
theorem answering (p : SpdmPhase) (k z : Bool) : Claims.Answers request (talking p k z false) :=
  ⟨by cases p <;> cases k <;> cases z <;> decide +kernel, rfl, rfl, rfl, rfl, fun h => by cases h⟩
theorem test_witness_SpdmResponses : Claims.Answers request (talking .version false false false) ∧
    Claims.Answers request (talking .algorithms true true false) ∧ responds (talking .start false false true) = true ∧
    request.slot ≤ 1 ∧ (∃ bs, measuredBytes (talking .algorithms true true false) 2 = some bs) :=
  ⟨answering _ _ _, answering _ _ _, by decide +kernel, by decide +kernel, ⟨_, rfl⟩⟩

/-- A link of a member; a core that is present; an event site of each class of the statement. -/
theorem test_witness_Resets : State.reset.deadlinePast = false ∧ 3 ∉ State.reset.diesOut ∧ State.reset.pod.full = false ∧
    (look State.reset.cfg.core 5 {}).present = true ∧
    (∃ s : State, s.deadlinePast = false ∧ s.pod.valid = true ∧ (s.pod.route.getD 2 0).getLsbD 1 = true ∧ (s.pod.route.getD 3 0).getLsbD 1 = false) ∧
    { State.reset with deadlinePast := true }.deadlinePast = true :=
  ⟨by decide +kernel, by decide +kernel, by decide +kernel, by decide +kernel,
    ⟨{ State.reset with pod := { State.reset.pod with valid := true, route := State.reset.pod.route.set 2 2 } }, by decide +kernel, rfl, by decide +kernel,
      by decide +kernel⟩, rfl⟩

def errorAt (cls : Nat) : ErrorReport := ⟨⟨cls, 0, 0, 0⟩, false, 0x20000, 4, false, 0, 0, 0, 0, 0, false⟩
theorem test_witness_ErrorEvents : warpAt plainState 0 0 < plainState.warps.length ∧ (plainState.warps.getD 0 {}).halted = false ∧
    (plainState.warps.getD 0 {}).ended = false ∧ (errorAt 10).site.structClass ∈ [4, 5, 6, 10] ∧ (errorAt 0).site.structClass = 0 ∧ (errorAt 0).addr % 4 = 0 ∧ (errorAt 0).write = false ∧
    { errorAt 0 with write := true }.write = true ∧
    inFlight inAir (.request 0 5) = true ∧
    performing (rolling (.mma 0 32 0 false true)) ((rolling (.mma 0 32 0 false true)).arrays.getD 0 {}) = true ∧ portJoined (0, 24) = true ∧
    (LinkId.serac 15 ∉ inAir.retraining) ∧ LinkId.diePort 0 1 ∈ { inAir with retraining := [.diePort 0 1] }.retraining := by decide +kernel

/-- A launch of one team that has ended, a launch that waits, and a FILL of one word to the mapped page. -/
def working (k : Task) : State := { tabled (stage []) with tasks := (stage []).tasks.set 3 k, teams := [], warps := [] }
def oneTeam : Launch := { bareLaunch with regs := 8 }
def fillCard : JobCard := { kind := 1, dst := 0x10040, src := 5, len := 4 }
theorem test_witness_WorkEvents_ends : (working {}).tasks.length = 512 ∧
    (∃ l, (taskAt (working { state := .running, body := .launch oneTeam, ended := 1 }) 3).body = .launch l ∧ 1 = l.grid) ∧
    (taskAt (working { state := .running, body := .launch oneTeam, ended := 1 }) 3).state = .running ∧
    (∃ u, jobMoves 3 fillCard (working { state := .ready, body := .job fillCard }) (jobPieces fillCard)
      (working { state := .ready, body := .job fillCard }) = .ok u) ∧
    jobSpot (working { state := .ready, body := .job fillCard }) 0 fillCard.dst.toNat .write = .ok 0x20040 :=
  ⟨by decide +kernel, ⟨_, rfl, by decide +kernel⟩, by decide +kernel, ok_of (by decide +kernel), rfl⟩
def waiting : State := working { state := .ready, body := .launch oneTeam }
theorem test_witness_WorkEvents_starts : (taskAt waiting 3).launch.redundant = false ∧ waiting.teams = [] ∧
    (placeTeam waiting 3 0 (fun c => dieOf c == 0) (fun c => c == 5) false []).isSome = true := by decide +kernel
/-- A resident team with one granule in the middle of core 5's scratchpad, and a waiting launch that needs the other 127: R292 finds the need free. -/
def split : State :=
  let s := { waiting with teams := [{ id := 0, task := 4, core := 5, scrBase := 8192 }], nextId := 1 }
  { s with
    tasks := (s.tasks.set 3 { state := .ready, body := .launch { oneTeam with scratch := 127 * 4096 } }).set 4
      { state := .running, body := .launch { oneTeam with scratch := 4096 } }
    mem := s.mem.write (scrAddr 5 8200) [7#8] false }
theorem test_scattered_room_is_packed : runsFree split { oneTeam with scratch := 127 * 4096 } 5 = false ∧ eligible split (taskAt split 3) 5 = true ∧
    ((packCores split 4).teams.map (·.scrBase), (packCores split 4).mem.get (scrAddr 5 8)) = ([0], 7#8) ∧
    (placeTeam split 3 0 (fun _ => true) (fun c => c == 5) false []).map (fun t => t.teams.map (·.scrBase)) = some [0, 4096] := by decide +kernel

/-- The team of `waiting` in a range of die 0, which serves no more; die 1 has room for it. -/
def moving : State := { waiting with
  pod := { waiting.pod with dies := 2 }, tasks := List.replicate 3 {} ++ [{ taskAt waiting 3 with ranges := [{ die := 0, lo := 0, hi := 4 }, { die := 0, lo := 4, hi := 6 }], state := .placing }]
  messages := [⟨6, 3, 0, 1, some (4, 6), none⟩] }
theorem test_witness_WorkEvents_moves : awaiting moving 0 = [] ∧ rangeOn moving 3 0 = some { die := 0, lo := 0, hi := 4 } ∧
    dieTakes moving 3 0 = false ∧ dieTakes moving 3 1 = true ∧ rangedTasks moving 0 = [3] ∧
    (∃ m, moving.messages.find? (fun m => m.id == 6) = some m ∧ m.task < moving.tasks.length ∧
      ∃ r ∈ (taskAt moving 3).ranges, m.range = some (r.lo, r.hi)) :=
  by and_intros <;> first | decide +kernel | exact ⟨_, rfl, by decide +kernel, _, .tail _ (.head _), rfl⟩

/-- A resident team that another device's waiting launch, with less service, outbids, and one that nobody does. -/
def pressed : State := { trapping with
  vdevs := (trapping.vdevs.set 0 { service := [(1, 9000)], en := true }).set 1 { en := true, ncore := 1 }
  pod := { trapping.pod with dies := 1 }
  tasks := trapping.tasks.take 1 ++ [{ state := .ready, vdev := 1, body := .launch { oneTeam with nVec := 8, regs := 256 } }] }
theorem test_witness_WorkEvents_quantum : (∃ x, pressed.teams.find? (fun t => t.id == 0 && !t.ended) = some x ∧ (x.launch pressed).travelling = false ∧
      (∀ u ∈ groupOf pressed x, savingTeam pressed u.id = false) ∧ (∀ u ∈ groupOf pressed x, mayPreempt pressed u = true) ∧
      (∃ u ∈ groupOf pressed x, outbid pressed u = true)) ∧ (pressed.teams.map (·.id)).Nodup ∧
    (∀ u ∈ trapping.teams, outbid { trapping with tasks := trapping.tasks.take 1 } u = false) :=
  ⟨⟨_, rfl, by decide +kernel, by decide +kernel, by decide +kernel, by decide +kernel⟩, by decide +kernel, by decide +kernel⟩

/-- Two copies of a team at one point, with signatures; and where only the first stands there. -/
def copies (sig : Nat) (p : Wait) : State :=
  let s := stage [] fun l => { l with redundant := true }
  let w : Warp := { bareWarp barePc with frags := [{ pc := barePc, wait := .compare 0 }] }
  { s with
    teams := [bareTeam, { bareTeam with id := 1, copy := 1, core := 1 }]
    warps := [w, { w with core := 1, team := 1, sig := BitVec.ofNat 64 sig, frags := [{ pc := barePc, wait := p }] }] }
theorem test_witness_WorkEvents_compared : (∃ a b, copiesOf (copies 0 (.compare 0)) 0 = some (a, b) ∧ lonely (copies 0 (.compare 0)) a b = none ∧
      fullPair (copies 0 (.compare 0)) a b = none ∧ (teamOver (copies 0 (.compare 0)) a.id && teamOver (copies 0 (.compare 0)) b.id) = false ∧
      (∃ w f g, standing (copies 0 (.compare 0)) a b = some (w, f, g)) ∧ warpOfTeam (copies 0 (.compare 0)) a.id 0 < 2 ∧ comparable (copies 0 (.compare 0)) a b = true) ∧
    (∃ a b, copiesOf (copies 0 .none) 0 = some (a, b) ∧ comparable (copies 0 .none) a b = false ∧ (∃ v k, alone (copies 0 .none) a b = some (v, k))) ∧
    (warpIn (copies 0 .none) 0 0).sig = (warpIn (copies 0 .none) 1 0).sig ∧ (warpIn (copies 1 .none) 0 0).sig ≠ (warpIn (copies 1 .none) 1 0).sig :=
  ⟨⟨_, _, rfl, by decide +kernel, by decide +kernel, by decide +kernel, ⟨_, _, _, rfl⟩, by decide +kernel, by decide +kernel⟩,
    ⟨_, _, rfl, by decide +kernel, ⟨_, _, rfl⟩⟩, by decide +kernel, by decide +kernel⟩

/-- A travelling launch whose map at the mapped page has one segment of two replicas, rings of three sleds, and the first replica pinned. -/
def words4 (xs : List Nat) : List Byte := xs.flatMap (toBytes 4)
def travelling (count : Nat) (task : Task) (sleds : List Sled) (pins : List Pin) : State :=
  let m := State.reset.mem.write 0x20000 (words4 [1, 0, 0x11000, 0, 512, 128, 1]) false
  let m := m.write 0x20040 (words4 [0x1000, 0, 64, 2]) false
  let m := m.write 0x21000 (words4 [0, count]) false
  let s := tabled { stage [] with mem := m }
  let l : Launch := { oneTeam with gridX := 2, travelling := true, travMap := 0x10000 }
  { s with tasks := s.tasks.set 3 { task with body := .launch l }, teams := [{ bareTeam with id := 9, task := 3 }], warps := [], sleds := sleds, pins := pins }
def pin0 : Pin := { core := 5, task := 3, k := 0, j := 0 }
def sled0 : Sled := { id := 8, task := 3, team := 9 }
def placing : Task := { state := .placing }
def tMap : Option SegMap := mapOf (travelling 0 placing [] []) 3
theorem test_witness_TravelEvents : (mapOf (travelling 0 placing [] [pin0]) 3).isSome = true ∧ pinCore (travelling 0 placing [] [pin0]) placing = some 1 ∧
    ((mapOf (travelling 0 placing [] [pin0]) 3).map fun m => m.order) = some [(0, 0), (0, 1)] ∧
    pinOf (travelling 0 placing [] [pin0]) 5 = some pin0 ∧
    steerTo (travelling 0 placing [sled0] [pin0]) sled0 = some pin0 ∧ sledLost (travelling 0 placing [sled0] [pin0]) 8 = false ∧
    (tMap.map fun m => (ringState (travelling 2 placing [] [pin0]) 0 0 (ringAt m pin0), ringCap m, m.thresh,
      overflowUse (travelling 2 placing [] [pin0]) 3 m 0)) = some (some (0, 2), 3, 1, 2) := by decide +kernel
theorem test_witness_TravelEvents_rings : (tMap.map fun m => ((ringPop (travelling 2 placing [] [pin0]) 0 3 m (ringAt m pin0) 0 2).isSome,
      (ringPush (travelling 1 placing [sled0] [pin0]) 0 0 m (ringAt m pin0) sled0).isSome)) = some (true, true) ∧
    (taskAt (travelling 2 placing [] [pin0]) 3).launch.regGranules ≤ freeRegs (travelling 2 placing [] [pin0]) 5 ∧
    freeSlots (travelling 2 placing [] [pin0]) 5 ≠ [] := by decide +kernel

/-- The same ring with its two words at the end of the mapped page: its slots are on the next, unmapped one; the team of its sled. -/
def lostRing : State :=
  let s := travelling 0 placing [] [pin0]
  let m := (s.mem.write 0x20008 (words4 [0x1FF80]) false).write 0x2FF80 (words4 [0, 1]) false
  { s with mem := m, teams := [{ bareTeam with id := 9, task := 3, inRing := some (0x1FF80, 0, 1) }] }
theorem test_witness_TravelEvents_lost : pinOf lostRing 5 = some pin0 ∧ (mapOf lostRing 3).isSome = true ∧
    ((mapOf lostRing 3).map fun m => (ringAt m pin0, ringCap m, ringState lostRing 5 0 (ringAt m pin0), (ringPop lostRing 5 3 m (ringAt m pin0) 0 1).isSome,
      (ringTeam lostRing 3 fun va slot => va == ringAt m pin0 && slot == 0).isSome)) = some (0x1FF80, 3, some (0, 1), false, true) := by decide +kernel
theorem test_witness_TravelEvents_bounds : (tMap.map fun m => (ringCap m, ringState (travelling 4 placing [] [pin0]) 5 0 (ringAt m pin0),
      ringState (travelling 0 placing [] [pin0]) 5 0 (ringAt m pin0))) = some (3, some (0, 4), some (0, 0)) := by decide +kernel

/-- The machine at its first instruction: no warp departs, and the words at hand decode. -/
theorem test_witness_StepRuns :
    let s := State.reset.withFetchWord 32 0x01000000
    (∀ w ∈ s.warps, w.departing = false) ∧ (∃ rest, (beforeStep s).inputs = .issue 0 :: rest) ∧
    (∃ w f, pickWarp { beforeStep s with inputs := [] } 0 = some w ∧ pendingNow w = false ∧
      pickFrag { beforeStep s with inputs := [] } w = some f ∧ fragById w f.id = some f) ∧
    peek s 0 0 barePc.toNat = .words 0x01000000#32 none ∧ (∃ i, decodePair 0x01000000#32 none = .ok i) := by
  refine ⟨by decide +kernel, ⟨_, rfl⟩, ⟨_, _, rfl, by decide +kernel, rfl, rfl⟩, by decide +kernel, ⟨_, rfl⟩⟩
theorem test_witness_StepKeepsMemoryForm : ∃ t, step (State.reset.withFetchWord 32 0x01000000) = .next t ∧ State.reset.mem.wf = true := by
  cases h : step (State.reset.withFetchWord 32 0x01000000) with
  | next t => exact ⟨t, rfl, by decide +kernel⟩
  | fault f => exact nomatch f
  | refused r =>
    have k : (match step (State.reset.withFetchWord 32 0x01000000) with | .refused _ => false | _ => true) = true := by decide +kernel
    rw [h] at k; cases k

/-- Well-formed instructions that encode, without and with a prefix. -/
theorem test_witness_DecodeEncode : (Instr.ldw none 4 12 2).wellFormed = true ∧ encode (.ldw none 4 12 2) = some [0x84040C02#32] ∧
    (Instr.ldw (some { bare with x5 := 1 }) 4 12 0).wellFormed = true ∧
    encode (.ldw (some { bare with x5 := 1 }) 4 12 0) = some [0xF0000100#32, 0x84040C00#32] := by decide
theorem test_witness_EncodeDecode : (∃ i, decodePair 0x84040C02#32 none = .ok i) ∧ ∃ i, decodePair 0xF0000100#32 (some 0x84040C00#32) = .ok i :=
  ⟨⟨_, rfl⟩, ⟨_, rfl⟩⟩

/-- The smallest image that breaks no rule: an annotation section without signatures and an entry table without entries. -/
def emptyImage : List Byte :=
  toBytes 4 0x5952424C ++ toBytes 2 1 ++ toBytes 2 2 ++ toBytes 4 2 ++ toBytes 4 0 ++ toBytes 8 64 ++ List.replicate 40 0 ++
  toBytes 4 3 ++ toBytes 4 2 ++ toBytes 8 128 ++ toBytes 8 16 ++ toBytes 8 0 ++
  toBytes 4 4 ++ toBytes 4 2 ++ toBytes 8 144 ++ toBytes 8 8 ++ toBytes 8 0 ++ List.replicate 24 0
def goodJob : AduJob := { badJob with image := emptyImage }
theorem test_witness_AdmissionRequests_accepted : aduServes { ringed 0x10000 1 with adu := [goodJob] } = true ∧
    (∃ x, checkRequest { ringed 0x10000 1 with adu := [goodJob] } goodJob = .ok x) := ⟨by decide +kernel, ok_of (by decide +kernel)⟩
/-- Occupancies of Table LANE.2: lanes 16 to 31 take two of three passes at G = 14, and one of two at G = 16. -/
theorem test_passes :
    (passesOf { passes := 3, good := 14 } 0xFFFF0000#32, passesOf {} 0xFFFF0000#32, passesOf { passes := 4, good := 8 } 0xF0000000#32,
      passesOf {} 0) = ((2, 1), (1, 1), (1, 3), (0, 2)) := by decide


end Sys2Proof.Tests
end

section
/-! PROOFS. No state makes the machine stop (O54): every instruction answers a next state, every pending action of the package's own
agents is an event that `exec` runs, and so every step answers a next state.  Each lemma follows the branches of one definition and
stops at the `.next` that each branch ends in, or at the shared operation it ends in. -/

namespace Sys2Proof.Machine

open Sys2Proof Sys2Proof.Safety

/-! ## Outcomes that are a next state -/

/-- The outcome is a next state: neither a fault nor a refusal. -/
def GoesOn (o : Out) : Prop := ∃ t, o = .next t

namespace GoesOn

theorem next (t : State) : GoesOn (.next t) := ⟨t, rfl⟩

theorem ite {c : Prop} [Decidable c] {a b : Out} (ha : GoesOn a) (hb : GoesOn b) : GoesOn (if c then a else b) := by
  split
  · exact ha
  · exact hb

/-! ## The operations that several instructions share -/

theorem guarded (cs : List Cause) (effect : State) (s : State) : GoesOn (Machine.guarded cs effect s) := by
  unfold Machine.guarded
  split <;> exact .next _

theorem orderedAccess (order scope : Nat) (c : Option Ctr) (kind : Option Nat) (causes : List Cause) (effect : State → State) (s : State) :
    GoesOn (Machine.orderedAccess order scope c kind causes effect s) := by
  unfold Machine.orderedAccess
  refine .ite (.next _) ?_
  split
  · exact .ite (.next _) (.ite (.next _) (.guarded ..))
  · exact .ite (.next _) (.guarded ..)

theorem plainLoad (p : Option Pfx) (d a o : BitVec 8) (size n : Nat) (ext : Nat → Word) (s : State) :
    GoesOn (Machine.plainLoad p d a o size n ext s) :=
  .ite (.guarded ..) (.ite (.next _) (.ite (.next _) (.guarded ..)))

theorem plainStore (p : Option Pfx) (d a o : BitVec 8) (size n : Nat) (s : State) : GoesOn (Machine.plainStore p d a o size n s) :=
  .ite (.guarded ..) (.ite (.next _) (.ite (.next _) (.ite (.next _) (.guarded ..))))

theorem atomicOp (p : Option Pfx) (d a : BitVec 8) (s1 q : BitVec 3) (size : Nat) (third : List Nat) (g : Warp → Nat → Nat → Nat) (s : State) :
    GoesOn (Machine.atomicOp p d a s1 q size third g s) :=
  .ite (.guarded ..) (.orderedAccess ..)

theorem atomic32 (p : Option Pfx) (d a : BitVec 8) (s1 q : BitVec 3) (g : Nat → Nat → Nat) (s : State) :
    GoesOn (Machine.atomic32 p d a s1 q g s) :=
  .atomicOp ..

theorem scratchAtomic (p : Option Pfx) (d a : BitVec 8) (s1 q : BitVec 3) (third : List Nat) (g : Warp → Nat → Nat → Nat) (s : State) :
    GoesOn (Machine.scratchAtomic p d a s1 q third g s) :=
  .ite (.guarded ..) (.orderedAccess ..)

theorem releaseThen (scope : Nat) (effect : State → State) (s : State) : GoesOn (Machine.releaseThen scope effect s) :=
  .ite (.next _) (.next _)

theorem configure (h b : BitVec 8) (z : BitVec 6) (st : HState) (s : State) : GoesOn (Machine.configure h b z st s) :=
  .ite (.next _) (.guarded ..)

theorem handleEvent (h : BitVec 8) (event : Nat) (want : HState) (g : Handle → Handle) (s : State) :
    GoesOn (Machine.handleEvent h event want g s) :=
  .ite (.releaseThen ..) (.guarded ..)

theorem issueCopy (kind : Nat) (d a b : BitVec 8) (s : State) : GoesOn (Machine.issueCopy kind d a b s) := by
  unfold Machine.issueCopy
  refine .ite (.next _) (.ite (.next _) ?_)
  split
  · exact .next _
  · exact .ite (.next _) (.guarded ..)

theorem branchIf (cond : Word → Bool) (p : Option Pfx) (c : Nat) (h : BitVec 2) (x : BitVec 14) (s : State) :
    GoesOn (Machine.branchIf cond p c h x s) := by
  unfold Machine.branchIf
  refine .ite (.guarded ..) (.ite (.guarded ..) (.ite (.guarded ..) ?_))
  split <;> exact .guarded ..

theorem issueTile (causes : List Cause) (before : State → State) (k : TileKind) (dests : List Nat) (s : State) :
    GoesOn (Machine.issueTile causes before k dests s) := by
  unfold Machine.issueTile
  refine .ite (.next _) ?_
  split
  · exact .ite (.guarded ..) (.next _)
  · exact .ite (.next _) (.ite (.next _) (.guarded ..))

theorem releaseTile (arr : Bool) (s : State) : GoesOn (Machine.releaseTile arr s) := by
  unfold Machine.releaseTile
  split
  · exact .next _
  · exact .issueTile ..

theorem submit (causes : List Cause) (effect : State → State) (s : State) : GoesOn (Machine.submit causes effect s) := by
  unfold Machine.submit
  refine .ite (.next _) ?_
  split
  · exact .releaseThen ..
  · exact .guarded ..

theorem laneless (ds : List (Nat × Row)) (s : State) : GoesOn (Machine.laneless ds s) :=
  .ite (.next _) (.guarded ..)

theorem servePacket (queue kind : Nat) (act : Packet → List Byte → State → State) (s : State) :
    GoesOn (Machine.servePacket queue kind act s) := by
  unfold Machine.servePacket
  split <;> exact .next _

theorem serve (queue kind : Nat) (act : Packet → List Byte → State → State) (s : State) : GoesOn (Machine.serve queue kind act s) :=
  .ite (.servePacket ..) (.next _)

/-! ## The meanings that split on what they find in the state, by the file they stand in -/

/-! Memory -/

theorem fence (s1 q : BitVec 3) (s : State) : GoesOn (execFence s1 q s) := by
  unfold execFence
  exact .orderedAccess ..

theorem loadReply (op : Nat) (s : State) : GoesOn (execLoadReply op s) := by
  unfold execLoadReply
  split <;> exact .next _

theorem storePerformed (op : Nat) (s : State) : GoesOn (execStorePerformed op s) := by
  unfold execStorePerformed
  split
  · exact .next _
  · exact .ite (.next _) (.next _)

/-! Atomics -/

theorem acas (p : Option Pfx) (d a : BitVec 8) (s1 q : BitVec 3) (s : State) : GoesOn (execAcas p d a s1 q s) := by
  unfold execAcas
  exact .atomicOp ..

theorem acas64 (p : Option Pfx) (d a : BitVec 8) (s1 q : BitVec 3) (s : State) : GoesOn (execAcas64 p d a s1 q s) := by
  unfold execAcas64
  exact .atomicOp ..

theorem scas (p : Option Pfx) (d a : BitVec 8) (s1 q : BitVec 3) (s : State) : GoesOn (execScas p d a s1 q s) := by
  unfold execScas
  exact .scratchAtomic ..

/-! Barriers -/

theorem bar (d b : BitVec 8) (s1 : BitVec 3) (s : State) : GoesOn (execBar d b s1 s) := by
  unfold execBar
  dsimp only
  split
  · exact .ite (.releaseThen ..) (.ite (.next _) (.releaseThen ..))
  · exact .guarded ..

theorem bararv (b : BitVec 8) (s1 : BitVec 3) (s : State) : GoesOn (execBararv b s1 s) := by
  unfold execBararv
  dsimp only
  split
  · exact .ite (.releaseThen ..) (.ite (.next _) (.releaseThen ..))
  · exact .guarded ..

theorem barwt (d b : BitVec 8) (s1 : BitVec 3) (s : State) : GoesOn (execBarwt d b s1 s) := by
  unfold execBarwt
  dsimp only
  split
  · exact .ite (.next _) (.ite (.next _) (.next _))
  · exact .guarded ..

theorem barexp (n b : BitVec 8) (s1 : BitVec 3) (s : State) : GoesOn (execBarexp n b s1 s) := by
  unfold execBarexp
  dsimp only
  split
  · exact .ite (.next _) (.ite (.next _) (.next _))
  · exact .guarded ..

/-! Copy -/

theorem copyAccept (id : Nat) (s : State) : GoesOn (execCopyAccept id s) := by
  unfold execCopyAccept
  split
  · exact .next _
  · exact .ite (.next _) (.ite (.next _) (.next _))

theorem mergeEntryClose (entry : Nat) (s : State) : GoesOn (execMergeEntryClose entry s) := by
  unfold execMergeEntryClose
  split <;> exact .next _

theorem copyLinePerformed (id line : Nat) (s : State) : GoesOn (execCopyLinePerformed id line s) := by
  unfold execCopyLinePerformed
  split
  · exact .next _
  · refine .ite (.next _) ?_
    split <;> exact .next _

theorem copyComplete (id : Nat) (s : State) : GoesOn (execCopyComplete id s) := by
  unfold execCopyComplete
  split <;> exact .next _

/-! Fetch -/

theorem demandFetch (core slot fid : Nat) (s : State) : GoesOn (execDemandFetch core slot fid s) := by
  unfold execDemandFetch
  dsimp only
  split
  · exact .next _
  · split
    · refine .ite (.next _) ?_
      split <;> exact .next _
    · exact .next _

/-! Control -/

theorem ret (s : State) : GoesOn (execRet s) := by
  unfold execRet
  dsimp only
  split
  · exact .guarded ..
  · refine .ite ?_ (.next _)
    split
    · exact .guarded ..
    · exact .next _

theorem linkStackRefill (core slot : Nat) (s : State) : GoesOn (execLinkStackRefill core slot s) := by
  unfold execLinkStackRefill
  dsimp only
  split
  · exact .next _
  · exact .ite (.next _) (.next _)

theorem join (s : State) : GoesOn (execJoin s) := by
  unfold execJoin
  dsimp only
  split
  · exact .ite (.next _) (.next _)
  · exact .next _

/-! Locks -/

theorem lockHandoverReply (core slot fid : Nat) (s : State) : GoesOn (execLockHandoverReply core slot fid s) := by
  unfold execLockHandoverReply
  dsimp only
  split <;> exact .next _

theorem xchg (d s1 : BitVec 8) (k n : BitVec 4) (s : State) : GoesOn (execXchg d s1 k n s) := by
  unfold execXchg
  dsimp only
  split <;> exact .guarded ..

theorem xchgMatch (core slot partnerCore partnerSlot : Nat) (s : State) : GoesOn (execXchgMatch core slot partnerCore partnerSlot s) := by
  unfold execXchgMatch
  dsimp only
  split
  · exact .ite (.ite (.next _) (.next _)) (.next _)
  · exact .next _

/-! Matrix -/

theorem tbld (s1 : BitVec 8) (b : BitVec 3) (k : BitVec 2) (p w : BitVec 1) (s : State) : GoesOn (execTbld s1 b k p w s) := by
  unfold execTbld
  exact .issueTile ..

theorem tbldLatch (core half : Nat) (s : State) : GoesOn (execTbldLatch core half s) := by
  unfold execTbldLatch
  split <;> exact .next _

theorem tileRetire (core half : Nat) (s : State) : GoesOn (execTileRetire core half s) := by
  unfold execTileRetire
  split <;> exact .next _

theorem tmmapFollowerTimeout (core : Nat) (s : State) : GoesOn (execTmmapFollowerTimeout core s) := by
  unfold execTmmapFollowerTimeout
  split <;> exact .next _

/-! Adu -/

theorem aduKick (world : Nat) (s : State) : GoesOn (execAduKick world s) := by
  unfold execAduKick
  split <;> exact .next _

theorem aduSlotReread (world : Nat) (s : State) : GoesOn (execAduSlotReread world s) := by
  unfold execAduSlotReread
  split <;> exact .next _

theorem aduRequestConsume (world : Nat) (s : State) : GoesOn (execAduRequestConsume world s) := by
  unfold execAduRequestConsume
  split <;> exact .next _

theorem admissionComplete (world : Nat) (s : State) : GoesOn (execAdmissionComplete world s) := by
  unfold execAdmissionComplete
  split
  · exact .next _
  · refine .ite (.next _) ?_
    split <;> exact .next _

/-! Faults -/

theorem remoteTimeout (op : Nat) (s : State) : GoesOn (execRemoteTimeout op s) := by
  unfold execRemoteTimeout
  split
  · split <;> exact .next _
  · exact .ite (.next _) (.next _)

theorem faultLogAck (s : State) : GoesOn (execFaultLogAck s) := by
  unfold execFaultLogAck
  split
  · exact .next _
  · exact .ite (.next _) (.ite (.next _) (.next _))

/-! System -/

theorem segq (d a : BitVec 8) (s : State) : GoesOn (execSegq d a s) := by
  unfold execSegq
  refine .ite (.next _) (.ite (.guarded ..) ?_)
  split
  · exact .guarded ..
  · split <;> exact .guarded ..

/-! Sched -/

theorem taskComplete (task : Nat) (s : State) : GoesOn (execTaskComplete task s) := by
  unfold execTaskComplete
  dsimp only
  split
  · exact .next _
  · exact .ite (.next _) (.next _)

theorem jobComplete (task : Nat) (s : State) : GoesOn (execJobComplete task s) := by
  unfold execJobComplete
  dsimp only
  split
  · exact .next _
  · refine .ite (.next _) ?_
    split <;> exact .next _

theorem migrationMessage (id : Nat) (s : State) : GoesOn (execMigrationMessage id s) := by
  unfold execMigrationMessage
  split <;> exact .next _

theorem migrationConfirmTimeout (id : Nat) (s : State) : GoesOn (execMigrationConfirmTimeout id s) := by
  unfold execMigrationConfirmTimeout
  split <;> exact .next _

/-! Queues -/

theorem lapReread (queue : Nat) (s : State) : GoesOn (execLapReread queue s) := by
  unfold execLapReread
  split
  · refine .ite (.next _) ?_
    split <;> exact .next _
  · exact .next _

theorem queueLapTimeout (queue : Nat) (s : State) : GoesOn (execQueueLapTimeout queue s) := by
  unfold execQueueLapTimeout
  split <;> exact .next _

/-! Redundant -/

theorem comparisonPoint (team : Nat) (s : State) : GoesOn (execComparisonPoint team s) := by
  unfold execComparisonPoint
  split
  · exact .next _
  · split
    · exact .next _
    · refine .ite (.next _) ?_
      split <;> exact .next _

theorem redundantWaitTimeout (team : Nat) (s : State) : GoesOn (execRedundantWaitTimeout team s) := by
  unfold execRedundantWaitTimeout
  split
  · exact .next _
  · refine .ite (.next _) ?_
    split <;> exact .next _

/-! Travel -/

theorem replicaPin (task : Nat) (s : State) : GoesOn (execReplicaPin task s) := by
  unfold execReplicaPin
  dsimp only
  refine .ite (.next _) ?_
  split
  · exact .next _
  · split
    · exact .next _
    · split <;> exact .next _

theorem sledInject (task : Nat) (s : State) : GoesOn (execSledInject task s) := by
  unfold execSledInject
  split
  · exact .next _
  · exact .ite (.next _) (.next _)

theorem sledSteer (sled : Nat) (s : State) : GoesOn (execSledSteer sled s) := by
  unfold execSledSteer
  split
  · exact .next _
  · exact .ite (.next _) (.next _)

theorem sledTimeout (sled : Nat) (s : State) : GoesOn (execSledTimeout sled s) := by
  unfold execSledTimeout
  split <;> exact .next _

theorem sledAccept (sled : Nat) (s : State) : GoesOn (execSledAccept sled s) := by
  unfold execSledAccept
  split
  · exact .next _
  · split
    · dsimp only
      split
      · exact .next _
      · refine .ite (.next _) ?_
        split <;> exact .next _
    · exact .next _
    · exact .next _

theorem ringRefill (core : Nat) (s : State) : GoesOn (execRingRefill core s) := by
  unfold execRingRefill
  split
  · exact .next _
  · split
    · exact .next _
    · refine .ite (.next _) ?_
      split
      · exact .next _
      · refine .ite (.next _) (.ite (.next _) ?_)
        split <;> exact .next _

theorem sledAdmit (core : Nat) (s : State) : GoesOn (execSledAdmit core s) := by
  unfold execSledAdmit
  split
  · exact .next _
  · split
    · exact .next _
    · refine .ite (.next _) ?_
      split <;> exact .next _

theorem replicationWatch (task segment : Nat) (s : State) : GoesOn (execReplicationWatch task segment s) := by
  unfold execReplicationWatch
  split
  · exact .next _
  · dsimp only
    split
    · exact .next _
    · exact .ite (.next _) (.next _)

/-! Security -/

theorem teardown (s : State) : GoesOn (execTeardown s) := by
  unfold execTeardown
  split <;> exact .next _

theorem ploughPageClean (die : Nat) (s : State) : GoesOn (execPloughPageClean die s) := by
  unfold execPloughPageClean
  refine .ite (.next _) ?_
  split
  · exact .next _
  · exact .ite (.next _) (.next _)

/-! Host -/

theorem hostMemoryAccess (access : HostAccess) (s : State) : GoesOn (execHostMemoryAccess access s) := by
  unfold execHostMemoryAccess
  refine .ite (.next _) (.ite (.next _) ?_)
  split
  · exact .next _
  · exact .ite (.next _) (.next _)

/-! Manage -/

theorem fwUnitMove (unit : FwUnit) (result : FwMove) (s : State) : GoesOn (execFwUnitMove unit result s) := by
  unfold execFwUnitMove
  split
  · exact .next _
  · exact .ite (.next _) (.next _)

/-! Preempt -/

theorem quantumExpiry (team : Nat) (s : State) : GoesOn (execQuantumExpiry team s) := by
  unfold execQuantumExpiry
  split
  · exact .next _
  · exact .ite (.next _) (.ite (.next _) (.ite (.next _) (.next _)))

end GoesOn

/-! ## Every instruction -/

/-- Every instruction answers a next state in every state: it ends in a `.next` of its own, or in a shared operation that does. -/
theorem exec_goesOn (i : Instr) (s : State) : GoesOn (exec i s) := by
  cases i with dsimp only [exec]
  | nop | br | yield | sleep | trap | setmode | ipref | prefL1 | prefHome | waitc | sleepExpiry | lockRetry | lockWaiterWake
    | fetchAhead | teamPlace | dieAdvertise | msixUnmask | worldSet | map2 | unmap2 | inval | ploughRestart | geninc | vfEnableClear
    | dbgenWrite | resume | faultLogEnable | registerWrite | hostWindowAccess | sessionLockWrite | sessionTimeout | readLife
    | lifetimeAccumulate | lifetimeCommit | orderlyShutdown | getVersion | getCapabilities | negotiateAlgorithms | getDigests
    | getCertificate | challenge | getMeasurements | keyExchange | finish | endSession | coldReset | functionLevelReset | hotReset
    | mctpEndpointLoss | securityCoreRestart | structureError | linkRetrain | entryCacheFill | testStart | powerLoss => exact .next _
  | brc | brz => exact .branchIf ..
  | call | add | sub | mul | mulh | mad | iand | ior | ixor | shl | shr | sar | imin | imax | sel | iabs | ineg | cmpeq | cmpne
    | cmplt | cmple | clz | popc | brev | bfx | bfi | prmt | dp4 | dp4s | dp2 | dp2s | mov | inot | addi | andi | ori | xori | shli
    | shri | sari | muli | cmpeqi | cmplti | movi | movhi | movrd | movrw | add64 | add64w | sub64 | addi64 | lea4 | lea8 | lea16
    | mov64 | wmul | wmad | shl64 | shr64 | cmplt64 | chkb | chkr | chka | fadd | fsub | fmul | ffma | fmin | fmax | fminn | fmaxn
    | fcmpeq | fcmplt | fcmple | fcmpun | fabs | fneg | fclass | fscale | frcp | frsq | fsqrt | fexp2 | flog2 | fsin | fcos | ftanh
    | frnd | fdot2 | cvtfi | cvtif | shfl | shflup | shfldn | shflx | vall | vany | ballot | redadd | redmin | redmax | redand | redor
    | scan | elect | matchv | lds | sts | ldsq | stsq | ringadvNew | ringadv => exact .guarded ..
  | calli | brx | cvtf | cvtn | cvtw => exact .ite (.guarded ..) (.guarded ..)
  | ret => exact .ret ..
  | join => exact .join ..
  | exitw | eret | bkpt | translationWalkComplete | trapEntry | impreciseFaultTake | kick | queueEnWrite | ploughTimeout
    | vdevRegWrite | vdevDisable | stageFw | dieTrained | trainingDeadline | scoreboardRelease | linkRetrainDone
    | secondStageBuilt => exact .ite (.next _) (.next _)
  | movx | xmov | waitr | hwait => exact .ite (.next _) (.guarded ..)
  | xchg => exact .xchg ..
  | ldb | ldbs | ldh | ldhs | ldw | ldd | ldq | ldwr | ldqr => exact .plainLoad ..
  | stb | sth | stw | std | stq => exact .plainStore ..
  | stnt | stm => exact .ite (.guarded ..) (.ite (.next _) (.ite (.next _) (.ite (.next _) (.guarded ..))))
  | ldacq => exact .ite (.guarded ..) (.ite (.next _) (.orderedAccess ..))
  | strel => exact .ite (.guarded ..) (.ite (.next _) (.ite (.next _) (.orderedAccess ..)))
  | fence => exact .fence ..
  | ldm => exact .ite (.guarded ..) (.ite (.next _) (.ite (.next _) (.guarded ..)))
  | lock =>
    exact .ite (.next _) (.ite (.guarded ..) (.ite (.next _) (.ite (.guarded ..)
      (.ite (.next _) (.ite (.next _) (.ite (.next _) (.next _)))))))
  | unlock => exact .ite (.next _) (.orderedAccess ..)
  | aadd | amin | amax | aand | aor | axor | axchg | ainc | afadd | afadd2 => exact .atomic32 ..
  | acas => exact .acas ..
  | aadd64 => exact .atomicOp ..
  | acas64 => exact .acas64 ..
  | sadd | sxchg => exact .scratchAtomic ..
  | scas => exact .scas ..
  | bar => exact .bar ..
  | bararv => exact .bararv ..
  | barwt => exact .barwt ..
  | barexp => exact .barexp ..
  | hsetFree | hsetFull => exact .configure ..
  | hsetRel | hsetFill => exact .handleEvent ..
  | copy | copym | copys => exact .issueCopy ..
  | launch => exact .ite (.next _) (.submit ..)
  | job => exact .ite (.next _) (.ite (.next _) (.submit ..))
  | jobwt => exact .ite (.next _) (.ite (.next _) (.guarded ..))
  | tbld => exact .tbld ..
  | tmma | tmmab | tmmap | taccz | taccld | taccst => exact .issueTile ..
  | trel | trelArray => exact .releaseTile ..
  | clock | perf | traprd => exact .laneless ..
  | segq => exact .segq ..
  | warpEnd | readState | linkTrained | packetTagFailure => exact .ite (.next _) (.ite (.next _) (.next _))
  | loadReply => exact .loadReply ..
  | storePerformed => exact .storePerformed ..
  | lockHandoverReply => exact .lockHandoverReply ..
  | copyAccept => exact .copyAccept ..
  | copyLinePerformed => exact .copyLinePerformed ..
  | copyComplete => exact .copyComplete ..
  | mergeEntryClose => exact .mergeEntryClose ..
  | xchgMatch => exact .xchgMatch ..
  | tbldLatch => exact .tbldLatch ..
  | tileRetire => exact .tileRetire ..
  | tmmapFollowerTimeout => exact .tmmapFollowerTimeout ..
  | jobComplete => exact .jobComplete ..
  | linkStackRefill => exact .linkStackRefill ..
  | comparisonPoint => exact .comparisonPoint ..
  | redundantWaitTimeout => exact .redundantWaitTimeout ..
  | remoteTimeout => exact .remoteTimeout ..
  | demandFetch => exact .demandFetch ..
  | faultLogAck => exact .faultLogAck ..
  | quantumExpiry => exact .quantumExpiry ..
  | migrationMessage => exact .migrationMessage ..
  | migrationConfirmTimeout => exact .migrationConfirmTimeout ..
  | taskComplete => exact .taskComplete ..
  | lapReread => exact .lapReread ..
  | queueLapTimeout => exact .queueLapTimeout ..
  | packetNop | packetLaunch | packetJob | packetFence | packetSignal | packetWaitev => exact .serve ..
  | waitevReread => exact .ite (.servePacket ..) (.next _)
  | aduKick => exact .aduKick ..
  | aduSlotReread => exact .aduSlotReread ..
  | aduRequestConsume => exact .aduRequestConsume ..
  | admissionComplete => exact .admissionComplete ..
  | teardown => exact .teardown ..
  | ploughPageClean => exact .ploughPageClean ..
  | activateFw => exact .ite (.next _) (.ite (.next _) (.ite (.next _) (.next _)))
  | fwUnitMove => exact .fwUnitMove ..
  | replicaPin => exact .replicaPin ..
  | sledInject => exact .sledInject ..
  | sledSteer => exact .sledSteer ..
  | sledAccept => exact .sledAccept ..
  | ringRefill => exact .ringRefill ..
  | sledAdmit => exact .sledAdmit ..
  | replicationWatch => exact .replicationWatch ..
  | sledTimeout => exact .sledTimeout ..
  | hostMemoryAccess => exact .hostMemoryAccess ..

/-! ## The package's own agents -/

/-- The actions are all events that `exec` runs. -/
def AllEvents (acts : List (State → Out)) : Prop := ∀ act ∈ acts, ∃ i, ∀ s, exec i s = act s

namespace AllEvents

theorem nil : AllEvents [] := List.forall_mem_nil _

theorem one {act : State → Out} {i : Instr} (h : ∀ s, exec i s = act s) : AllEvents [act] := List.forall_mem_singleton.2 ⟨i, h⟩

theorem append_iff {xs ys : List (State → Out)} : AllEvents (xs ++ ys) ↔ AllEvents xs ∧ AllEvents ys := List.forall_mem_append

theorem ite {c : Prop} [Decidable c] {xs ys : List (State → Out)} (hx : AllEvents xs) (hy : AllEvents ys) :
    AllEvents (if c then xs else ys) := by
  split
  · exact hx
  · exact hy

theorem oneOf {c : Prop} [Decidable c] {a b : State → Out} (ha : AllEvents [a]) (hb : AllEvents [b]) :
    AllEvents [if c then a else b] := by
  split
  · exact ha
  · exact hb

theorem map {α : Type} {f : α → State → Out} (l : List α) (h : ∀ x, ∃ i, ∀ s, exec i s = f x s) : AllEvents (l.map f) :=
  List.forall_mem_map.2 fun x _ => h x

theorem flatMap {α : Type} {f : α → List (State → Out)} (l : List α) (h : ∀ x, AllEvents (f x)) : AllEvents (l.flatMap f) := by
  intro act hact
  obtain ⟨x, -, hx⟩ := List.mem_flatMap.1 hact
  exact h x act hx

theorem fragPending (w : Warp) (f : Frag) : AllEvents (fragPending w f) := by
  unfold Machine.fragPending
  split
  · exact .one (exec_sleepExpiry _ _ _)
  · exact .one (exec_lockRetry _ _ _)
  · exact .one (exec_lockRetry _ _ _)
  · exact .one (exec_linkStackRefill _ _)
  · exact .one (exec_entryCacheFill _ _)
  · exact .nil

theorem xchgPending (s : State) (w : Warp) : AllEvents (xchgPending s w) := by
  unfold Machine.xchgPending
  split
  · exact .nil
  · split
    · exact .nil
    · dsimp only
      split
      · exact .nil
      · exact .ite (.one (exec_xchgMatch _ _ _ _)) .nil

theorem warpPending (s : State) (w : Warp) : AllEvents (warpPending s w) := by
  simp only [Machine.warpPending, append_iff, and_assoc]
  exact ⟨.map _ fun h => ⟨_, exec_scoreboardRelease w.core w.slot h.id⟩, .ite (.one (exec_trapEntry _ _)) .nil,
    .flatMap _ (fragPending w), xchgPending s w, .ite (.one (exec_warpEnd _ _)) .nil⟩

theorem opPending (s : State) (o : Op) : AllEvents (opPending s o) := by
  unfold Machine.opPending
  refine .ite .nil ?_
  split
  · exact .one (exec_loadReply _)
  · exact .ite .nil (.one (exec_storePerformed _))
  · exact .nil

theorem waiterPending (x : Waiter) : AllEvents (waiterPending x) :=
  .ite (.one (exec_lockHandoverReply _ _ _)) (.ite (.one (exec_lockWaiterWake _)) .nil)

theorem copyPending (s : State) (c : Copy) : AllEvents (copyPending s c) :=
  .ite (.ite .nil (.one (exec_copyAccept _)))
    (.ite (.ite (.one (exec_copyComplete _)) .nil) (.map _ fun l => ⟨_, exec_copyLinePerformed c.id l⟩))

theorem arrayPending (a : Array) : AllEvents (arrayPending a) := by
  unfold Machine.arrayPending
  split
  · exact .ite (.one (exec_tbldLatch _ _)) (.one (exec_tileRetire _ _))
  · exact .nil

theorem teamPending (s : State) (t : Team) : AllEvents (teamPending s t) := by
  refine append_iff.2 ⟨?_, .ite (.one (exec_quantumExpiry _)) .nil⟩
  split
  · exact .ite (.one (exec_comparisonPoint _)) .nil
  · exact .nil

theorem taskPending (s : State) (i : Nat) : AllEvents (taskPending s i) := by
  unfold Machine.taskPending
  dsimp only
  split
  · exact .ite (.one (exec_jobComplete _)) .nil
  · exact .ite .nil (.ite (.ite (.one (exec_taskComplete _)) .nil)
      (.ite (append_iff.2 ⟨.one (exec_replicaPin _), .one (exec_sledInject _)⟩) .nil))

theorem placePending (s : State) : AllEvents (placePending s) :=
  .ite .nil (.map _ fun d => ⟨_, exec_teamPlace d⟩)

theorem sledPending (s : State) (x : Sled) : AllEvents (sledPending s x) :=
  .ite .nil (.ite (.one (exec_sledSteer _)) (.one (exec_sledAccept _)))

theorem pinPending (p : Pin) : AllEvents (pinPending p) :=
  append_iff.2 ⟨.ite (.one (exec_ringRefill _)) .nil, .ite .nil (.one (exec_sledAdmit _))⟩

theorem packetEvent (queue kind : Nat) : AllEvents [packetEvent queue kind] :=
  .oneOf (.one (exec_packetLaunch _)) (.oneOf (.one (exec_packetJob _)) (.oneOf (.one (exec_packetWaitev _))
    (.oneOf (.one (exec_packetSignal _)) (.oneOf (.one (exec_packetFence _)) (.one (exec_packetNop _))))))

theorem queuePending (s : State) (i : Nat) : AllEvents (queuePending s i) := by
  unfold Machine.queuePending
  split
  · exact .nil
  · exact .ite (.one (exec_queueLapTimeout _)) (.one (exec_lapReread _))
  · exact .one (exec_waitevReread _)
  · exact .nil

theorem turnPending (s : State) : AllEvents (turnPending s) := by
  unfold Machine.turnPending
  split
  · exact .nil
  · split
    · exact packetEvent _ _
    · exact .one (exec_packetNop _)

theorem ringPending (s : State) (world : Nat) : AllEvents (ringPending s world) := by
  unfold Machine.ringPending
  split
  · exact .one (exec_aduRequestConsume _)
  · exact .one (exec_aduSlotReread _)
  · exact .nil
  · exact .nil

theorem boxPending (s : State) : AllEvents (boxPending s) :=
  append_iff.2 ⟨.ite .nil (.ite (.one exec_worldSet) (.ite (.one exec_map2) (.ite (.one exec_unmap2)
    (.ite (.one exec_inval) (.one exec_teardown))))), .ite (.one exec_teardown) .nil⟩

theorem ploughPending (s : State) : AllEvents (ploughPending s) :=
  .map _ fun d => ⟨_, exec_ploughPageClean d⟩

/-- Whatever the package's agents have still to do is an event of the instruction type. -/
theorem pendingActions (s : State) : AllEvents (pendingActions s) := by
  unfold Machine.pendingActions
  iterate 19 refine append_iff.2 ⟨?_, ?_⟩
  · exact .flatMap _ (warpPending s)
  · exact .flatMap _ (opPending s)
  · exact .flatMap _ waiterPending
  · exact .flatMap _ (copyPending s)
  · exact .map _ fun m => ⟨_, exec_mergeEntryClose m.id⟩
  · exact .flatMap _ arrayPending
  · exact .map _ fun k => ⟨_, exec_translationWalkComplete k.quad k.world k.page⟩
  · exact .flatMap _ (teamPending s)
  · exact .flatMap _ (taskPending s)
  · exact placePending s
  · exact .map _ fun m => ⟨_, exec_migrationMessage m.id⟩
  · exact .flatMap _ (sledPending s)
  · exact .flatMap _ pinPending
  · exact .flatMap _ (queuePending s)
  · exact turnPending s
  · exact .flatMap _ (ringPending s)
  · exact .ite (.map _ fun j => ⟨_, exec_admissionComplete j.world⟩) .nil
  · exact boxPending s
  · exact ploughPending s
  · exact .ite .nil (.one exec_faultLogAck)

end AllEvents

/-- The action that goes ahead by itself answers a next state, wherever it runs. -/
theorem nextInternal_goesOn {s : State} {act : State → Out} (h : nextInternal s = some act) (t : State) : GoesOn (act t) := by
  obtain ⟨i, hi⟩ := AllEvents.pendingActions s act (List.mem_of_getElem? h)
  rw [← hi t]
  exact exec_goesOn i t

/-! ## Every step -/

theorem runTurn_goesOn (s : State) (core : Nat) : GoesOn (runTurn s core) := by
  unfold runTurn
  split
  case h_1 => exact .next _
  case h_2 u slot _ => exact exec_goesOn (.impreciseFaultTake core slot) u
  case h_3 u slot fid _ => exact exec_goesOn (.demandFetch core slot fid) u
  case h_4 => exact .next _
  case h_5 i u _ => exact exec_goesOn i _

theorem ownAction_goesOn (s : State) : GoesOn (ownAction s) := by
  unfold ownAction
  split
  case h_1 h => exact nextInternal_goesOn h s
  case h_2 => exact runTurn_goesOn ..
  case h_3 h _ => exact nextInternal_goesOn h s
  case h_4 => exact .next _

theorem stepAction_goesOn (s : State) : GoesOn (stepAction s) := by
  unfold stepAction
  split
  case h_1 i rest _ => exact exec_goesOn i _
  case h_2 => exact runTurn_goesOn ..
  case h_3 => exact .next _
  case h_4 => exact ownAction_goesOn s

/-- Settles O54: the step's action is an instruction, an event of `exec` or nothing, and each of them answers a next state. -/
theorem stepAlwaysRuns : Obligations.StepAlwaysRuns := by
  intro s
  have runs : Runs s := stepAction_goesOn (beforeStep s)
  exact ⟨runs, fun i => exec_goesOn i s⟩

end Sys2Proof.Machine
end

section
/-! PROOFS. Cold reset, loss of power and training (O49): what a sparse table reads after an entry is replaced, the configuration with a
core dropped, the firmware as the units start, and the pod block as dies and links come up. -/

namespace Sys2Proof.Machine

open Sys2Proof

/-! ## Sparse tables -/

@[simp] theorem look_put_self {α : Type} (t : List (Nat × α)) (k : Nat) (v d : α) : look (put t k v) k d = v := by
  simp [look, put]

theorem look_put_of_ne {α : Type} {j k : Nat} (h : j ≠ k) (t : List (Nat × α)) (v d : α) : look (put t k v) j d = look t j d := by
  have entry : ∀ e : Nat × α, decide ((e.1 != k) = true ∧ (e.1 == j) = true) = (e.1 == j) := fun e => by
    by_cases he : e.1 = j
    · simp [he, h]
    · simp [he]
  simp only [look, put, List.find?_cons, beq_false_of_ne h.symm, List.find?_filter, entry]

/-! ## A core dropped from the configuration (R20, R447) -/

@[simp] theorem onClass_core (c : Config) (passes : Nat) (g : Word → Word) : (onClass c passes g).core = c.core := by
  unfold onClass
  split
  · rfl
  · split <;> rfl

@[simp] theorem onClass_cores (c : Config) (passes : Nat) (g : Word → Word) : (onClass c passes g).cores = c.cores := by
  unfold onClass
  split
  · rfl
  · split <;> rfl

theorem setCore_core (c : Config) (core : Nat) (new : CoreCfg) : (setCore c core new).core = put c.core core new := by
  unfold setCore
  dsimp only
  split <;> split <;> simp

theorem dropCore_core (c : Config) (core : Nat) :
    (dropCore c core).core = put c.core core { look c.core core {} with present := false } := setCore_core ..

theorem dropCore_cores {c : Config} {core : Nat} (h : (look c.core core {}).present = true) : (dropCore c core).cores = c.cores - 1 := by
  simp [dropCore, setCore, h]

/-! ## The firmware of the units -/

/-- A unit's firmware read after every unit's has been changed: changed, where there is such a unit. -/
theorem fwOf_map {s t : State} {g : Fw → Fw} (h : t.fw = s.fw.map fun x => (x.1, g x.2)) (u : FwUnit) :
    fwOf t u = if s.fw.any (fun x => x.1 == u) then g (fwOf s u) else {} := by
  have found : t.fw.find? (fun x => x.1 == u) = (s.fw.find? fun x => x.1 == u).map fun x => (x.1, g x.2) := by
    rw [h, List.find?_map]; rfl
  unfold fwOf
  rw [found, ← List.isSome_find?]
  cases s.fw.find? (fun x => x.1 == u) <;> rfl

theorem fwOf_of_not_any {s : State} {u : FwUnit} (h : s.fw.any (fun x => x.1 == u) = false) : fwOf s u = {} := by
  have none : s.fw.find? (fun x => x.1 == u) = none := by
    rw [← Option.not_isSome_iff_eq_none, List.isSome_find?, h]; decide
  rw [fwOf, none]; rfl

/-- What a reset makes of an image: nothing staged, and the unit neither moved nor refused. -/
def restarted (f : Fw) : Fw := { f with staged := none, moved := false, failed := false }

theorem keepThrough_fw (s : State) : (keepThrough s).fw = s.fw.map fun x => (x.1, restarted x.2) := rfl

@[simp] theorem imageBad_fwOf_keepThrough (s : State) (u : FwUnit) : imageBad (fwOf (keepThrough s) u) = imageBad (fwOf s u) := by
  rw [fwOf_map (keepThrough_fw s)]
  cases h : s.fw.any fun x => x.1 == u
  · rw [fwOf_of_not_any h]; rfl
  · rfl

/-- A unit's image as the boot finds it, `bad` where the security core's was refused. -/
def booted (bad : Bool) (f : Fw) : Fw := { restarted f with failed := imageBad f || bad }

theorem bootUnits_keepThrough (s : State) :
    bootUnits (keepThrough s) = s.fw.map fun x => (x.1, booted (imageBad (fwOf s .securityCore)) x.2) := by
  simp only [bootUnits, keepThrough_fw, imageBad_fwOf_keepThrough, List.map_map]
  rfl

/-- A unit is refused at start-up where its image or the security core's is bad (R347). -/
theorem failed_of_booted {s t : State} (h : t.fw = bootUnits (keepThrough s)) (u : FwUnit) :
    (fwOf t u).failed = (s.fw.any (fun x => x.1 == u) && (imageBad (fwOf s u) || imageBad (fwOf s .securityCore))) := by
  rw [fwOf_map (h.trans (bootUnits_keepThrough s))]
  cases s.fw.any fun x => x.1 == u <;> rfl

/-! ## The pending list (R447) -/

theorem applied_of_mem_kept {s : State} {r : Retire}
    (h : r ∈ (s.retire.filter fun r => r.action == 4).map fun r => { r with applied := true }) : r.action = 4 ∧ r.applied = true := by
  obtain ⟨x, hx, rfl⟩ := List.mem_map.1 h
  exact ⟨beq_iff_eq.1 (List.mem_filter.1 hx).2, rfl⟩

theorem unit_mem_of_action5 {s : State} {r : Retire} (hr : r ∈ actedOn s) (h5 : r.action = 5) :
    r.unit ∈ ((actedOn s).filter fun r => r.action == 5).map (fun r => r.unit) :=
  List.mem_map_of_mem (List.mem_filter.2 ⟨hr, beq_iff_eq.2 h5⟩)

/-! ## A queue's packets before die 0 serves -/

theorem readPacket_idle_of_die0 {s : State} (h : s.pod.dies.getLsbD 0 = false) (n : Nat) : readPacket s n = .idle :=
  if_pos (by simp only [h, Bool.not_false, Bool.or_true])

/-! ## The pod block in training (R352, R365) -/

theorem writeTray_of_valid {s : State} (h : s.pod.valid = true) : writeTray s = s := if_pos h

@[simp] theorem writeTray_valid (s : State) : (writeTray s).pod.valid = true := by
  unfold writeTray
  split
  · assumption
  · rfl

/-- The tray's configuration goes to fields of the pod block that name neither dies and links in service nor full service. -/
theorem writeTray_service (s : State) : { (writeTray s).pod with
    valid := s.pod.valid, podIdx := s.pod.podIdx, bridge := s.pod.bridge, bridgeIdx := s.pod.bridgeIdx, route := s.pod.route } = s.pod := by
  unfold writeTray
  split <;> rfl

theorem writeTray_frame (s : State) : { writeTray s with pod := s.pod } = s := by
  unfold writeTray
  split <;> rfl

@[simp] theorem writeTray_dies (s : State) : (writeTray s).pod.dies = s.pod.dies := (congrArg Pod.dies (writeTray_service s) :)
@[simp] theorem writeTray_linkUp (s : State) : (writeTray s).pod.linkUp = s.pod.linkUp := (congrArg Pod.linkUp (writeTray_service s) :)
@[simp] theorem writeTray_full (s : State) : (writeTray s).pod.full = s.pod.full := (congrArg Pod.full (writeTray_service s) :)
@[simp] theorem writeTray_fast (s : State) : (writeTray s).fast = s.fast := (congrArg State.fast (writeTray_frame s) :)

@[simp] theorem serves_writeTray (s : State) (die : Nat) : serves (writeTray s) die = serves s die :=
  congrArg (fun d : BitVec 32 => d.getLsbD die) (writeTray_dies s)

/-- A state with the pod block and the clock of another: that other state, where the two agree in all else. -/
def inServiceOf (s t : State) : State := { t with pod := s.pod, fast := s.fast }

/-- Full service, once every die serves, is FULL of the pod block and the fast clock. -/
theorem enterFull_eq (s : State) :
    enterFull s = s ∨ s.pod.dies = 0xFFFFFFFF#32 ∧ enterFull s = { s with fast := true, pod := { s.pod with full := true } } := by
  unfold enterFull
  dsimp only
  split
  case isTrue h => exact .inr ⟨beq_iff_eq.1 (Bool.and_eq_true_iff.1 h).1, rfl⟩
  case isFalse => exact .inl rfl

theorem enterFull_pod (s : State) : { (enterFull s).pod with full := s.pod.full } = s.pod := by
  obtain h | ⟨-, h⟩ := enterFull_eq s <;> rw [h]

theorem enterFull_frame (s : State) : inServiceOf s (enterFull s) = s := by
  obtain h | ⟨-, h⟩ := enterFull_eq s <;> rw [h] <;> rfl

@[simp] theorem enterFull_dies (s : State) : (enterFull s).pod.dies = s.pod.dies := (congrArg Pod.dies (enterFull_pod s) :)
@[simp] theorem enterFull_linkUp (s : State) : (enterFull s).pod.linkUp = s.pod.linkUp := (congrArg Pod.linkUp (enterFull_pod s) :)
@[simp] theorem enterFull_valid (s : State) : (enterFull s).pod.valid = s.pod.valid := (congrArg Pod.valid (enterFull_pod s) :)
@[simp] theorem enterFull_route (s : State) : (enterFull s).pod.route = s.pod.route := (congrArg Pod.route (enterFull_pod s) :)
@[simp] theorem enterFull_podIdx (s : State) : (enterFull s).pod.podIdx = s.pod.podIdx := (congrArg Pod.podIdx (enterFull_pod s) :)
@[simp] theorem enterFull_mem (s : State) : (enterFull s).mem = s.mem := (congrArg State.mem (enterFull_frame s) :)
@[simp] theorem enterFull_barriers (s : State) : (enterFull s).barriers = s.barriers := (congrArg State.barriers (enterFull_frame s) :)

/-- Where FULL comes, every die serves and the clock is fast. -/
theorem dies_of_enterFull {s : State} (before : s.pod.full = false) (after : (enterFull s).pod.full = true) :
    s.pod.dies = 0xFFFFFFFF#32 ∧ (enterFull s).fast = true := by
  obtain h | ⟨hdies, h⟩ := enterFull_eq s
  · rw [h, before] at after; cases after
  · exact ⟨hdies, by rw [h]⟩

/-! ## Barriers tested again leave memory and the pod block as they are -/

theorem foldl_keeps {β γ : Type} {p : State → γ} {g : State → β → State} (h : ∀ s x, p (g s x) = p s) (xs : List β) (s : State) :
    p (xs.foldl g s) = p s := by
  induction xs generalizing s with
  | nil => rfl
  | cons x xs ih => exact (ih _).trans (h s x)

/-- What a barrier that completes changes nothing of: memory at its home, and the pod block. -/
def homeAndPod (s : State) : Memory × Pod := (s.mem, s.pod)

theorem passBarrier_homeAndPod (s : State) (i : Nat) (f : Frag) (dest scope : Nat) (status : Word) :
    homeAndPod (passBarrier s i f dest scope status) = homeAndPod s := by
  show homeAndPod (acquireActs s _ scope) = homeAndPod s
  unfold acquireActs
  split <;> rfl

theorem leaveBarrier_homeAndPod (s : State) (i fid dest scope : Nat) (status : Word) :
    homeAndPod (leaveBarrier s i fid dest scope status) = homeAndPod s := by
  unfold leaveBarrier
  dsimp only
  split
  · rfl
  · split
    · rfl
    · exact passBarrier_homeAndPod ..

theorem leaveAll_homeAndPod (s : State) (bar : Nat) (status : Word) : homeAndPod (leaveAll s bar status) = homeAndPod s := by
  refine foldl_keeps (fun s i => foldl_keeps (fun s f => ?_) _ s) _ s
  split
  · split
    · exact leaveBarrier_homeAndPod ..
    · rfl
  · rfl

theorem testBarrier_homeAndPod (s : State) (id : Nat) : homeAndPod (testBarrier s id) = homeAndPod s := by
  unfold testBarrier
  split
  · rfl
  · split
    · exact leaveAll_homeAndPod ..
    · rfl

theorem testPodBarriers_homeAndPod (s : State) : homeAndPod (testPodBarriers s) = homeAndPod s :=
  foldl_keeps testBarrier_homeAndPod _ s

@[simp] theorem testPodBarriers_mem (s : State) : (testPodBarriers s).mem = s.mem := congrArg Prod.fst (testPodBarriers_homeAndPod s)
@[simp] theorem testPodBarriers_pod (s : State) : (testPodBarriers s).pod = s.pod := congrArg Prod.snd (testPodBarriers_homeAndPod s)

theorem testPodBarriers_of_none {s : State} (h : ∀ b ∈ s.barriers, b.scope ≠ 5) : testPodBarriers s = s := by
  have none : (s.barriers.filter fun b => b.scope == 5) = [] := List.filter_eq_nil_iff.2 fun b hb => by simp [h b hb]
  rw [testPodBarriers, none]; rfl

/-! ## DIE_TRAINED, LINK_TRAINED and the deadline (R365, R454) -/

/-- The state with a die in DIES, before full service is considered. -/
def dieIn (die : Nat) (s : State) : State :=
  { writeTray s with pod := { (writeTray s).pod with dies := (writeTray s).pod.dies ||| 1#32 <<< die } }

theorem execDieTrained_late {die : Nat} {s : State} (h : s.deadlinePast = true ∨ die ∈ s.diesOut) : execDieTrained die s = .next s :=
  if_pos (by rcases h with h | h <;> simp [h])

theorem execDieTrained_up {die : Nat} {s : State} (hd : die < 32) (htime : s.deadlinePast = false) (hout : die ∉ s.diesOut) :
    execDieTrained die s = .next (enterFull (dieIn die s)) :=
  if_neg (by simp [htime, hout, hd])

theorem enterFull_dieIn_frame (die : Nat) (s : State) : inServiceOf s (enterFull (dieIn die s)) = s :=
  calc inServiceOf s (enterFull (dieIn die s))
      = inServiceOf s (inServiceOf (dieIn die s) (enterFull (dieIn die s))) := rfl
    _ = inServiceOf s (dieIn die s) := congrArg (inServiceOf s) (enterFull_frame _)
    _ = inServiceOf s { writeTray s with pod := s.pod } := rfl
    _ = s := congrArg (inServiceOf s) (writeTray_frame s)

/-- The state with a link up, before full service is considered. -/
def linkIn (k : Nat) (s : State) : State := { s with pod := { s.pod with linkUp := s.pod.linkUp ||| 1#16 <<< k } }

theorem enterFull_linkIn_frame (k : Nat) (s : State) : inServiceOf s (enterFull (linkIn k s)) = s :=
  (congrArg (inServiceOf s) (enterFull_frame (linkIn k s)) :)

theorem execLinkTrained_unserved {k far : Nat} {s : State} (h : serves s (2 * k) = false) : execLinkTrained k far s = .next s :=
  if_pos (by simp [linkDie, h])

theorem execLinkTrained_served {k far : Nat} {s : State} (hk : k < 16) (htime : s.deadlinePast = false) (hvalid : s.pod.valid = true)
    (hserves : serves s (2 * k) = true) :
    execLinkTrained k far s = if (s.pod.route.getD far 0).getLsbD k then .next (testPodBarriers (enterFull (linkIn k s))) else .next s := by
  have early : ¬ (decide (16 ≤ k) || s.deadlinePast || !serves s (linkDie k)) = true := by simp [htime, linkDie, hserves, hk]
  rw [execLinkTrained, if_neg early, writeTray_of_valid hvalid]
  rfl

/-- The bits that a fold sets one by one where a condition holds. -/
theorem getLsbD_foldl_or {p : Nat → Bool} {k : Nat} (hk : k < 16) (xs : List Nat) (m : BitVec 16) :
    (xs.foldl (fun (m : BitVec 16) j => if p j then m ||| 1#16 <<< j else m) m).getLsbD k = (m.getLsbD k || xs.contains k && p k) := by
  induction xs generalizing m with
  | nil => simp
  | cons j xs ih =>
    have bit : (1#16 <<< j).getLsbD k = (decide (j < 16) && decide (j = k)) := by rw [← BitVec.twoPow_eq, BitVec.getLsbD_twoPow]
    rw [List.foldl_cons, ih, List.contains_cons]
    by_cases hj : j = k
    · subst hj; cases h : p j <;> simp [hk]
    · cases h : p j <;> simp [bit, hj, beq_false_of_ne (Ne.symm hj)]

theorem linkUp_at_deadline {s : State} {k : Nat} (hk : k < 16) (m : BitVec 16) :
    (m &&& (List.range 16).foldl (fun (m : BitVec 16) k => if serves s (linkDie k) then m ||| 1#16 <<< k else m) 0).getLsbD k =
      (m.getLsbD k && serves s (2 * k)) := by
  rw [BitVec.getLsbD_and, getLsbD_foldl_or (p := fun j => serves s (linkDie j)) hk]
  simp [linkDie, hk]

/-! ## The obligation -/

/-- Settles O49, event by event: what each leaves is read off its next state by the lemmas above. -/
theorem resets : Obligations.Resets := by
  refine ⟨?coldReset, ?dropCore, ?powerLoss, fun die s hd => ⟨execDieTrained_late, fun htime hout => ?dieTrained⟩,
    fun k far s => execLinkTrained_unserved, fun k far s hk htime hvalid hserves => ⟨fun hroute => ?linkKept, fun hroute => ?linkTrained⟩,
    fun s htime => ?deadline⟩
  case coldReset =>
    intro s
    exact ⟨_, rfl, rfl, rfl, rfl, rfl, rfl, rfl, rfl, rfl, rfl, rfl, rfl, rfl, rfl, rfl, rfl, fun _ => applied_of_mem_kept,
      fun _ hr h5 => List.mem_append_right _ (unit_mem_of_action5 hr h5), rfl, rfl, rfl, rfl, failed_of_booted rfl,
      congrArg not (imageBad_fwOf_keepThrough s _)⟩
  case dropCore =>
    intro c core k h
    rw [dropCore_core, look_put_self]
    exact ⟨rfl, dropCore_cores h, fun hk => look_put_of_ne hk ..⟩
  case powerLoss =>
    exact fun s => ⟨_, rfl, rfl, rfl, rfl, rfl, rfl, rfl, rfl, readPacket_idle_of_die0 (BitVec.getLsbD_zero ..)⟩
  case dieTrained =>
    refine ⟨enterFull (dieIn die s), execDieTrained_up hd htime hout, by simp [dieIn], by simp [dieIn], fun h => ?_, fun before after => ?_,
      enterFull_dieIn_frame die s⟩
    · simp [dieIn, writeTray_of_valid h]
    · obtain ⟨hdies, hfast⟩ := dies_of_enterFull (s := dieIn die s) ((writeTray_full s).trans before) after
      exact ⟨(enterFull_dies _).trans hdies, hfast⟩
  case linkKept => rw [exec_linkTrained, execLinkTrained_served hk htime hvalid hserves, hroute]; rfl
  case linkTrained =>
    refine ⟨testPodBarriers (enterFull (linkIn k s)), ?_, by simp [linkIn], by simp [linkIn], by simp [linkIn], fun h => ?_⟩
    · rw [exec_linkTrained, execLinkTrained_served hk htime hvalid hserves, if_pos hroute]
    · rw [testPodBarriers_of_none (by simpa [linkIn] using h)]
      exact enterFull_linkIn_frame k s
  case deadline =>
    refine ⟨_, if_neg (by simp [htime]), rfl, ?_, writeTray_dies s, writeTray_valid s, fun k hk => ?_⟩
    · rw [writeTray_fast, serves_writeTray]; rfl
    · rw [linkUp_at_deadline hk, writeTray_linkUp, serves_writeTray]

end Sys2Proof.Machine
end

section
/-! PROOFS. What the proofs about control, calls, counter waits and device tasks share: issues that meet no cause, the fragments that
`goto` leaves, and the parts of a state that writes to the homes, the caches and the write-combining buffers leave alone. -/

namespace Sys2Proof.Machine

open Sys2Proof Sys2Proof.Safety

/-! ## Issues that meet no cause, or one -/

@[simp] theorem consumed_zero : consumed 0#32 = [] := rfl

theorem outside_eq_nil {named : List Nat} {s : State} (h : Inside named s) : outside s named = [] := by
  have none : named.find? (fun r => !regInside (launchOf s (me s)).regs r) = none :=
    List.find?_eq_none.2 fun r hr => by simp [h r hr]
  rw [outside, none]

theorem scalarCauses_eq_nil {reads named : List Nat} {s : State} (hn : Inside named s) (hp : scalarPoison (me s) (fr s) reads = 0) :
    scalarCauses s reads named = [] := by
  rw [scalarCauses, outside_eq_nil hn, hp]; rfl

theorem scalarPoison_of_exec_zero {w : Warp} {f : Frag} (h : f.exec = 0) (rs : List Nat) : scalarPoison w f rs = 0 :=
  if_pos (beq_iff_eq.2 h)

theorem guarded_one (c : Cause) (e s : State) : guarded [c] e s = .next (raise c s) := rfl

/-! ## Leaving an instruction, and waiting at it -/

theorem goto_issuing (pc : Pc) {s : State} (hi : Issuing s) : GoesTo pc [] s (goto pc s) := goto_plain pc hi.warp hi.frag

theorem advance_retired {s : State} (hi : Issuing s) : Retired [] s (advance s) := goto_issuing _ hi

theorem goto_frags (pc : Pc) {s : State} (h : s.cur.warp < s.warps.length) :
    (me (goto pc s)).frags = (me s).frags.set s.cur.frag { fr s with pc := pc, wait := .none, compared := false } := by
  have moved := congrArg Warp.frags (me_setFr (countIssue s) { fr s with pc := pc, wait := .none, compared := false } h)
  unfold goto
  dsimp only
  split
  · rw [me_setMe _ _ (by simpa using h)]; exact moved
  · exact moved

@[simp] theorem goto_cur (pc : Pc) (s : State) : (goto pc s).cur = s.cur := by
  unfold goto
  dsimp only
  split <;> simp only [setMe_cur, setFr_cur, countIssue_cur]

theorem issuing_congr {s t : State} (hw : t.warps = s.warps) (hc : t.cur = s.cur) (hi : Issuing s) : Issuing t := by
  have hm : me t = me s := by rw [me, me, hw, hc]
  exact ⟨by rw [hc, hw]; exact hi.warp, by rw [hc, hm]; exact hi.frag, by rw [hm]; exact hi.regs⟩

theorem issuing_setFr {s : State} (f : Frag) (hi : Issuing s) : Issuing (setFr s f) := by
  have hm := me_setFr s f hi.warp
  exact ⟨by simpa using hi.warp, by rw [hm]; simpa using hi.frag, by rw [hm]; exact hi.regs⟩

theorem issuing_setMe {s : State} {w : Warp} (hi : Issuing s) (hf : w.frags = (me s).frags) (hr : w.regs = (me s).regs) :
    Issuing (setMe s w) := by
  have hm := me_setMe s w hi.warp
  exact ⟨by simpa using hi.warp, by rw [hm, hf]; exact hi.frag, by rw [hm, hr]; exact hi.regs⟩

theorem regOf_setFr {s : State} (f : Frag) (hi : Issuing s) (r : Nat) : regOf (me (setFr s f)) r = regOf (me s) r := by
  rw [me_setFr _ _ hi.warp]; rfl

/-! ## What memory's own operations leave alone -/

/-- The state apart from the L1s, home memory and what the homes note beside it. -/
def besideHomes (s : State) : State := { s with l1 := [], mem := {}, sharers := [], gateways := [], waiters := [] }

/-- The state apart from those and the write-combining buffers. -/
def besideMemory (s : State) : State := { besideHomes s with wcb := [] }

theorem besideMemory_of_besideHomes {s t : State} (h : besideHomes t = besideHomes s) : besideMemory t = besideMemory s :=
  congrArg (fun s : State => { s with wcb := [] }) h

theorem me_of_besideMemory {s t : State} (h : besideMemory t = besideMemory s) : me t = me s := (congrArg me h :)
theorem fr_of_besideMemory {s t : State} (h : besideMemory t = besideMemory s) : fr t = fr s := (congrArg fr h :)
theorem cur_of_besideMemory {s t : State} (h : besideMemory t = besideMemory s) : t.cur = s.cur := (congrArg State.cur h :)
theorem warps_of_besideMemory {s t : State} (h : besideMemory t = besideMemory s) : t.warps = s.warps := (congrArg State.warps h :)
theorem tasks_of_besideMemory {s t : State} (h : besideMemory t = besideMemory s) : t.tasks = s.tasks := (congrArg State.tasks h :)
theorem taskOf_of_besideMemory {s t : State} (h : besideMemory t = besideMemory s) (w : Warp) : taskOf t w = taskOf s w :=
  (congrArg (fun s => taskOf s w) h :)

theorem issuing_of_besideMemory {s t : State} (h : besideMemory t = besideMemory s) (hi : Issuing s) : Issuing t :=
  issuing_congr (warps_of_besideMemory h) (cur_of_besideMemory h) hi

/-- A state with the rest of another is that other with memory of its own. -/
theorem eq_of_besideHomes {s t : State} (h : besideHomes t = besideHomes s) :
    t = { s with l1 := t.l1, mem := t.mem, sharers := t.sharers, gateways := t.gateways, waiters := t.waiters } :=
  (congrArg (fun u : State => { u with l1 := t.l1, mem := t.mem, sharers := t.sharers, gateways := t.gateways, waiters := t.waiters }) h :)

theorem besideHomes_homeWrite (s : State) (a : Nat) (bs : List Byte) (p : Bool) : besideHomes (homeWrite s a bs p) = besideHomes s := by
  unfold homeWrite
  split <;> rfl

theorem besideHomes_homeWriteMask (s : State) (base : Nat) (m : BitVec 128) (d : Memory) :
    besideHomes (homeWriteMask s base m d) = besideHomes s := by
  refine foldl_keeps (fun s i => ?_) _ s
  split
  · exact besideHomes_homeWrite ..
  · refine List.foldlRecOn (motive := fun acc : State × Nat => besideHomes acc.1 = besideHomes s) _ _ rfl fun acc h j _ => ?_
    split
    · split
      · exact (besideHomes_homeWrite ..).trans h
      · exact h
    · exact h

theorem besideHomes_lineBack (s : State) (x : L1Line) : besideHomes (lineBack s x) = besideHomes s := by
  unfold lineBack
  split
  · exact besideHomes_homeWriteMask ..
  · rfl

theorem besideHomes_writeBack (s : State) (f : L1Line → Bool) : besideHomes (writeBack s f) = besideHomes s :=
  foldl_keeps besideHomes_lineBack _ s

theorem besideHomes_evictPrivate (s : State) (core : Nat) : besideHomes (evictPrivate s core) = besideHomes s :=
  besideHomes_writeBack ..

theorem besideHomes_acquireActs (s : State) (core scope : Nat) : besideHomes (acquireActs s core scope) = besideHomes s := by
  unfold acquireActs
  split <;> rfl

theorem besideMemory_wcbSend (s : State) (x : WcbLine) : besideMemory (wcbSend s x) = besideMemory s :=
  (besideMemory_of_besideHomes (besideHomes_homeWriteMask s x.base x.present x.data) :)

theorem besideMemory_wcbDrain (s : State) (f : WcbLine → Bool) : besideMemory (wcbDrain s f) = besideMemory s :=
  foldl_keeps besideMemory_wcbSend _ s

theorem besideMemory_releaseActs (s : State) (core scope : Nat) : besideMemory (releaseActs s core scope) = besideMemory s := by
  have written : besideMemory (if 2 ≤ scope then writeBack s (fun x => x.core == core && x.kind == .norm) else s) = besideMemory s := by
    split
    · exact besideMemory_of_besideHomes (besideHomes_writeBack ..)
    · rfl
  unfold releaseActs
  dsimp only
  split
  · exact (besideMemory_wcbDrain ..).trans written
  · exact written

end Sys2Proof.Machine
end

section
/-! PROOFS. NOP and the branches (O23): where the fragment goes, and the split where its lanes part (R159 to R161). -/

namespace Sys2Proof.Machine

open Sys2Proof Sys2Proof.Safety

/-! ## BRC and BRZ -/

theorem exec_branchTable {p : Option Pfx} {c : BitVec 8} {h : BitVec 2} {x : BitVec 14} {b : Instr × (Word → Bool)}
    (hb : b ∈ Claims.branchTable p c h x) (s : State) : exec b.1 s = branchIf b.2 p c.toNat h x s := by
  simp only [Claims.branchTable, List.mem_cons, List.not_mem_nil, or_false] at hb
  rcases hb with rfl | rfl <;> rfl

/-- The lanes of EXEC that take a branch. -/
def takenLanes (cond : Word → Bool) (c : Nat) (s : State) : Word :=
  maskOf fun l => inMask (fr s).exec l && cond (lane s c l).val

section
variable {cond : Word → Bool} {p : Option Pfx} {c : Nat} {h : BitVec 2} {x : BitVec 14} {s : State}

/-- Under hint 3 the lowest lane decides for all (R160). -/
theorem branchIf_scalar (hin : Inside [c] s) (hp : scalarPoison (me s) (fr s) [c] = 0) :
    branchIf cond p c 3 x s =
      .next (if (fr s).exec ≠ 0 ∧ cond (scalarAt (me s) (fr s) c) = true then goto (nearTarget p s x) s else advance s) := by
  simp [branchIf, outside_eq_nil hin, hp, guarded_nil]

/-- Where no hint makes a lane decide for all, and nothing stops the branch, the lanes that take it decide. -/
theorem branchIf_lanes (hh : h ≠ 3#2) (hin : Inside [c] s) (hc : Clean (fr s).exec [c] s) :
    branchIf cond p c h x s =
      if takenLanes cond c s = 0#32 then .next (advance s)
      else if takenLanes cond c s = (fr s).exec then .next (goto (nearTarget p s x) s)
      else (joinOf s (fr s).pc).elim (.next (raise { cls := 2, code := 0x002 } s)) fun j =>
        .next (if holds s (me s) .splitEntry then split (takenLanes cond c s) (nearTarget p s x) j (h == 1#2) s
          else waitFor .splitEntry s) := by
  have clean : poisonMask (regOf (me s) c) (fr s).exec = 0#32 := hc c (List.mem_singleton_self c)
  have taken : (maskOf fun l => inMask (fr s).exec l && cond (valAt (regOf (me s) c) l)) = takenLanes cond c s := rfl
  simp only [branchIf, beq_iff_eq, if_neg hh, taken, outside_eq_nil hin, clean, consumed_zero, List.append_nil, List.nil_append,
    guarded_nil]
  cases joinOf s (fr s).pc <;> rfl

theorem branchIf_parting (hh : h ≠ 3#2) (hin : Inside [c] s) (hc : Clean (fr s).exec [c] s) (some : takenLanes cond c s ≠ 0#32)
    (part : takenLanes cond c s ≠ (fr s).exec) :
    branchIf cond p c h x s = (joinOf s (fr s).pc).elim (.next (raise { cls := 2, code := 0x002 } s)) fun j =>
      .next (if holds s (me s) .splitEntry then split (takenLanes cond c s) (nearTarget p s x) j (h == 1#2) s
        else waitFor .splitEntry s) := by
  rw [branchIf_lanes hh hin hc, if_neg some, if_neg part]

end

theorem getD_set_append {α : Type} {xs : List α} {i : Nat} (h : i < xs.length) (x y d : α) : (xs.set i x ++ [y]).getD i d = x := by
  rw [List.getD_eq_getElem?_getD, List.getElem?_append_left (by rw [List.length_set]; exact h), List.getElem?_set_self h]
  rfl

/-- The mark of the split that lanes parting at a branch open (R33). -/
def splitMark (join : Pc) (likely : Bool) (s : State) : Split :=
  { id := (me s).nextSplit, join := join, parent := (fr s).id, favoured := if likely then (me s).nextFrag else (fr s).id }

theorem splitMark_hint (join : Pc) (h : BitVec 2) (s : State) : splitMark join (h == 1#2) s =
    { id := (me s).nextSplit, join := join, parent := (fr s).id, favoured := if h = 1#2 then (me s).nextFrag else (fr s).id } := by
  simp [splitMark]

/-- The new fragment of the lanes that take the branch (R159). -/
def takenFrag (t : Word) (target join : Pc) (likely : Bool) (s : State) : Frag :=
  { id := (me s).nextFrag, pc := target, exec := t, frag := t, splits := splitMark join likely s :: (fr s).splits,
    handler := (fr s).handler, acquire := (fr s).acquire }

/-- The fragment of the lanes that do not, before it goes on. -/
def keptFrag (t : Word) (join : Pc) (likely : Bool) (s : State) : Frag :=
  { fr s with frag := (fr s).frag &&& ~~~t, exec := (fr s).exec &&& ~~~t, splits := splitMark join likely s :: (fr s).splits }

/-- The state with the lanes of T in a fragment of their own, before the issuing one goes on. -/
def parted (t : Word) (target join : Pc) (likely : Bool) (s : State) : State :=
  setFr (setMe s { me s with
    frags := (me s).frags ++ [takenFrag t target join likely s], nextFrag := (me s).nextFrag + 1, nextSplit := (me s).nextSplit + 1 })
    (keptFrag t join likely s)

theorem split_eq (t : Word) (target join : Pc) (likely : Bool) (s : State) :
    split t target join likely s = advance (parted t target join likely s) := rfl

section
variable {t : Word} {target join : Pc} {likely : Bool} {s : State} (hi : Issuing s)
include hi

theorem me_parted : me (parted t target join likely s) = { me s with
    frags := ((me s).frags ++ [takenFrag t target join likely s]).set s.cur.frag (keptFrag t join likely s)
    nextFrag := (me s).nextFrag + 1, nextSplit := (me s).nextSplit + 1 } := by
  rw [parted, me_setFr _ _ (by simpa using hi.warp), me_setMe _ _ hi.warp]; rfl

theorem frags_parted : (me (parted t target join likely s)).frags =
    (me s).frags.set s.cur.frag (keptFrag t join likely s) ++ [takenFrag t target join likely s] := by
  rw [me_parted hi]; exact List.set_append_left _ _ hi.frag

theorem fr_parted : fr (parted t target join likely s) = keptFrag t join likely s := by
  rw [fr, frags_parted hi]
  exact getD_set_append hi.frag ..

theorem issuing_parted : Issuing (parted t target join likely s) := by
  refine ⟨by simpa [parted] using hi.warp, ?_, by rw [me_parted hi]; exact hi.regs⟩
  rw [frags_parted hi]
  simpa [parted] using Nat.lt_succ_of_lt hi.frag

theorem nextPc_parted : nextPc (parted t target join likely s) = nextPc s := by
  rw [nextPc, fr_parted hi]; rfl

theorem frags_split : (me (split t target join likely s)).frags =
    (me s).frags.set s.cur.frag { keptFrag t join likely s with pc := nextPc s, wait := .none, compared := false } ++
      [takenFrag t target join likely s] := by
  rw [split_eq, advance, goto_frags _ (issuing_parted hi).warp, fr_parted hi, frags_parted hi, nextPc_parted hi]
  show List.set (_ ++ _) s.cur.frag _ = _
  rw [List.set_append_left _ _ (by simpa using hi.frag), List.set_set]

theorem fr_split : fr (split t target join likely s) =
    { keptFrag t join likely s with pc := nextPc s, wait := .none, compared := false } := by
  rw [fr, frags_split hi, split_eq, advance, goto_cur]
  exact getD_set_append hi.frag ..

theorem regOf_split (r : Nat) : regOf (me (split t target join likely s)) r = regOf (me s) r := by
  rw [split_eq, (advance_retired (issuing_parted hi)).regs r (List.not_mem_nil), me_parted hi]; rfl

theorem homeKept_split : HomeKept s (split t target join likely s) := fun a =>
  ⟨(advance_retired (issuing_parted hi)).mem a, (advance_retired (issuing_parted hi)).poison a⟩

end

/-! ## BRX -/

section
variable {i : BitVec 8} {k : BitVec 14} {s : State} (hin : Inside [i.toNat] s)
include hin

theorem execBrx_exec_zero (h0 : (fr s).exec = 0#32) : execBrx i k s = .next (advance s) := by
  simp [execBrx, h0, outside_eq_nil hin, guarded_nil]

variable (h0 : (fr s).exec ≠ 0#32) (hp : scalarPoison (me s) (fr s) [i.toNat] = 0#32)
include h0 hp

theorem execBrx_entry {x : Int} (hx : (jumpTable s k.toNat)[(scalarAt (me s) (fr s) i.toNat).toNat]? = some x) :
    execBrx i k s = .next (goto (branchTarget (fr s).pc x) s) := by
  have inTable : ¬ (jumpTable s k.toNat).length ≤ (scalarAt (me s) (fr s) i.toNat).toNat :=
    Nat.not_le.2 (List.getElem?_eq_some_iff.1 hx).1
  have entry : (jumpTable s k.toNat).getD (scalarAt (me s) (fr s) i.toNat).toNat 0 = x := by rw [List.getD, hx]; rfl
  simp only [execBrx, beq_iff_eq, if_neg h0, if_neg inTable, entry, outside_eq_nil hin, hp, consumed_zero, List.append_nil, guarded_nil]

theorem execBrx_beyond (hx : (jumpTable s k.toNat).length ≤ (scalarAt (me s) (fr s) i.toNat).toNat) :
    execBrx i k s = .next (raise { cls := 2, code := 0x043, info := scalarAt (me s) (fr s) i.toNat } s) := by
  simp only [execBrx, beq_iff_eq, if_neg h0, if_pos hx, outside_eq_nil hin, hp, consumed_zero, List.nil_append, guarded_one]

end

/-! ## The obligation -/

/-- Settles O23: each branch by the equation of its meaning, the lanes that part by what `split` makes of the fragments. -/
theorem branches : Obligations.Branches := by
  refine ⟨fun s hi => ⟨_, rfl, advance_retired hi⟩, fun p h x s hi => ⟨_, rfl, goto_issuing _ hi⟩, ?_, ?_⟩
  · intro p c h x b hb s hi hin f taken
    rw [exec_branchTable hb]
    refine ⟨fun hh hp => ?scalar, fun hh hc => ?lanes⟩
    case scalar =>
      rw [hh, branchIf_scalar hin hp]
      refine ⟨_, rfl, ?_⟩
      split
      · exact goto_issuing _ hi
      · exact advance_retired hi
    case lanes =>
      refine ⟨fun none => ?_, fun some all => ?_, fun some part noJoin => ?_, fun j some part join room => ?_⟩
      · exact ⟨_, (branchIf_lanes hh hin hc).trans (if_pos none), advance_retired hi⟩
      · exact ⟨_, (branchIf_lanes hh hin hc).trans ((if_neg some).trans (if_pos all)), goto_issuing _ hi⟩
      · rw [branchIf_parting hh hin hc some part, noJoin]; rfl
      · rw [branchIf_parting hh hin hc some part, join, Option.elim_some, if_pos room]
        refine ⟨_, rfl, ?_⟩
        rw [fr_split hi, frags_split hi, List.getLast?_concat]
        refine ⟨rfl, rfl, rfl, congrArg (· :: _) (splitMark_hint ..), ?_, by simp, regOf_split hi, homeKept_split hi⟩
        rw [takenFrag, splitMark_hint]; rfl
  · intro i k s hi hin e
    refine ⟨fun h0 => ⟨_, execBrx_exec_zero hin h0, advance_retired hi⟩, fun h0 hp => ⟨fun x hx => ?_, execBrx_beyond hin h0 hp⟩⟩
    exact ⟨_, execBrx_entry hin h0 hp hx, goto_issuing _ hi⟩

end Sys2Proof.Machine
end

section
/-! PROOFS. WAITC and WAITR (O33): the counters against their fields, and the wait (R29, R230). -/

namespace Sys2Proof.Machine

open Sys2Proof Sys2Proof.Safety

theorem within_iff (n field : Nat) : within n field = true ↔ field = 63 ∨ n ≤ field := by simp [within]

theorem holds_atMost_iff (s : State) (w : Warp) (ld st cp tl : Nat) : holds s w (.atMost ld st cp tl) = true ↔
    (ld = 63 ∨ w.cntLd ≤ ld) ∧ (st = 63 ∨ w.cntSt ≤ st) ∧ (cp = 63 ∨ w.cntCp ≤ cp) ∧ (tl = 63 ∨ w.cntTl ≤ tl) := by
  simp only [holds, Bool.and_eq_true, within_iff, and_assoc]

/-- A fragment that waits stands at its PC with the registers of its warp as they were. -/
structure Waits (c : Cond) (s t : State) : Prop where
  pc : (fr t).pc = (fr s).pc
  wait : (fr t).wait = .poll c
  regs : ∀ r, regOf (me t) r = regOf (me s) r

theorem waits_waitFor {s u : State} (c : Cond) (hi : Issuing s) (h : besideMemory u = besideMemory s) : Waits c s (waitFor c u) := by
  have hu := issuing_of_besideMemory h hi
  have hfr : fr (waitFor c u) = { fr u with wait := .poll c } := fr_setFr _ _ hu.warp hu.frag
  refine ⟨?_, by rw [hfr], fun r => ?_⟩
  · rw [hfr, fr_of_besideMemory h]
  · rw [waitFor, regOf_setFr _ hu, me_of_besideMemory h]

section
variable {ld st cp tl : Nat} {s : State}

theorem waitCounters_of_holds (h : holds s (me s) (.atMost ld st cp tl) = true) : waitCounters ld st cp tl s = advance s := if_pos h

theorem waits_waitCounters (hi : Issuing s) (h : ¬ holds s (me s) (.atMost ld st cp tl) = true) :
    Waits (.atMost ld st cp tl) s (waitCounters ld st cp tl s) := by
  rw [waitCounters, if_neg h]
  refine waits_waitFor _ hi ?_
  split
  · rfl
  · exact besideMemory_wcbDrain ..

end

theorem execWaitr_exec_zero {a : BitVec 8} {s : State} (h0 : (fr s).exec = 0#32) : execWaitr a s = .next (advance s) :=
  if_pos (beq_iff_eq.2 h0)

theorem execWaitr_eq {a : BitVec 8} {s : State} (h0 : (fr s).exec ≠ 0#32) (hin : Inside [a.toNat] s)
    (hp : scalarPoison (me s) (fr s) [a.toNat] = 0) :
    let v := (scalarAt (me s) (fr s) a.toNat).toNat
    execWaitr a s = .next (waitCounters (bitsOf v 18 6) (bitsOf v 12 6) (bitsOf v 6 6) (bitsOf v 0 6) s) := by
  rw [execWaitr, if_neg (by simpa using h0), scalarCauses_eq_nil hin hp]; rfl

/-- Settles O33: both instructions are `waitCounters`, whose condition is that each counter is within its field. -/
theorem counterWaits : Obligations.CounterWaits := by
  intro l k c n a s hi within'
  have go : ∀ {ld st cp tl : Nat}, within' ld st cp tl → Retired [] s (waitCounters ld st cp tl s) := fun h => by
    rw [waitCounters_of_holds ((holds_atMost_iff ..).2 h)]; exact advance_retired hi
  have wait : ∀ {ld st cp tl : Nat}, ¬ within' ld st cp tl → Waits (.atMost ld st cp tl) s (waitCounters ld st cp tl s) := fun h =>
    waits_waitCounters hi fun hh => h ((holds_atMost_iff ..).1 hh)
  refine ⟨fun h => ⟨_, rfl, go h⟩, fun h => ⟨_, rfl, (wait h).pc, (wait h).wait, (wait h).regs⟩,
    fun h0 => ⟨_, execWaitr_exec_zero h0, advance_retired hi⟩, fun h0 hin hp => ⟨fun h => ?_, fun h => ?_⟩⟩
  · exact ⟨_, execWaitr_eq h0 hin hp, go h⟩
  · exact ⟨_, execWaitr_eq h0 hin hp, (wait h).pc, (wait h).wait⟩

end Sys2Proof.Machine
end

section
/-! PROOFS. JOIN (O25): a split whose members all wait at its JOIN closes into one fragment (R33, R163). -/

namespace Sys2Proof.Machine

open Sys2Proof Sys2Proof.Safety

/-- The one fragment that the members of a split fuse into, `m` the first of them. -/
def fusedFrag (x : Split) (m : Frag) (ms : List Frag) : Frag :=
  { id := x.parent, pc := m.pc + 4#57, exec := ms.foldl (fun a f => a ||| f.frag) 0#32, frag := ms.foldl (fun a f => a ||| f.frag) 0#32,
    splits := m.splits.filter fun y => y.id != x.id, handler := m.handler, acquire := (ms.flatMap (·.acquire)).eraseDups }

theorem closeSplit_of_all_waiting {w : Warp} {x : Split} {m : Frag} {ms : List Frag}
    (members : (w.frags.filter fun f => inSplit x.id f) = m :: ms) (waiting : ∀ f ∈ m :: ms, f.wait = .join x.id)
    (mark : m.splits.find? (fun y => y.id == x.id) = some x) :
    closeSplit w x.id = { w with frags := (w.frags.filter fun f => !inSplit x.id f) ++ [fusedFrag x m (m :: ms)] } := by
  have all : ((m :: ms).all fun f => f.wait == .join x.id) = true := List.all_eq_true.2 fun f hf => beq_iff_eq.2 (waiting f hf)
  simp only [closeSplit, members, all, List.isEmpty_cons, List.headD_cons, mark, Option.getD_some]
  rfl

theorem getLsbD_foldl_frag (fs : List Frag) (a : Word) (l : Nat) :
    (fs.foldl (fun a f => a ||| f.frag) a).getLsbD l = (a.getLsbD l || fs.any fun f => f.frag.getLsbD l) := by
  induction fs generalizing a with
  | nil => simp
  | cons f fs ih => rw [List.foldl_cons, ih, BitVec.getLsbD_or, List.any_cons, Bool.or_assoc]

theorem execJoin_here {s : State} {x : Split} {rest : List Split} (hx : (fr s).splits = x :: rest) (here : x.join = (fr s).pc) :
    execJoin s = .next (checkLeave (setMe (issued (setFr s { fr s with wait := .join x.id }))
      (closeSplits (me (issued (setFr s { fr s with wait := .join x.id }))))) s.cur.warp) := by
  simp only [execJoin, hx, beq_iff_eq, if_pos here]
  rfl

theorem execJoin_elsewhere {s : State} (h : ∀ x rest, (fr s).splits = x :: rest → x.join ≠ (fr s).pc) :
    execJoin s = .next (advance (setFr s { fr s with exec := (fr s).frag })) := by
  unfold execJoin
  dsimp only
  split
  · exact if_neg (by simpa using h _ _ ‹_›)
  · rfl

/-- Settles O25: what `closeSplit` makes of the members, and JOIN by whether its split is the innermost. -/
theorem joinFuses : Obligations.JoinFuses := by
  refine ⟨fun w x m ms members waiting mark => ?_, fun s hi => ⟨fun x rest hx here => execJoin_here hx here, fun h => ?_⟩⟩
  · rw [closeSplit_of_all_waiting members waiting mark]
    refine ⟨_, rfl, rfl, rfl, rfl, rfl, rfl, fun l => ?_, rfl⟩
    rw [fusedFrag, getLsbD_foldl_frag]; simp
  · exact ⟨_, execJoin_elsewhere h, advance_retired (issuing_setFr _ hi)⟩

end Sys2Proof.Machine
end

section
/-! PROOFS. CALL, CALLI and RET (O24): what a push does to the link stack and what stops it, and what a pop puts back (R162, R393, R417). -/

namespace Sys2Proof.Machine

open Sys2Proof Sys2Proof.Safety

/-! ## The push -/

theorem besideHomes_spillOut (s : State) (w : Warp) (es : List LinkEntry) : besideHomes (spillOut s w es) = besideHomes s := by
  refine foldl_keeps (fun t x => ?_) _ s
  split
  · rfl
  · exact besideHomes_homeWrite ..

/-- The state with the oldest 8 entries spilled, where the core holds 32 (R31). -/
def spilled (s : State) : State :=
  if 32 ≤ (me s).onCore then spillOut s (me s) (oldestOnCore (me s) ((me s).onCore - 8)) else s

theorem besideMemory_spilled (s : State) : besideMemory (spilled s) = besideMemory s := by
  unfold spilled
  split
  · exact besideMemory_of_besideHomes (besideHomes_spillOut ..)
  · rfl

/-- The entry that a call from the state pushes. -/
def callEntry (ret : Pc) (s : State) : LinkEntry :=
  let l := if (fr s).exec == 0#32 then 32 else lowestLane (fr s).exec
  { ret := ret, sp := pairOf (callLane s 254) (callLane s 255)
    poisonLo := poisonAt (regOf (me s) 254) l, poisonHi := poisonAt (regOf (me s) 255) l }

theorem callLane_of_exec {s : State} (h0 : (fr s).exec ≠ 0#32) (r : Nat) : callLane s r = scalarAt (me s) (fr s) r :=
  if_neg (by simpa using h0)

theorem callEntry_of_exec {s : State} (h0 : (fr s).exec ≠ 0#32) (ret : Pc) : callEntry ret s =
    { ret := ret, sp := pairOf (lane s 254 (lowestLane (fr s).exec)).val (lane s 255 (lowestLane (fr s).exec)).val
      poisonLo := (lane s 254 (lowestLane (fr s).exec)).poison, poisonHi := (lane s 255 (lowestLane (fr s).exec)).poison } := by
  simp only [callEntry, callLane_of_exec h0, beq_iff_eq, if_neg h0]
  rfl

/-- A push adds the entry of the state before any spill. -/
theorem push_eq (ret : Pc) (s : State) : push ret s = Claims.pushed (callEntry ret s) s := by
  have hm : me (spilled s) = me s := me_of_besideMemory (besideMemory_spilled s)
  have entry : callEntry ret (spilled s) = callEntry ret s :=
    (congrArg (callEntry ret) (besideMemory_spilled s) :)
  have count : (if decide (32 ≤ (me s).onCore) then (me s).onCore - 8 + 1 else (me s).onCore + 1) =
      if 32 ≤ (me s).onCore then (me s).onCore - 7 else (me s).onCore + 1 := by
    simp only [decide_eq_true_eq]; split <;> omega
  calc push ret s
      = setMe (spilled s) { me (spilled s) with
          link := callEntry ret (spilled s) :: (me (spilled s)).link
          onCore := if decide (32 ≤ (me (spilled s)).onCore) then (me (spilled s)).onCore - 8 + 1 else (me (spilled s)).onCore + 1
          spill := if decide (32 ≤ (me (spilled s)).onCore) then (me (spilled s)).spill + 128 else (me (spilled s)).spill } := rfl
    _ = setMe (spilled s) { me (spilled s) with
          link := callEntry ret s :: (me (spilled s)).link
          onCore := if 32 ≤ (me (spilled s)).onCore then (me (spilled s)).onCore - 7 else (me (spilled s)).onCore + 1
          spill := if 32 ≤ (me (spilled s)).onCore then (me (spilled s)).spill + 128 else (me (spilled s)).spill } := by
        rw [hm, entry, count]; simp only [decide_eq_true_eq]
    _ = Claims.pushed (callEntry ret s) s := rfl

theorem issuing_pushed (e : LinkEntry) {s : State} (hi : Issuing s) : Issuing (Claims.pushed e s) :=
  issuing_setMe (issuing_of_besideMemory (besideMemory_spilled s) hi) rfl rfl

/-- Going to a function once the entry is pushed. -/
theorem goto_push (pc ret : Pc) {s : State} (hi : Issuing s) :
    GoesTo pc [] (Claims.pushed (callEntry ret s) s) (goto pc (push ret s)) := by
  rw [push_eq]; exact goto_issuing pc (issuing_pushed _ hi)

/-! ## What stops a push -/

/-- The page of the next spilled entry can be reached. -/
def SpillReached (s : State) : Prop := ∃ x, pageFor s (me s).core (launchOf s (me s)).world (me s).spill.toNat = .ok x

/-- The cause of a spill page that cannot be reached (R417). -/
def spillCause (s : State) : Cause := { cls := 3, code := 0x040, res := true, addr := (me s).spill }

section
variable {s : State}

theorem pushCauses_full (h : 4096 ≤ (me s).link.length) : pushCauses s = [{ cls := 2, code := 0x040, info := 4096 }] := if_pos h

theorem pushCauses_onCore (h : (me s).link.length < 4096) (hc : (me s).onCore < 32) : pushCauses s = [] :=
  (if_neg (Nat.not_le.2 h)).trans (if_neg (by simpa using hc))

theorem pushCauses_reached (h : (me s).link.length < 4096) (hs : SpillReached s) : pushCauses s = [] := by
  obtain ⟨x, hx⟩ := hs
  refine (if_neg (Nat.not_le.2 h)).trans ?_
  split
  · rw [hx]
  · rfl

theorem pushCauses_room (h : (me s).link.length < 4096 ∧ ((me s).onCore < 32 ∨ SpillReached s)) : pushCauses s = [] :=
  h.2.elim (pushCauses_onCore h.1) (pushCauses_reached h.1)

theorem pushCauses_unreached (h : (me s).link.length < 4096) (hc : 32 ≤ (me s).onCore) (hs : ¬ SpillReached s) :
    pushCauses s = [spillCause s] := by
  refine (if_neg (Nat.not_le.2 h)).trans ((if_pos (by simpa using hc)).trans ?_)
  split
  · exact absurd ⟨_, ‹_›⟩ hs
  · rfl

theorem pushCauses_not_full (h : (me s).link.length < 4096) : pushCauses s = [] ∨ pushCauses s = [spillCause s] := by
  by_cases room : (me s).onCore < 32 ∨ SpillReached s
  · exact .inl (pushCauses_room ⟨h, room⟩)
  · obtain ⟨hc, hs⟩ := not_or.1 room
    exact .inr (pushCauses_unreached h (Nat.not_lt.1 hc) hs)

theorem guarded_two (c d : Cause) (e s : State) :
    guarded [c, d] e s = .next (raise (if d.rank < c.rank then d else c) s) := by
  by_cases first : d.rank < c.rank <;> simp [guarded, firstCause, argMin, first]

/-! ## CALL and CALLI -/

theorem execCall_room {p : Option Pfx} {hint : BitVec 2} {x : BitVec 22} (none : pushCauses s = []) :
    execCall p hint x s = .next (goto (nearTarget p s x) (push (nextPc s) s)) := by
  rw [execCall, none, guarded_nil]

theorem execCall_stopped {p : Option Pfx} {hint : BitVec 2} {x : BitVec 22} {c : Cause} (one : pushCauses s = [c]) :
    execCall p hint x s = .next (raise c s) := by
  rw [execCall, one, guarded_one]

/-- The code that CALLI finds for entry `n`, in the role of the fragment. -/
def calledCode (s : State) (n : Nat) : Option Nat := entryCode s (launchOf s (me s)).world n (roleCode (roleOf (me s) (fr s)))

section
variable {a : BitVec 8} (hin : Inside [a.toNat] s) (hp : scalarPoison (me s) (fr s) [a.toNat] = 0#32)
include hin hp

theorem execCalli_uncached (hc : entryCached s (launchOf s (me s)).world (callLane s a.toNat).toNat = false) :
    execCalli a s = .next (setFr s { fr s with wait := .entryMiss (callLane s a.toNat).toNat }) := by
  simp only [execCalli, hc, Bool.not_false, if_true, outside_eq_nil hin, hp, consumed_zero, List.append_nil, guarded_nil]

theorem execCalli_cached (hc : entryCached s (launchOf s (me s)).world (callLane s a.toNat).toNat = true) :
    execCalli a s = guarded
      (pushCauses s ++ if (calledCode s (callLane s a.toNat).toNat).isNone then [{ cls := 2, code := 0x042, info := callLane s a.toNat }] else [])
      (goto (BitVec.ofNat 57 ((calledCode s (callLane s a.toNat).toNat).getD 0)) (push (nextPc s) s)) s := by
  simp only [execCalli, hc, Bool.not_true, Bool.false_eq_true, if_false, outside_eq_nil hin, hp, consumed_zero, List.nil_append]
  rfl

theorem execCalli_room (hc : entryCached s (launchOf s (me s)).world (callLane s a.toNat).toNat = true) (none : pushCauses s = [])
    {y : Nat} (hy : calledCode s (callLane s a.toNat).toNat = some y) :
    execCalli a s = .next (goto (BitVec.ofNat 57 y) (push (nextPc s) s)) := by
  rw [execCalli_cached hin hp hc, none, hy]; rfl

/-- A full stack comes before an entry without code (R388). -/
theorem execCalli_full (hc : entryCached s (launchOf s (me s)).world (callLane s a.toNat).toNat = true)
    (full : 4096 ≤ (me s).link.length) : execCalli a s = .next (raise { cls := 2, code := 0x040, info := 4096 } s) := by
  rw [execCalli_cached hin hp hc, pushCauses_full full]
  split
  · exact (guarded_two ..).trans (by simp [Cause.rank])
  · rfl

/-- An entry without code comes before a spill page that cannot be reached (R388). -/
theorem execCalli_no_code (hc : entryCached s (launchOf s (me s)).world (callLane s a.toNat).toNat = true)
    (h : (me s).link.length < 4096) (none : calledCode s (callLane s a.toNat).toNat = none) :
    execCalli a s = .next (raise { cls := 2, code := 0x042, info := callLane s a.toNat } s) := by
  rw [execCalli_cached hin hp hc, none]
  obtain e | e := pushCauses_not_full h <;> rw [e]
  · rfl
  · exact (guarded_two ..).trans (by simp [Cause.rank, spillCause])

end

end

theorem calls_push : Claims.Pushes := by
  intro s hi low e world spills room
  have entry : (fr s).exec ≠ 0#32 → callEntry (nextPc s) s = e := fun h0 => callEntry_of_exec h0 (nextPc s)
  refine ⟨fun p hint x => ⟨fun h0 hr => ?call, fun h0 hr => ?callNoLane, fun full => ?callFull, fun h hc hs => ?callUnreached⟩,
    fun a h0 hin => ⟨(callLane s a.toNat).toNat, ?calliNoLane⟩, fun a h0 hin hp => ?calli⟩
  case call =>
    exact ⟨_, execCall_room (hint := hint) (pushCauses_room hr), entry h0 ▸ goto_push _ _ hi⟩
  case callNoLane => exact ⟨_, _, execCall_room (hint := hint) (pushCauses_room hr), rfl, goto_push _ _ hi⟩
  case callFull => exact execCall_stopped (hint := hint) (pushCauses_full full)
  case callUnreached => exact execCall_stopped (hint := hint) (pushCauses_unreached h hc hs)
  case calliNoLane =>
    have hp := scalarPoison_of_exec_zero (w := me s) h0 [a.toNat]
    refine ⟨fun hc => ⟨_, execCalli_uncached hin hp hc, ?_⟩, fun hc y hr hy => ?_⟩
    · rw [fr_setFr _ _ hi.warp hi.frag]; exact ⟨rfl, rfl⟩
    · exact ⟨_, _, execCalli_room hin hp hc (pushCauses_room hr) hy, rfl, goto_push _ _ hi⟩
  case calli =>
    intro n code
    have hn : callLane s a.toNat = n := callLane_of_exec h0 _
    refine ⟨fun hc => ?_, fun hc => ⟨fun y hr hy => ?_, fun full => ?_, fun h none => ?_⟩⟩
    all_goals rw [← hn] at hc
    · refine ⟨_, execCalli_uncached hin hp hc, ?_⟩
      rw [fr_setFr _ _ hi.warp hi.frag, hn]; exact ⟨rfl, rfl, rfl⟩
    · exact ⟨_, execCalli_room hin hp hc (pushCauses_room hr) (hn ▸ hy), entry h0 ▸ goto_push _ _ hi⟩
    · exact execCalli_full hin hp hc full
    · rw [← hn]; exact execCalli_no_code hin hp hc h (hn ▸ none)

/-! ## The pop -/

/-- The warp with the newest entry of its link stack gone. -/
def popped (w : Warp) : Warp := { w with link := w.link.drop 1, onCore := w.onCore - 1 }

/-- A word as every lane takes it from a link stack entry. -/
def popLane (v : Word) (bad : Bool) : Lane := if bad then poisoned else clean v

/-- The rows that a pop puts in v254:v255. -/
def popRows (e : LinkEntry) : List (Nat × Row) :=
  [(254, rowOf fun _ => popLane (loWord e.sp) e.poisonLo), (255, rowOf fun _ => popLane (hiWord e.sp) e.poisonHi)]

theorem popInto_eq (w : Warp) (f : Frag) (e : LinkEntry) :
    popInto w f e = dirtied (writeRegs (popped w) f.frag 0#32 (popRows e)) [254, 255] := rfl

theorem touched_writeRegs (a z : Word) (ds : List (Nat × Row)) {s : State} (h : s.cur.warp < s.warps.length) :
    Touched (ds.map (·.1)) s (setMe s (dirtied (writeRegs (me s) a z ds) (ds.map (·.1)))) := by
  have rest := writeRegs_rest (me s) a z ds
  refine touched_setMe _ h (congrArg Warp.frags rest :) (fun r hr => writeRegs_other _ _ _ _ _ hr) ?_ (congrArg warpRest rest :)
    ⟨(congrArg Warp.departing rest :), (congrArg Warp.blocked rest :), (congrArg Warp.leftAt rest :)⟩
  exact congrArg ((ds.map (·.1)).foldl fun m r => m ||| dirtyBit r) (congrArg Warp.dirty rest :)

theorem regOf_writeRegs_pair {w : Warp} {d : Nat} (a z : Word) (lo hi : Row) (h : d + 1 < w.regs.length) :
    regOf (writeRegs w a z [(d, lo), (d + 1, hi)]) d = writeRow (regOf w d) lo a z ∧
      regOf (writeRegs w a z [(d, lo), (d + 1, hi)]) (d + 1) = writeRow (regOf w (d + 1)) hi a z := by
  let v : Warp := { w with regs := w.regs.set d (writeRow (regOf w d) lo a z) }
  have old (r : Nat) : regOf v r = if r = d then writeRow (regOf w d) lo a z else regOf w r := regOf_set w d r _ (by omega)
  have new (r : Nat) : regOf (writeRegs w a z [(d, lo), (d + 1, hi)]) r =
      if r = d + 1 then writeRow (regOf v (d + 1)) hi a z else regOf v r := regOf_set v (d + 1) r _ (by simpa [v] using h)
  constructor
  · rw [new, if_neg (by omega), old, if_pos rfl]
  · rw [new, if_pos rfl, old, if_neg (by omega)]

theorem laneAt_popRow (old : Row) (v : Lane) (m : Word) {l : Nat} (hl : l < 32) :
    laneAt (writeRow old (rowOf fun _ => v) m 0#32) l = if inMask m l then v else laneAt old l := by
  have nowhere : inMask 0#32 l = false := BitVec.getLsbD_zero
  rw [laneAt_writeRow _ _ _ _ l hl, laneAt_rowOf _ l hl, nowhere]
  rfl

theorem setMe_setMe (s : State) (v w : Warp) : setMe (setMe s v) w = setMe s w := by
  simp [setMe, setWarp]

section
variable {s : State} (hi : Issuing s) (e : LinkEntry)
include hi

theorem goto_popInto (pc : Pc) :
    GoesTo pc [254, 255] (setMe s (popped (me s))) (goto pc (setMe s (popInto (me s) (fr s) e))) := by
  have hp : Issuing (setMe s (popped (me s))) := issuing_setMe hi rfl rfl
  have h := touched_writeRegs (fr s).frag 0#32 (popRows e) hp.warp
  rw [me_setMe _ _ hi.warp, setMe_setMe] at h
  exact goto_goesTo pc hp.warp hp.frag h

theorem regOf_goto_popInto (pc : Pc) (r : Nat) :
    regOf (me (goto pc (setMe s (popInto (me s) (fr s) e)))) r = regOf (writeRegs (popped (me s)) (fr s).frag 0#32 (popRows e)) r := by
  rw [regOf, goto_regs _ _ (by simpa using hi.warp), me_setMe _ _ hi.warp]; rfl

theorem lanes_goto_popInto (pc : Pc) {l : Nat} (hl : l < 32) :
    lane (goto pc (setMe s (popInto (me s) (fr s) e))) 254 l =
        (if inMask (fr s).frag l then popLane (loWord e.sp) e.poisonLo else lane s 254 l) ∧
      lane (goto pc (setMe s (popInto (me s) (fr s) e))) 255 l =
        if inMask (fr s).frag l then popLane (hiWord e.sp) e.poisonHi else lane s 255 l := by
  obtain ⟨lo, hi'⟩ := regOf_writeRegs_pair (w := popped (me s)) (d := 254) (fr s).frag 0#32 (rowOf fun _ => popLane (loWord e.sp) e.poisonLo)
    (rowOf fun _ => popLane (hiWord e.sp) e.poisonHi) (by show _ < (me s).regs.length; rw [hi.regs]; decide)
  simp only [lane, regOf_goto_popInto hi]
  exact ⟨(congrArg (laneAt · l) lo).trans (laneAt_popRow _ _ _ hl), (congrArg (laneAt · l) hi').trans (laneAt_popRow _ _ _ hl)⟩

end

/-! ## RET -/

/-- The page of the block that a refill reads. -/
def refillPage (s : State) : Except Deny TlbEntry := pageFor s (me s).core (launchOf s (me s)).world (refillBlock (me s)).toNat

section
variable {s : State}

theorem execRet_empty (h : (me s).link = []) : execRet s = .next (raise { cls := 2, code := 0x041 } s) := by
  simp only [execRet, h, guarded_one]

variable {y : LinkEntry} {rest : List LinkEntry} (h : (me s).link = y :: rest)
include h

theorem execRet_refill {x : TlbEntry} (h0 : (me s).onCore = 0) (hx : refillPage s = .ok x) :
    execRet s = .next (setFr { s with nextId := s.nextId + 1 } { fr s with wait := .linkRefill s.nextId }) := by
  rw [refillPage] at hx
  simp only [execRet, h, beq_iff_eq, if_pos h0, hx]

theorem execRet_unreached (h0 : (me s).onCore = 0) (hx : ∀ x, refillPage s ≠ .ok x) :
    execRet s = .next (raise { cls := 3, code := 0x040, res := true, addr := refillBlock (me s), info := 1 } s) := by
  simp only [execRet, h, beq_iff_eq, if_pos h0]
  split
  · exact guarded_one ..
  · exact absurd ‹_› (hx _)

theorem execRet_pop (h0 : (me s).onCore ≠ 0) : execRet s = .next (goto y.ret (setMe s (popInto (me s) (fr s) y))) := by
  simp only [execRet, h, beq_iff_eq, if_neg h0]

end

theorem calls_return : Claims.Returns := by
  intro s hi block page
  refine ⟨execRet_empty, fun y rest h => ⟨fun h0 => ⟨fun ⟨x, hx⟩ => ?refill, execRet_unreached h h0⟩, fun h0 => ?pop⟩⟩
  case refill =>
    have waits := fr_setFr { s with nextId := s.nextId + 1 } { fr s with wait := .linkRefill s.nextId } hi.warp hi.frag
    exact ⟨_, execRet_refill h h0 hx, (congrArg Frag.wait waits :), (congrArg Frag.pc waits :), rfl⟩
  case pop =>
    have top : popped (me s) = { me s with link := rest, onCore := (me s).onCore - 1 } := by rw [popped, h]; rfl
    exact ⟨_, execRet_pop h h0, top ▸ goto_popInto hi y y.ret, fun l hl => lanes_goto_popInto hi y y.ret hl⟩

/-- Settles O24: CALL and CALLI by `push_eq` and the causes that stop a push, RET by what `popInto` writes. -/
theorem calls : Obligations.Calls := ⟨calls_push, calls_return⟩

end Sys2Proof.Machine
end

section
/-! PROOFS. LAUNCH, JOB and JOBWT (O37): the slot that an accepted task takes, what the task table keeps, the release before a task is handed
over, and the acquire after it is over (R241, R243, R290). -/

namespace Sys2Proof.Machine

open Sys2Proof Sys2Proof.Safety

/-! ## The least number found -/

theorem leastFrom_spec {f : Nat → Bool} {lo n i : Nat} (h : leastFrom f lo n = some i) : f i = true ∧ lo ≤ i ∧ i < lo + n := by
  induction n generalizing lo with
  | zero => cases h
  | succ n ih =>
    rw [leastFrom] at h
    split at h
    case isTrue hlo =>
      cases h
      exact ⟨hlo, Nat.le_refl _, by omega⟩
    case isFalse =>
      obtain ⟨hf, hlo, hn⟩ := ih h
      exact ⟨hf, by omega, by omega⟩

theorem exists_leastFrom {f : Nat → Bool} {lo n i : Nat} (hf : f i = true) (hlo : lo ≤ i) (hn : i < lo + n) :
    ∃ j, leastFrom f lo n = some j := by
  induction n generalizing lo with
  | zero => omega
  | succ n ih =>
    rw [leastFrom]
    split
    case isTrue => exact ⟨lo, rfl⟩
    case isFalse hne =>
      have : lo ≠ i := fun e => hne (e ▸ hf)
      exact ih (by omega) (by omega)

theorem freeSlot_spec {s : State} {slot : Nat} (h : freeSlot s = some slot) : slot < 512 ∧ (taskAt s slot).state = .free := by
  obtain ⟨hfree, -, hlt⟩ := leastFrom_spec h
  exact ⟨by omega, beq_iff_eq.1 hfree⟩

theorem exists_freeSlot {s : State} (h : ∃ i, i < 512 ∧ (taskAt s i).state = .free) : ∃ slot, freeSlot s = some slot := by
  obtain ⟨i, hlt, hfree⟩ := h
  exact exists_leastFrom (beq_iff_eq.2 hfree) (Nat.zero_le i) (by omega)

/-! ## A slot taken (R290) -/

/-- A task as `promote` leaves it: ready, where it was held and its edges are over. -/
def promoted (s : State) (k : Task) : Task := if k.state == .held && k.edges.all (edgeOver s) then { k with state := .ready } else k

theorem taskAt_promote (s : State) (i : Nat) : taskAt (promote s) i = promoted s (taskAt s i) := by
  show (s.tasks.map (promoted s)).getD i {} = promoted s (s.tasks.getD i {})
  rw [List.getD_eq_getElem?_getD, List.getD_eq_getElem?_getD, List.getElem?_map]
  cases s.tasks[i]? <;> rfl

/-- Promotion changes a task's state alone, and frees none. -/
theorem promoted_eq (s : State) (k : Task) : ∃ st, promoted s k = { k with state := st } ∧ (st = .free ↔ k.state = .free) := by
  unfold promoted
  split
  case isTrue h =>
    have held : k.state = .held := beq_iff_eq.1 (Bool.and_eq_true_iff.1 h).1
    exact ⟨.ready, rfl, by simp [held]⟩
  case isFalse => exact ⟨k.state, rfl, Iff.rfl⟩

theorem taskAt_takeSlot_self {s : State} {slot : Nat} (k : Task) (h : slot < s.tasks.length) : ∃ st, st ≠ .free ∧
    taskAt (takeSlot s slot k) slot = { k with state := st, seq := (taskAt s slot).seq + 1, order := s.accepted } := by
  rw [takeSlot, taskAt_promote]
  obtain ⟨st, e, free⟩ := promoted_eq { s with
    tasks := s.tasks.set slot { k with state := .held, seq := (taskAt s slot).seq + 1, order := s.accepted }, accepted := s.accepted + 1 }
    { k with state := .held, seq := (taskAt s slot).seq + 1, order := s.accepted }
  refine ⟨st, fun hst => by simp [hst] at free, ?_⟩
  rw [← e]
  congr 1
  simp [taskAt, List.getD, h]

theorem taskAt_takeSlot_other {s : State} {slot i : Nat} (k : Task) (h : i ≠ slot) : ∃ st,
    taskAt (takeSlot s slot k) i = { taskAt s i with state := st } ∧ (st = .free ↔ (taskAt s i).state = .free) := by
  rw [takeSlot, taskAt_promote]
  have same (t : Task) : taskAt { s with tasks := s.tasks.set slot t, accepted := s.accepted + 1 } i = taskAt s i := by
    simp [taskAt, List.getD, h.symm]
  rw [same]
  exact promoted_eq ..

theorem taken_of_least {t : State} {v : Verdict} {sts : List Nat} {slot : Nat} (h : v.least sts = .taken t slot) : v = .taken t slot := by
  unfold Verdict.least at h
  split at h
  · cases h
  · split at h
    · cases h
    · exact h

/-- A task table with tasks entered: the rest of the package is as it was, and so is what the tasks in flight run. -/
structure EntersTasks (s t : State) : Prop where
  rest : { t with tasks := s.tasks, accepted := s.accepted } = s
  kept : ∀ i, (taskAt s i).state ≠ .free → (taskAt t i).state ≠ .free ∧ (taskAt t i).body = (taskAt s i).body

namespace EntersTasks

theorem refl (s : State) : EntersTasks s s := ⟨rfl, fun _ h => ⟨h, rfl⟩⟩

theorem trans {s t u : State} (h : EntersTasks s t) (k : EntersTasks t u) : EntersTasks s u := by
  refine ⟨?_, fun i hi => ?_⟩
  · exact (congrArg (fun v : State => { v with tasks := s.tasks, accepted := s.accepted }) k.rest :).trans h.rest
  · obtain ⟨live, body⟩ := h.kept i hi
    exact ⟨(k.kept i live).1, (k.kept i live).2.trans body⟩

theorem takeSlot {s : State} {slot : Nat} (k : Task) (h : freeSlot s = some slot) : EntersTasks s (takeSlot s slot k) := by
  refine ⟨rfl, fun i hi => ?_⟩
  have other : i ≠ slot := fun e => hi (e ▸ (freeSlot_spec h).2)
  obtain ⟨st, e, free⟩ := taskAt_takeSlot_other (s := s) k other
  rw [e]
  exact ⟨fun hst => hi (free.1 hst), rfl⟩

theorem warps_eq {s t : State} (h : EntersTasks s t) : t.warps = s.warps := (congrArg State.warps h.rest :)
theorem cur_eq {s t : State} (h : EntersTasks s t) : t.cur = s.cur := (congrArg State.cur h.rest :)

theorem issuing {s t : State} (h : EntersTasks s t) (hi : Issuing s) : Issuing t := issuing_congr h.warps_eq h.cur_eq hi

theorem launchOf_me {s t : State} (h : EntersTasks s t) (live : (taskOf s (me s)).state ≠ .free) :
    launchOf t (me t) = launchOf s (me s) := by
  have slot : (teamOf t (me t)).task = (teamOf s (me s)).task :=
    (congrArg (fun u => (teamOf u (me u)).task) h.rest :)
  rw [launchOf, taskOf, slot, Task.launch, (h.kept _ live).2]; rfl

theorem enterJob {s t : State} {a : Asker} {tenant prio slot : Nat} {card : JobCard} {cold : Option (Nat × DWord)}
    (h : enterJob s a tenant prio card cold = some (t, slot)) : EntersTasks s t := by
  unfold Machine.enterJob at h
  split at h
  · cases h
  · cases h
    exact .takeSlot _ ‹_›

theorem enterJobs {s t : State} {a : Asker} {l : Launch} {cold : Option (Nat × DWord)} {cards : List JobCard} {es : List Edge}
    (h : enterJobs s a l cold cards = some (t, es)) : EntersTasks s t := by
  induction cards generalizing s es with
  | nil => cases h; exact .refl _
  | cons c rest ih =>
    unfold Machine.enterJobs at h
    split at h
    · cases h
    · split at h
      · cases h
      · cases h
        exact (enterJob ‹_›).trans (ih ‹_›)

theorem enterLaunch {s t : State} {a : Asker} {l : Launch} {r : Resolved} {slot : Nat} (h : enterLaunch s a l r = .taken t slot) :
    EntersTasks s t := by
  unfold Machine.enterLaunch at h
  dsimp only at h
  split at h
  · cases h
  · split at h
    · cases h
    · cases h
      exact (enterJobs ‹_›).trans (.takeSlot _ ‹_›)

theorem acceptLaunch {s t : State} {a : Asker} {bs : List Byte} {slot : Nat} (h : acceptLaunch s a bs = .taken t slot) :
    EntersTasks s t := by
  unfold Machine.acceptLaunch at h
  dsimp only at h
  split at h
  · cases h
  · split at h
    · cases h
    · exact enterLaunch h

theorem word {s : State} {v : Verdict} (h : ∀ t slot, v = .taken t slot → EntersTasks s t) : EntersTasks s (v.word s).1 := by
  cases v with
  | taken t slot => exact h t slot rfl
  | refused st => exact .refl s
  | full => exact .refl s

theorem deviceLaunch (s : State) (va : Nat) : EntersTasks s (deviceLaunch s va).1 := by
  unfold Machine.deviceLaunch
  dsimp only
  split
  · exact .refl s
  · exact word fun t slot h => acceptLaunch (taken_of_least h)

theorem deviceJob (s : State) (va : Nat) : EntersTasks s (deviceJob s va).1 := by
  unfold Machine.deviceJob
  dsimp only
  split
  · exact .refl s
  · split
    · exact .refl s
    · split
      · exact enterJob ‹_›
      · exact .refl s

end EntersTasks

/-! ## Destinations written with EXEC as the lanes -/

theorem touched_execDests (ds : List (Nat × Row)) {s : State} (h : s.cur.warp < s.warps.length) :
    Touched (ds.map (·.1)) s (execDests ds s) := touched_writeRegs _ _ _ h

theorem execAndGo_retired (ds : List (Nat × Row)) {s : State} (hi : Issuing s) : Retired (ds.map (·.1)) s (execAndGo ds s) := by
  have h := holdRegs_touched (ds.map (·.1)) false hi.warp (touched_execDests ds hi.warp)
  have next : nextPc (holdRegs (ds.map (·.1)) false (execDests ds s)) = nextPc s := by simp [nextPc, fr, h.frags, h.cur]
  rw [execAndGo, advance, next]
  exact goto_goesTo _ hi.warp hi.frag h

/-- The issue counts of a team, which `packageRest` leaves out, say nothing of its task. -/
theorem teamById_packageRest_task (s : State) (id : Nat) : (teamById (packageRest s) id).task = (teamById s id).task := by
  have found : (packageRest s).teams.find? (fun t => t.id == id) =
      (s.teams.find? fun t => t.id == id).map fun t => { t with perf := ((t.perf.set 0 0).set 1 0).set 2 0 } := by
    rw [packageRest, List.find?_map]; rfl
  rw [teamById, teamById, found]
  cases s.teams.find? fun t => t.id == id <;> rfl

theorem launchOf_packageRest (s : State) (w : Warp) : launchOf (packageRest s) w = launchOf s w := by
  rw [launchOf, taskOf, teamOf, teamById_packageRest_task]; rfl

theorem launchOf_of_goesTo {pc : Pc} {rs : List Nat} {s t : State} (h : GoesTo pc rs s t) : launchOf t (me t) = launchOf s (me s) := by
  rw [← launchOf_packageRest, h.package, launchOf_packageRest, launchOf, taskOf, teamOf, warpRest_team h.warp]; rfl

/-! ## Before a task is handed over -/

/-- The state after the release at package scope, with the core's PRIV lines at their homes. -/
def handed (s : State) : State := evictPrivate (releaseActs s (me s).core 4) (me s).core

theorem besideMemory_handed (s : State) : besideMemory (handed s) = besideMemory s :=
  (besideMemory_of_besideHomes (besideHomes_evictPrivate ..)).trans (besideMemory_releaseActs ..)

section
variable {s : State} {effect : State → State} (hd : holds s (me s) (.drained true) = true)
include hd

theorem submit_compare (hm : mustCompare s = true) : submit [] effect s = .next (standAt 6 s) := by
  rw [submit, if_pos (by simp [hd, hm])]

theorem submit_handed (hm : mustCompare s = false) : submit [] effect s = .next (effect (handed s)) := by
  have drained : ¬ (!holds s (me s) (.drained (decide (4 ≤ 4)))) = true := by simp [hd]
  have core : (me (releaseActs s (me s).core 4)).core = (me s).core := by rw [me_of_besideMemory (besideMemory_releaseActs ..)]
  rw [submit, if_neg (by simp [hm])]
  show releaseThen 4 _ s = _
  rw [releaseThen, if_neg drained, core]
  rfl

end

/-- Handing a task over leaves the issuing warp its launch. -/
theorem handed_enters {s u : State} (hi : Issuing s) (live : (taskAt s (teamOf s (me s)).task).state ≠ .free)
    (h : EntersTasks (handed s) u) : Issuing u ∧ launchOf u (me u) = launchOf s (me s) := by
  have hh := besideMemory_handed s
  have task : taskOf (handed s) (me (handed s)) = taskOf s (me s) := by rw [me_of_besideMemory hh, taskOf_of_besideMemory hh]
  refine ⟨h.issuing (issuing_of_besideMemory hh hi), (h.launchOf_me (task ▸ live)).trans ?_⟩
  rw [launchOf, task]; rfl

theorem forTwin_of_not_redundant {s : State} (h : isRedundant s (me s) = false) (kind : Nat) (f : Frag) (lanes : Option Word)
    (g : State → State) : forTwin kind f lanes g s = s := by rw [forTwin, h]; rfl

/-- An answer given in a launch with one copy is given once. -/
theorem forTwin_answerTask {s u : State} (hu : Issuing u) (launch : launchOf u (me u) = launchOf s (me s))
    (h : isRedundant s (me s) = false) (kind : Nat) (f : Frag) (lanes : Option Word) (g : State → State) (d : Nat) (w : Word) :
    forTwin kind f lanes g (answerTask d w u) = execAndGo [(d, splat w)] u := by
  refine forTwin_of_not_redundant ?_ ..
  rw [isRedundant, answerTask, launchOf_of_goesTo (execAndGo_retired [(d, splat w)] hu), launch]
  exact h

/-! ## LAUNCH and JOB -/

theorem execLaunch_exec_zero {d a : BitVec 8} {s : State} (h0 : (fr s).exec = 0#32) : execLaunch d a s = .next (advance s) :=
  if_pos (beq_iff_eq.2 h0)

theorem execJob_exec_zero {d a : BitVec 8} {s : State} (h0 : (fr s).exec = 0#32) : execJob d a s = .next (advance s) :=
  if_pos (beq_iff_eq.2 h0)

/-- JOB's count in CNT.CP of an accepted job. -/
def countJob (w : Word) (s : State) : State := if w.getLsbD 31 then s else setMe s { me s with cntCp := (me s).cntCp + 1 }

theorem issuing_countJob (w : Word) {s : State} (hi : Issuing s) : Issuing (countJob w s) := by
  unfold countJob
  split
  · exact hi
  · exact issuing_setMe hi rfl rfl

theorem launchOf_countJob (w : Word) {s : State} (hi : Issuing s) : launchOf (countJob w s) (me (countJob w s)) = launchOf s (me s) := by
  unfold countJob
  split
  · rfl
  · rw [me_setMe _ _ hi.warp]; rfl

section
variable {d a : BitVec 8} {s : State} (h0 : (fr s).exec ≠ 0#32) (hin : Inside (d.toNat :: regRun a.toNat 2) s)
  (hp : scalarPoison (me s) (fr s) (regRun a.toNat 2) = 0#32) (hd : holds s (me s) (.drained true) = true)
include h0 hin hp hd

theorem execLaunch_compare (hm : mustCompare s = true) : execLaunch d a s = .next (standAt 6 s) := by
  rw [execLaunch, if_neg (by simpa using h0), taskCauses, scalarCauses_eq_nil hin hp, submit_compare hd hm]

theorem execJob_compare (hc : (me s).cntCp < 64) (hm : mustCompare s = true) : execJob d a s = .next (standAt 6 s) := by
  have counter : holds s (me s) (.counter .cp) = true := decide_eq_true hc
  rw [execJob, if_neg (by simpa using h0), if_neg (by simp [counter]), taskCauses, scalarCauses_eq_nil hin hp, submit_compare hd hm]

variable (hi : Issuing s) (live : (taskAt s (teamOf s (me s)).task).state ≠ .free) (hr : isRedundant s (me s) = false)
include hi live hr

theorem execLaunch_handed {u : State} {w : Word} (h : deviceLaunch (handed s) (scalarPair (me s) (fr s) a.toNat).toNat = (u, w)) :
    execLaunch d a s = .next (execAndGo [(d.toNat, splat w)] u) := by
  have enters := EntersTasks.deviceLaunch (handed s) (scalarPair (me s) (fr s) a.toNat).toNat
  rw [h] at enters
  obtain ⟨hu, launch⟩ := handed_enters hi live enters
  have hm : mustCompare s = false := by rw [mustCompare, hr]; rfl
  rw [execLaunch, if_neg (by simpa using h0), taskCauses, scalarCauses_eq_nil hin hp, submit_handed hd hm,
    me_of_besideMemory (besideMemory_handed s), fr_of_besideMemory (besideMemory_handed s), h]
  exact congrArg _ (forTwin_answerTask hu launch hr ..)

theorem execJob_handed (hc : (me s).cntCp < 64) {u : State} {w : Word}
    (h : deviceJob (handed s) (scalarPair (me s) (fr s) a.toNat).toNat = (u, w)) :
    execJob d a s = .next (execAndGo [(d.toNat, splat w)] (countJob w u)) := by
  have enters := EntersTasks.deviceJob (handed s) (scalarPair (me s) (fr s) a.toNat).toNat
  rw [h] at enters
  obtain ⟨hu, launch⟩ := handed_enters hi live enters
  have hm : mustCompare s = false := by rw [mustCompare, hr]; rfl
  have counter : holds s (me s) (.counter .cp) = true := decide_eq_true hc
  rw [execJob, if_neg (by simpa using h0), if_neg (by simp [counter]), taskCauses, scalarCauses_eq_nil hin hp, submit_handed hd hm,
    me_of_besideMemory (besideMemory_handed s), fr_of_besideMemory (besideMemory_handed s), h]
  exact congrArg _ (forTwin_answerTask (issuing_countJob w hu) ((launchOf_countJob w hu).trans launch) hr ..)

end

/-! ## Tasks that are accepted (R241) -/

/-- A task word names a slot that was free and now holds a task of an asker; no warp has changed. -/
def Entered (s u : State) (w : Word) (a : Asker) (body : Body) : Prop := ∃ slot, slot < 512 ∧ w = taskWord u slot ∧ w.getLsbD 31 = false ∧
  (taskAt s slot).state = .free ∧ (taskAt u slot).state ≠ .free ∧ (taskAt u slot).seq = (taskAt s slot).seq + 1 ∧
  (taskAt u slot).body = body ∧ (taskAt u slot).world = a.world ∧ (taskAt u slot).vdev = a.vdev ∧ u.warps = s.warps

theorem Entered.accepted {s u : State} {w : Word} {a : Asker} {body : Body} (h : Entered s u w a body) : w.getLsbD 31 = false := by
  obtain ⟨-, -, -, bit, -⟩ := h
  exact bit

theorem Entered.of_besideMemory {r s u : State} {w : Word} {a : Asker} {body : Body} (hr : besideMemory r = besideMemory s)
    (h : Entered r u w a body) : Entered s u w a body := by
  have tasks (slot : Nat) : taskAt r slot = taskAt s slot := by rw [taskAt, taskAt, tasks_of_besideMemory hr]
  simpa only [Entered, tasks, warps_of_besideMemory hr] using h

/-- The word of an accepted task has no refusal's bit: a sequence number and a slot take 31 bits. -/
theorem taskWord_accepted (s : State) {slot : Nat} (h : slot < 512) : (taskWord s slot).getLsbD 31 = false := by
  have seq := (taskAt s slot).seq.isLt
  have small : (taskAt s slot).seq.toNat * 512 + slot < 2 ^ 31 := by omega
  rw [taskWord, BitVec.getLsbD_ofNat, Nat.testBit_lt_two_pow small, Bool.and_false]

theorem entered_takeSlot {s : State} {slot : Nat} {k : Task} {a : Asker} (hlen : s.tasks.length = 512) (hf : freeSlot s = some slot)
    (hw : k.world = a.world) (hv : k.vdev = a.vdev) :
    Entered s (takeSlot s slot k) (taskWord (takeSlot s slot k) slot) a k.body := by
  obtain ⟨hlt, hfree⟩ := freeSlot_spec hf
  obtain ⟨st, live, e⟩ := taskAt_takeSlot_self (s := s) k (hlen ▸ hlt)
  refine ⟨slot, hlt, rfl, taskWord_accepted _ hlt, hfree, ?_⟩
  rw [e]
  exact ⟨live, rfl, rfl, hw, hv, rfl⟩

theorem deviceStatuses_of_takesTasks {s : State} (h : Claims.TakesTasks s) : deviceStatuses s (deviceAsker s) false = [] := by
  obtain ⟨slot, hf⟩ := exists_freeSlot h.room
  have depth : ¬ 15 < (deviceAsker s).ancestors.length := Nat.not_lt.2 h.depth
  rw [deviceStatuses, h.device, h.world, hf, if_neg depth]; rfl

theorem enterLaunch_of_no_jobs {s : State} {a : Asker} {l : Launch} {x : Resolved} {slot : Nat} (hj : x.jobs = [])
    (hf : freeSlot s = some slot) : ∃ k : Task, k.body = .launch l ∧ k.world = a.world ∧ k.vdev = a.vdev ∧
      enterLaunch s a l x = .taken (takeSlot s slot k) slot := by
  simp only [enterLaunch, hj, ite_self, enterJobs, hf]
  exact ⟨_, rfl, rfl, rfl, rfl⟩

theorem acceptLaunch_of_no_status {s : State} {a : Asker} {bs : List Byte} {x : Resolved}
    (hx : resolve s bs (a.adopt (launchAt bs)) = .ok x)
    (fixed : fixedStatuses s (grantsOf s a.world) bs (a.adopt (launchAt bs)) a.world a.vdev = [])
    (body : bodyStatuses s (grantsOf s a.world) x.record (a.adopt (launchAt x.record)) a.world a.vdev = []) :
    acceptLaunch s a bs = enterLaunch s a (a.adopt (launchAt x.record)) x := by
  simp only [acceptLaunch, hx, fixed, body]
  rfl

section
variable {s : State} {va : Nat} {bs : List Byte} (ht : Claims.TakesTasks s)
include ht

theorem deviceLaunch_entered {x : Resolved} (hb : deviceBytes s (deviceAsker s) va 512 = some bs)
    (hx : resolve s bs ((deviceAsker s).adopt (launchAt bs)) = .ok x) (hj : x.jobs = [])
    (fixed : fixedStatuses s (grantsOf s (deviceAsker s).world) bs ((deviceAsker s).adopt (launchAt bs)) (deviceAsker s).world
      (deviceAsker s).vdev = [])
    (body : bodyStatuses s (grantsOf s (deviceAsker s).world) x.record ((deviceAsker s).adopt (launchAt x.record)) (deviceAsker s).world
      (deviceAsker s).vdev = []) :
    ∃ u w, deviceLaunch s va = (u, w) ∧ Entered s u w (deviceAsker s) (.launch ((deviceAsker s).adopt (launchAt x.record))) := by
  obtain ⟨slot, hf⟩ := exists_freeSlot ht.room
  obtain ⟨k, hbody, hw, hv, taken⟩ := enterLaunch_of_no_jobs (a := deviceAsker s) (l := (deviceAsker s).adopt (launchAt x.record)) hj hf
  refine ⟨_, _, ?_, hbody ▸ entered_takeSlot ht.table hf hw hv⟩
  simp only [deviceLaunch, hb, deviceStatuses_of_takesTasks ht, acceptLaunch_of_no_status hx fixed body, taken]
  rfl

theorem deviceJob_entered (hb : deviceBytes s (deviceAsker s) va 64 = some bs) (zero : cardZeroBad bs = false)
    (sound : cardBad (cardAt bs) = false) (dst : inOwnRegion s (cardAt bs).dst.toNat (cardAt bs).len 2 = true)
    (src : (cardAt bs).kind = 1 ∨ inOwnRegion s (cardAt bs).src.toNat (cardAt bs).len 1 = true) :
    ∃ u w, deviceJob s va = (u, w) ∧ Entered s u w (deviceAsker s) (.job (cardAt bs)) := by
  obtain ⟨slot, hf⟩ := exists_freeSlot ht.room
  have srcOk : ((cardAt bs).kind != 1 && !inOwnRegion s (cardAt bs).src.toNat (cardAt bs).len 1) = false := by
    rcases src with h | h <;> simp [h]
  simp only [deviceJob, hb, zero, sound, dst, srcOk, Bool.not_true, Bool.or_self, Bool.false_eq_true, if_false, List.nil_append,
    deviceStatuses_of_takesTasks ht, enterJob, hf]
  exact ⟨_, _, rfl, entered_takeSlot ht.table hf rfl rfl⟩

end

/-! ## JOBWT (R243) -/

theorem goto_mem (pc : Pc) (s : State) : (goto pc s).mem = s.mem := by
  unfold goto
  dsimp only
  split <;> simp only [setMe_mem, setFr_mem, countIssue_mem]

/-- Going on leaves what a state has of the memory system as it is. -/
theorem eq_of_advance {s t : State} (h : besideHomes t = besideHomes s) (package : packageRest (advance t) = packageRest t) :
    { s with l1 := (advance t).l1, mem := (advance t).mem, sharers := (advance t).sharers, gateways := (advance t).gateways
             waiters := (advance t).waiters } = t := by
  have mem : (advance t).mem = t.mem := goto_mem ..
  have l1 : (advance t).l1 = t.l1 := (congrArg State.l1 package :)
  have sharers : (advance t).sharers = t.sharers := (congrArg State.sharers package :)
  have gateways : (advance t).gateways = t.gateways := (congrArg State.gateways package :)
  have waiters : (advance t).waiters = t.waiters := (congrArg State.waiters package :)
  rw [mem, l1, sharers, gateways, waiters]
  exact (eq_of_besideHomes h).symm

/-- What JOBWT does to the memory system once its task is over. -/
def acquired (s : State) : State := acquireActs (evictPrivate s (me s).core) (me s).core 4

theorem besideHomes_acquired (s : State) : besideHomes (acquired s) = besideHomes s :=
  (besideHomes_acquireActs ..).trans (besideHomes_evictPrivate ..)

theorem acquired_not_priv {s : State} {x : L1Line} (hx : x ∈ (acquired s).l1) (hc : x.core = (me s).core) : x.kind ≠ .priv := by
  obtain ⟨y, hy, kept⟩ := List.mem_filterMap.1 (show x ∈ (invalidateClean _ _).l1 from hx)
  have notPriv : ¬ (y.core = (me s).core ∧ y.kind = .priv) := fun ⟨hcore, hkind⟩ => by
    have left := (List.mem_filter.1 hy).2
    simp only [hcore, hkind, beq_self_eq_true, Bool.and_self, Bool.not_true, Bool.false_eq_true] at left
  have same : x.core = y.core ∧ x.kind = y.kind := by
    split at kept
    · unfold lineStale at kept
      split at kept <;> cases kept
      exact ⟨rfl, rfl⟩
    · cases kept
      exact ⟨rfl, rfl⟩
  exact fun hk => notPriv ⟨same.1 ▸ hc, same.2 ▸ hk⟩

/-- With no dirty PRIV line nothing is written back. -/
theorem evictPrivate_mem_of_clean {s : State} {core : Nat} (h : ∀ x ∈ s.l1, x.core = core → x.kind = .priv → x.dirty = 0) :
    (evictPrivate s core).mem = s.mem := by
  have none : s.l1.filter (fun x => (x.core == core && x.kind == .priv) && x.dirty != 0) = [] :=
    List.filter_eq_nil_iff.2 fun x hx => by simpa using h x hx
  show (writeBack s _).mem = _
  rw [writeBack, none]; rfl

section
variable {a : BitVec 8} {s : State}

theorem execJobwt_exec_zero (h0 : (fr s).exec = 0#32) : execJobwt a s = .next (advance s) := if_pos (beq_iff_eq.2 h0)

variable (h0 : (fr s).exec ≠ 0#32) (hin : Inside [a.toNat] s) (hp : scalarPoison (me s) (fr s) [a.toNat] = 0#32)
include h0 hin hp

theorem execJobwt_over (h : taskOver s (scalarAt (me s) (fr s) a.toNat) = true) : execJobwt a s = .next (advance (acquired s)) := by
  rw [execJobwt, if_neg (by simpa using h0), if_neg (by simp [h]), scalarCauses_eq_nil hin hp]; rfl

theorem execJobwt_waits (h : taskOver s (scalarAt (me s) (fr s) a.toNat) = false) :
    execJobwt a s = .next (waitFor (.task (scalarAt (me s) (fr s) a.toNat)) s) := by
  rw [execJobwt, if_neg (by simpa using h0), scalarCauses_eq_nil hin hp, if_pos (by simp [h])]

end

/-! ## The obligation -/

/-- Settles O37: what is handed over and how it is answered, the records and cards that are accepted, and JOBWT. -/
theorem deviceTasks : Obligations.DeviceTasks := by
  intro d a s hi live r va word asker entered
  have hr : besideMemory r = besideMemory s := besideMemory_handed s
  refine ⟨fun h0 => ?noLane, fun h0 hin hp hd => ⟨fun hm => ?compare, fun single => ⟨?launch, ?job, ?launchTaken, ?jobTaken⟩⟩,
    fun h0 hin hp => ⟨fun ended => ?ended, execJobwt_waits h0 hin hp⟩⟩
  case noLane =>
    simp only [List.mem_cons, List.not_mem_nil, or_false]
    rintro i (rfl | rfl | rfl)
    · exact ⟨_, execLaunch_exec_zero h0, advance_retired hi⟩
    · exact ⟨_, execJob_exec_zero h0, advance_retired hi⟩
    · exact ⟨_, execJobwt_exec_zero h0, advance_retired hi⟩
  case compare => exact ⟨execLaunch_compare h0 hin hp hd hm, fun hc => execJob_compare h0 hin hp hd hc hm⟩
  case launch => exact fun u w h => execLaunch_handed h0 hin hp hd hi live single h
  case job => exact fun hc u w h => execJob_handed h0 hin hp hd hi live single hc h
  case launchTaken =>
    intro ht bs x hb hx hj fixed body
    obtain ⟨u, w, h, he⟩ := deviceLaunch_entered ht hb hx hj fixed body
    exact ⟨u, w, execLaunch_handed h0 hin hp hd hi live single h, he.of_besideMemory hr⟩
  case jobTaken =>
    intro hc ht bs hb zero sound dst src
    obtain ⟨u, w, h, he⟩ := deviceJob_entered ht hb zero sound dst src
    have counted : countJob w u = setMe u { me u with cntCp := (me u).cntCp + 1 } := by rw [countJob, he.accepted]; rfl
    exact ⟨u, w, counted ▸ execJob_handed h0 hin hp hd hi live single hc h, he.of_besideMemory hr⟩
  case ended =>
    have beside := besideHomes_acquired s
    have retired := advance_retired (issuing_of_besideMemory (besideMemory_of_besideHomes beside) hi)
    have l1 : (advance (acquired s)).l1 = (acquired s).l1 := (congrArg State.l1 retired.package :)
    refine ⟨_, execJobwt_over h0 hin hp ended, ?_, fun x hx => acquired_not_priv (l1 ▸ hx), fun clean x => ?_⟩
    · rw [eq_of_advance beside retired.package]
      exact retired
    · have kept : (advance (acquired s)).mem = s.mem := (goto_mem ..).trans (evictPrivate_mem_of_clean clean)
      rw [kept]
      exact ⟨rfl, rfl⟩

end Sys2Proof.Machine
end

section
/-! PROOFS. The admission unit (O43): what a request's place in its ring gives, what is taken of a request, and how a job ends.  The unit
writes memory through `putWords` and `putCode` alone, which leave everything beside the homes as it is; so each outcome's lists are read
off the state before that write, and its record off the memory after it. -/

namespace Sys2Proof.Machine

open Sys2Proof

/-! ## Words written at their homes -/

@[simp] theorem length_toBytes (n v : Nat) : (toBytes n v).length = n := by
  induction n generalizing v with
  | zero => rfl
  | succ n ih => simp [toBytes, ih]

theorem length_flatMap_words (ws : List Nat) : (ws.flatMap (toBytes 4)).length = 4 * ws.length := by
  induction ws with
  | nil => rfl
  | cons w ws ih => simp only [List.flatMap_cons, List.length_append, List.length_cons, length_toBytes, ih]; omega

theorem homeWrite_mem {a : Nat} (h : inBlock a = false) (s : State) (bs : List Byte) (p : Bool) :
    (homeWrite s a bs p).mem = s.mem.write a bs p := by
  rw [homeWrite, h]; rfl

section
variable {s : State} {world va a : Nat} (hp : frontPage s world va .write = some a) (hb : inBlock a = false) (hwf : s.mem.wf = true)
include hp hb hwf

theorem read_putWords (ws : List Nat) : (putWords s world va ws).mem.read a (4 * ws.length) = ws.flatMap (toBytes 4) := by
  have written : (putWords s world va ws).mem = s.mem.write a (ws.flatMap (toBytes 4)) false := by
    simp only [putWords, hp, homeWrite_mem hb]
  rw [written, ← length_flatMap_words, read_write hwf]

/-- A record of eight words has nothing filled up. -/
theorem read_putStatus {ws : List Nat} (h : ws.length = 8) : (putStatus s world va ws).mem.read a 32 = ws.flatMap (toBytes 4) := by
  have full : putStatus s world va ws = putWords s world va ws := by
    rw [putStatus, h, Nat.sub_self, List.replicate_zero, List.append_nil]
  rw [full, ← read_putWords hp hb hwf, h]

end

theorem besideHomes_putWords (s : State) (world va : Nat) (ws : List Nat) : besideHomes (putWords s world va ws) = besideHomes s := by
  unfold putWords
  split
  · exact besideHomes_homeWrite ..
  · rfl

theorem besideHomes_putStatus (s : State) (world va : Nat) (ws : List Nat) : besideHomes (putStatus s world va ws) = besideHomes s :=
  besideHomes_putWords ..

theorem besideHomes_putCode (frames : List (Nat × Nat)) (s : State) (va w : Nat) : besideHomes (putCode frames s va w) = besideHomes s := by
  unfold putCode
  split
  · exact besideHomes_homeWrite ..
  · rfl

theorem besideHomes_patchImport (frames : List (Nat × Nat)) (code : Nat) (m : Image) (s : State) (x : Import × Nat) :
    besideHomes (patchImport frames code m s x) = besideHomes s :=
  (besideHomes_putCode ..).trans (besideHomes_putCode ..)

/-! ## A request's place in its ring (R72) -/

/-- A kick and a later reading of the slot do the same. -/
theorem execAduSlotReread_eq (w : Nat) (s : State) : execAduSlotReread w s = execAduKick w s := rfl

section
variable {s : State} {w : Nat}

theorem execAduKick_unread (h : aduSlot s w = .unread) : execAduKick w s = .next (stopRing s w) := by simp only [execAduKick, h]

theorem execAduRequestConsume_unread (h : aduSlot s w = .unread) : execAduRequestConsume w s = .next (stopRing s w) := by
  simp only [execAduRequestConsume, h]

theorem execAduKick_read (h : aduSlot s w ≠ .unread) : execAduKick w s = .next s := by
  unfold execAduKick
  split
  · contradiction
  · rfl

end

/-- The state after a request is taken and HEAD of its ring is written. -/
def headAdvanced (s : State) (w head : Nat) (b : List Byte) : State :=
  putWords (takeRequest s w (head % 64) b) w ((s.worlds.getD w {}).aring.toNat + 4) [(head + 1) % 2 ^ 32]

theorem execAduRequestConsume_valid {s : State} {w head : Nat} {b : List Byte} (h : aduSlot s w = .valid head b) :
    execAduRequestConsume w s = .next { headAdvanced s w head b with
      tenantSlots := (headAdvanced s w head b).tenantSlots.filter fun x => x != (w, head % 64) } := by
  simp only [execAduRequestConsume, h, headAdvanced]

theorem besideHomes_headAdvanced (s : State) (w head : Nat) (b : List Byte) :
    besideHomes (headAdvanced s w head b) = besideHomes (takeRequest s w (head % 64) b) :=
  besideHomes_putWords ..

/-! ## A request taken (R73 to R76, R380) -/

/-- The job that a request begins, whose image has been read. -/
def jobFor (s : State) (w : Nat) (b img : List Byte) : AduJob :=
  { world := w, kind := field b 0x0C 0 2, addr := (dwordIn b 0).toNat, len := field b 8 0 32, status := (dwordIn b 0x18).toNat
    digest := sha384 img, image := img, frames := codeFrames s w (dwordIn b 0).toNat (field b 0x0C 0 2) img }

/-- The state in which that job is in checking. -/
def jobBegun (s : State) (w : Nat) (b img : List Byte) : State :=
  { startChecking s (jobFor s w b img).frames with adu := s.adu ++ [jobFor s w b img] }

/-- What becomes of a request with a record and an image that can be reached: the code where it is malformed, the old module where the
image is sealed already, and a job otherwise. -/
theorem takeRequest_eq {s : State} {w : Nat} {b img : List Byte} (slot : Nat) (aligned : (dwordIn b 0x18).toNat % 32 = 0)
    (writable : (frontPage s w (dwordIn b 0x18).toNat .write).isSome = true) (page : (dwordIn b 0).toNat % 65536 = 0)
    (short : field b 8 0 32 ≤ 0x4000000) (read : frontRead s w (dwordIn b 0).toNat (field b 8 0 32) = some img) :
    takeRequest s w slot b = (malformedCode s w slot b (some img)).elim
      ((sameModule s w (field b 0x0C 0 2) (field b 8 0 32) (sha384 img)).elim (jobBegun s w b img)
        fun m => putStatus s w (dwordIn b 0x18).toNat (acceptedWords m))
      fun c => putStatus s w (dwordIn b 0x18).toNat [2, c] := by
  have placed : (frontPage s w (dwordIn b 0x18).toNat .write).isNone = false := by rw [← Option.not_isSome, writable]; rfl
  simp only [takeRequest, aligned, placed, page, short, read, bne_self_eq_false, Bool.or_self, Bool.false_eq_true, if_false,
    beq_self_eq_true, decide_true, Bool.and_self, if_true, Option.getD_some]
  cases malformedCode s w slot b (some img) with
  | some c => rfl
  | none => cases sameModule s w (field b 0x0C 0 2) (field b 8 0 32) (sha384 img) <;> rfl

/-! ## Pages sealed (R100) -/

/-- A page is sealed in Table ADM.2 and in its ownership byte. -/
def PageSealed (s : State) (p : Nat) : Prop := pageState s p = .sealed ∧ (ownerOf s p).sealed = true

/-- The ownership byte of a page once it is sealed. -/
def sealedOwner (s : State) (p : Nat) : PageOwner := { ownerOf s p with sealed := true }

/-- The state with a page sealed. -/
def sealPage (s : State) (p : Nat) : State :=
  { s with pages := put s.pages p .sealed, owners := sealedOwner s p :: s.owners.filter fun o => o.page != p }

theorem sealPage_owners (s : State) (p : Nat) : (sealPage s p).owners = sealedOwner s p :: s.owners.filter fun o => o.page != p := rfl

theorem sealedOwner_page (s : State) (p : Nat) : (sealedOwner s p).page = p := by
  show (ownerOf s p).page = p
  unfold ownerOf
  cases h : s.owners.find? fun o => o.page == p with
  | none => rfl
  | some o => exact beq_iff_eq.1 (List.find?_some h :)

theorem ownerOf_sealPage_self (s : State) (p : Nat) : ownerOf (sealPage s p) p = sealedOwner s p := by
  simp only [ownerOf, sealPage_owners, List.find?_cons, sealedOwner_page, beq_self_eq_true, Option.getD_some]

theorem ownerOf_sealPage_of_ne {p q : Nat} (h : p ≠ q) (s : State) : ownerOf (sealPage s q) p = ownerOf s p := by
  have entry : ∀ o : PageOwner, decide ((o.page != q) = true ∧ (o.page == p) = true) = (o.page == p) := fun o => by
    by_cases ho : o.page = p
    · simp [ho, h]
    · simp [ho]
  simp only [ownerOf, sealPage_owners, List.find?_cons, sealedOwner_page, beq_false_of_ne h.symm, List.find?_filter, entry]

theorem pageSealed_sealPage_self (s : State) (p : Nat) : PageSealed (sealPage s p) p :=
  ⟨look_put_self .., congrArg PageOwner.sealed (ownerOf_sealPage_self s p)⟩

theorem pageSealed_sealPage {s : State} {p : Nat} (h : PageSealed s p) (q : Nat) : PageSealed (sealPage s q) p := by
  by_cases e : p = q
  · rw [e]; exact pageSealed_sealPage_self s q
  · obtain ⟨page, owner⟩ := h
    exact ⟨(look_put_of_ne e ..).trans page, by rw [ownerOf_sealPage_of_ne e, owner]⟩

/-- A page that is sealed, or that is sealed in turn, is sealed in the end. -/
theorem pageSealed_foldl {p : Nat} (frames : List (Nat × Nat)) {s : State} (h : PageSealed s p ∨ ∃ f ∈ frames, f.2 = p) :
    PageSealed (frames.foldl (fun s f => sealPage s f.2) s) p := by
  induction frames generalizing s with
  | nil => simpa using h
  | cons f fs ih =>
    refine ih ?_
    rcases h with h | ⟨g, hg, rfl⟩
    · exact .inl (pageSealed_sealPage h f.2)
    · rcases List.mem_cons.1 hg with rfl | hg
      · exact .inl (pageSealed_sealPage_self s _)
      · exact .inr ⟨g, hg, rfl⟩

/-! ## The end of a job (R74, R76, R381) -/

/-- The state in which a world's job is over, before its outcome takes effect. -/
def jobEnded (s : State) (w : Nat) : State := { s with adu := s.adu.filter fun j => j.world != w }

theorem world_ne_of_mem_jobEnded {s : State} {w : Nat} {x : AduJob} (h : x ∈ (jobEnded s w).adu) : x.world ≠ w :=
  bne_iff_ne.1 (List.mem_filter.1 h).2

/-- The state with an image's imports patched and the pages of its code section sealed. -/
def codeSealed (s : State) (j : AduJob) (m : Image) (found : List Nat) : State :=
  j.frames.foldl (fun s f => sealPage s f.2) ((m.imports.zip found).foldl (patchImport j.frames (j.addr + m.codeOff) m) s)

/-- The state apart from the homes and the pages' seals. -/
def besidePages (s : State) : State := { besideHomes s with pages := [], owners := [] }

theorem besidePages_codeSealed (s : State) (j : AduJob) (m : Image) (found : List Nat) :
    besidePages (codeSealed s j m found) = besidePages s :=
  (foldl_keeps (p := besidePages) (g := fun s (f : Nat × Nat) => sealPage s f.2) (fun _ _ => rfl) _ _).trans
    (foldl_keeps (p := besidePages) (g := patchImport j.frames (j.addr + m.codeOff) m)
      (fun s x => (congrArg besidePages (besideHomes_patchImport j.frames (j.addr + m.codeOff) m s x) :)) _ s)

/-- A world's descriptor once a module with a digest is sealed in it (Table SEC.5). -/
def moduleMeasured (d : World) (digest : BitVec 384) : World :=
  { d with meas := sha384 (digestBytes d.meas ++ digestBytes digest), nextMod := d.nextMod + 1 }

/-- The state with an accepted image sealed, each table as it was with what the image adds to it. -/
def imageSealed (s : State) (j : AduJob) (m : Image) (found : List Nat) : State :=
  let first := (entriesOf s j.world).length
  let x := sealFor s j m first
  { codeSealed s j m found with
    seals := s.seals ++ [x]
    sealTable := s.sealTable.filter (fun p => !j.frames.any fun f => f.2 == p.page) ++
      j.frames.map fun f => { page := f.2, world := j.world, modId := x.modId, digest := j.digest }
    entries := s.entries ++ (numbered m.exports).map fun e => entryOf' j m x.modId (first + e.1) e.2
    worlds := s.worlds.set j.world (moduleMeasured (s.worlds.getD j.world {}) j.digest) }

theorem sealImage_fst (s : State) (j : AduJob) (m : Image) (found : List Nat) : (sealImage s j m found).1 = imageSealed s j m found := by
  have beside := besidePages_codeSealed s j m found
  have seals : (codeSealed s j m found).seals = s.seals := (congrArg State.seals beside :)
  have table : (codeSealed s j m found).sealTable = s.sealTable := (congrArg State.sealTable beside :)
  have entries : (codeSealed s j m found).entries = s.entries := (congrArg State.entries beside :)
  have worlds : (codeSealed s j m found).worlds = s.worlds := (congrArg State.worlds beside :)
  unfold imageSealed
  rw [← seals, ← table, ← entries, ← worlds]
  rfl

/-- The state after a job that is rejected: its pages open again, its record written. -/
def jobRejected (s : State) (j : AduJob) (r : Rej) : State :=
  putStatus (stopChecking (jobEnded s j.world) j.frames) j.world j.status (rejectWords r)

/-- The state after a job that is accepted: its image sealed, its record written. -/
def jobAccepted (s : State) (j : AduJob) (m : Image) (found : List Nat) : State :=
  let done := sealImage (jobEnded s j.world) j m found
  putStatus done.1 j.world j.status (acceptedWords done.2)

theorem besideHomes_jobRejected (s : State) (j : AduJob) (r : Rej) :
    besideHomes (jobRejected s j r) = besideHomes (stopChecking (jobEnded s j.world) j.frames) :=
  besideHomes_putStatus ..

theorem besideHomes_jobAccepted (s : State) (j : AduJob) (m : Image) (found : List Nat) :
    besideHomes (jobAccepted s j m found) = besideHomes (imageSealed (jobEnded s j.world) j m found) :=
  (besideHomes_putStatus ..).trans (congrArg besideHomes (sealImage_fst ..))

/-- An accepted job ends with every page of its code section sealed. -/
theorem pageSealed_jobAccepted (s : State) {j : AduJob} (m : Image) (found : List Nat) {f : Nat × Nat} (hf : f ∈ j.frames) :
    PageSealed (jobAccepted s j m found) f.2 := by
  have same : PageSealed (jobAccepted s j m found) f.2 = PageSealed (codeSealed (jobEnded s j.world) j m found) f.2 :=
    (congrArg (fun s => PageSealed s f.2) (besideHomes_jobAccepted s j m found) :)
  rw [same]
  exact pageSealed_foldl j.frames (.inr ⟨f, hf, rfl⟩)

/-- An accepted job ends with every page of its code section in the seal table. -/
theorem mem_sealTable_jobAccepted (s : State) {j : AduJob} (m : Image) (found : List Nat) {f : Nat × Nat} (hf : f ∈ j.frames) :
    { page := f.2, world := j.world, modId := (s.worlds.getD j.world {}).nextMod, digest := j.digest } ∈
      (jobAccepted s j m found).sealTable := by
  have table := congrArg State.sealTable (besideHomes_jobAccepted s j m found)
  exact table.symm ▸ List.mem_append_right _ (List.mem_map_of_mem hf)

/-- An accepted job ends with its world's measurement extended and one more module. -/
theorem worldOf_jobAccepted (s : State) {j : AduJob} (m : Image) (found : List Nat) (hw : j.world < s.worlds.length) :
    (jobAccepted s j m found).worlds.getD j.world {} = moduleMeasured (s.worlds.getD j.world {}) j.digest := by
  have worlds : (jobAccepted s j m found).worlds = s.worlds.set j.world (moduleMeasured (s.worlds.getD j.world {}) j.digest) :=
    (congrArg State.worlds (besideHomes_jobAccepted s j m found) :)
  rw [worlds, List.getD_eq_getElem?_getD, List.getElem?_set_self hw, Option.getD_some]

section
variable {s : State} {j : AduJob} (hj : s.adu.find? (fun x => x.world == j.world) = some j) (hs : aduServes s = true)
include hj hs

theorem execAdmissionComplete_rejected {r : Rej} (h : checkRequest s j = .error r) :
    execAdmissionComplete j.world s = .next (jobRejected s j r) := by
  simp only [execAdmissionComplete, hj, hs, h, Bool.not_true, Bool.false_eq_true, if_false]
  rfl

theorem execAdmissionComplete_accepted {m : Image} {found : List Nat} (h : checkRequest s j = .ok (m, found)) :
    execAdmissionComplete j.world s = .next (jobAccepted s j m found) := by
  simp only [execAdmissionComplete, hj, hs, h, Bool.not_true, Bool.false_eq_true, if_false]
  rfl

end

/-! ## The obligation -/

/-- Settles O43: the place in the ring by what `aduSlot` finds there, the request by `takeRequest_eq`, and the job's end by its outcome. -/
theorem admissionRequests : Obligations.AdmissionRequests := by
  refine ⟨fun w s => ⟨fun h => ?unread, fun h => ⟨execAduKick_read h, (execAduSlotReread_eq w s).trans (execAduKick_read h)⟩,
    fun head b h => ?valid⟩, ?taken, fun w j s hj hs hw => ?ended⟩
  case unread => exact ⟨execAduKick_unread h, (execAduSlotReread_eq w s).trans (execAduKick_unread h), execAduRequestConsume_unread h⟩
  case valid =>
    have beside := besideHomes_headAdvanced s w head b
    refine ⟨_, execAduRequestConsume_valid h, (congrArg State.adu beside :), (congrArg State.pages beside :), fun a hp hb hwf => ?_, ?_⟩
    · exact (read_putWords hp hb hwf [(head + 1) % 2 ^ 32]).trans (List.append_nil _)
    · simp [List.mem_filter]
  case taken =>
    intro w slot b img s addr len status aligned writable page short read
    have eq := takeRequest_eq slot aligned writable page short read
    refine ⟨fun c code => by rw [eq, code]; rfl, fun m ok old => by rw [eq, ok, old]; rfl, fun ok new => ?_⟩
    rw [eq, ok, new]
    exact ⟨jobFor s w b img, rfl, rfl, rfl, rfl, rfl, rfl⟩
  case ended =>
    obtain rfl : j.world = w := beq_iff_eq.1 (List.find?_some hj :)
    refine ⟨fun r hr => ?rejected, fun m found ok => ?accepted⟩
    case rejected =>
      have beside := besideHomes_jobRejected s j r
      have adu : (jobRejected s j r).adu = (jobEnded s j.world).adu := (congrArg State.adu beside :)
      have pages : (jobRejected s j r).pages = (stopChecking (jobEnded s j.world) j.frames).pages := (congrArg State.pages beside :)
      refine ⟨_, execAdmissionComplete_rejected hj hs hr, (congrArg State.seals beside :), (congrArg State.entries beside :),
        (congrArg State.worlds beside :), fun x hx => world_ne_of_mem_jobEnded (adu ▸ hx), fun a hp hb hwf => ?_⟩
      rw [adu, pages] at hp
      exact read_putStatus (s := stopChecking (jobEnded s j.world) j.frames) hp hb hwf rfl
    case accepted =>
      have beside := besideHomes_jobAccepted s j m found
      have adu : (jobAccepted s j m found).adu = (jobEnded s j.world).adu :=
        (congrArg State.adu beside :).trans (congrArg State.adu (besidePages_codeSealed (jobEnded s j.world) j m found) :)
      have world := worldOf_jobAccepted s m found hw
      refine ⟨_, execAdmissionComplete_accepted hj hs ok, (congrArg State.seals beside :), (congrArg State.entries beside :),
        fun f hf => ?_, congrArg World.nextMod world, congrArg World.meas world, fun y hy => world_ne_of_mem_jobEnded (adu ▸ hy)⟩
      obtain ⟨page, owner⟩ := pageSealed_jobAccepted s m found hf
      exact ⟨page, owner, mem_sealTable_jobAccepted s m found hf⟩

end Sys2Proof.Machine
end

section
/-! PROOFS. Encodings (O57, O58): when one word decodes, said once; the row of an opcode reads back what the encoder writes, and the encoder
writes back what the row reads, so that the decoder and the encoder are inverse to each other. -/

namespace Sys2Proof.Laws

open Sys2Proof

/-! ## Fields of a word -/

/-- The bits of a word from bit `lo` upward are `x`. -/
def HasField (w : Word) (lo : Nat) {n : Nat} (x : BitVec n) : Prop := fieldOf w lo n = x

namespace HasField

theorem append {w : Word} {lo m n : Nat} {x : BitVec m} {y : BitVec n} (hx : HasField w (lo + n) x) (hy : HasField w lo y) :
    HasField w lo (x ++ y) := by
  subst hx hy
  exact (BitVec.extractLsb'_append_extractLsb'_eq_extractLsb' rfl).symm

/-- The same where the two are written as one number. -/
theorem cat {w : Word} {lo m n : Nat} {x : BitVec m} {y : BitVec n} {v : BitVec (m + n)} (hx : HasField w (lo + n) x)
    (hy : HasField w lo y) (c : x ++ y = v := by decide) : HasField w lo v := c ▸ hx.append hy

/-- The fields of a whole word are the word. -/
theorem whole {w x : Word} (h : HasField w 0 x) : x = w := h.symm.trans BitVec.extractLsb'_eq_self

/-- A field within a mask that finds no bit is 0. -/
theorem zero {w z : Word} (h : w &&& z = 0) {lo n : Nat} (c : fieldOf z lo n = BitVec.allOnes n := by decide) :
    HasField w lo 0#n := by
  have := congrArg (fieldOf · lo n) h
  simpa [HasField, fieldOf, BitVec.extractLsb'_and, show BitVec.extractLsb' lo n z = _ from c] using this

theorem ofBool (w : Word) (n : Nat) : HasField w n (BitVec.ofBool (bitOf w n)) := by
  rw [HasField, Encoding.bit_field]
  generalize fieldOf w n 1 = x
  revert x; decide

theorem ofBit {w : Word} {n : Nat} (h : bitOf w n = true) : HasField w n 1#1 := (ofBool w n).trans (congrArg BitVec.ofBool h)

theorem ofToNat {w : Word} {lo n k : Nat} (h : (fieldOf w lo n).toNat = k) : HasField w lo (BitVec.ofNat n k) := by
  rw [HasField, ← h, BitVec.ofNat_toNat, BitVec.setWidth_eq]

/-- A field of a field. -/
theorem sub {w : Word} {lo n : Nat} {x : BitVec n} (h : HasField w lo x) {k m : Nat} (b : k + m ≤ n := by decide) :
    HasField w (lo + k) (x.extractLsb' k m) := by
  subst h
  apply BitVec.eq_of_getLsbD_eq
  intro i hi
  simp [fieldOf, hi, Nat.add_assoc, show k + i < n by omega]

end HasField

/-- An opcode is its two digits (R110). -/
theorem opcode_digits (w : Word) : HasField w 24 (BitVec.ofNat 8 (16 * (fieldOf w 28 4).toNat + (fieldOf w 24 4).toNat)) := by
  apply BitVec.eq_of_toNat_eq
  simp only [fieldOf, BitVec.extractLsb'_toNat, BitVec.toNat_ofNat, Nat.shiftRight_eq_div_pow]
  omega

/-! ## Prefixes -/

theorem isPfxWord_pfxWord (p : Pfx) : isPfxWord (pfxWord p) = true := by
  simp (disch := omega) only [isPfxWord, pfxWord, fieldOf, field_high]
  decide

theorem pfxOf_pfxWord (p : Pfx) : pfxOf (pfxWord p) = p := by
  have bit : ∀ b, (BitVec.ofBool b == 1#1) = b := by decide
  simp (disch := omega) only [pfxOf, pfxWord, Encoding.bit_field, fieldOf, field_low, field_high, Nat.sub_self,
    BitVec.extractLsb'_eq_self, bit]

theorem pfxWord_pfxOf {w : Word} (h : isPfxWord w = true) : pfxWord (pfxOf w) = w := by
  have mark : HasField w 28 0xF#4 := beq_iff_eq.1 h
  refine HasField.whole ?_
  unfold pfxWord
  exact .append (.append (.append (.append (.append (.append (.append (.append mark (.ofBool w 27)) (.ofBool w 26)) rfl) rfl)
    (.ofBool w 14)) (.ofBool w 13)) rfl) rfl

/-! ## When a word decodes -/

/-- A mask of one field's bits finds none where the field is 0. -/
theorem masked_iff {w : Word} (z : Word) (lo n : Nat) (ones : fieldOf z lo n = BitVec.allOnes n := by decide)
    (rest : z &&& ~~~(BitVec.ofNat 32 ((2 ^ n - 1) <<< lo)) = 0 := by decide) : w &&& z = 0 ↔ fieldOf w lo n = 0 :=
  ⟨fun h => HasField.zero h ones, fun h => masked_field w z lo n h (by rw [rest]; exact masked_none w)⟩

/-- The bits that the decoder wants to be 0, with the rule about PREF's level, are those that the row requires to be 0 (R209). -/
theorem zeros_iff {w : Word} {r : OpRow} (h : opRow w = some r) :
    w &&& zerosOf w r = 0 ∧ levelOk w = true ↔ w &&& r.zeros = 0 := by
  by_cases pref : fieldOf w 24 8 = 0x8F#8
  case neg => simp [zerosOf, levelOk, pref]
  have hi : fieldOf w 28 4 = 8#4 := HasField.sub (k := 4) (m := 4) pref
  have lo : fieldOf w 24 4 = 15#4 := HasField.sub (k := 0) (m := 4) pref
  have row : opRow w = opRow8 w 15 := by simp [opRow, hi, lo]
  have level : w &&& zerosOf w r = 0 ∧ levelOk w = true ↔ (fieldOf w 16 8).toNat ≤ 1 := by simp [zerosOf, levelOk, pref]
  rw [level]
  rw [row] at h
  simp only [opRow8] at h
  split at h <;> cases h
  next l =>
    have l : fieldOf w 16 8 = 0 := beq_iff_eq.1 l
    exact ⟨fun _ => (masked_iff 0xFF0000#32 16 8).2 l, fun _ => by simp [l]⟩
  next =>
    have high : fieldOf w 17 7 = (fieldOf w 16 8).extractLsb' 1 7 := HasField.sub (k := 1) (m := 7) rfl
    rw [masked_iff 0xFE0000#32 17 7, high]
    generalize fieldOf w 16 8 = l
    revert l; decide

/-- When a word decodes, under a Pfx or none: the opcode has a row, its zeros are 0, it takes the Pfx, and the instruction that its
fields make is well formed (R113, R114). -/
theorem decodeWord_iff {p : Option Pfx} {w : Word} {i : Instr} : decodeWord p w = .ok i ↔
    ∃ r, opRow w = some r ∧ w &&& r.zeros = 0 ∧ (p.isSome = true → r.takesPfx = true) ∧ i.wellFormed = true ∧ r.build p w = i := by
  unfold decodeWord
  cases row : opRow w with
  | none => simp
  | some r =>
    simp only [Option.some.injEq, exists_eq_left', ← zeros_iff row, Instr.wellFormed, Bool.and_eq_true]
    -- the decoder's tests, one after another, against their conjunction
    grind

/-! ## What the encoder writes decodes (O57) -/

theorem takeWord_bytesOfWord (w : Word) (rest : List Byte) : takeWord (bytesOfWord w ++ rest) = some (w, rest) := by
  have whole : HasField w 0 (fieldOf w 24 8 ++ fieldOf w 16 8 ++ fieldOf w 8 8 ++ fieldOf w 0 8) :=
    .append (.append (.append rfl rfl) rfl) rfl
  simp only [bytesOfWord, List.cons_append, List.nil_append, takeWord, wordOfBytes, whole.whole]

theorem decodePair_bare {w : Word} (h : isPfxWord w = false) (next : Option Word) : decodePair w next = decodeWord none w := by
  simp [decodePair, h]

theorem decodePair_prefixed {w v : Word} (h : isPfxWord w = true) (k : isPfxWord v = false) :
    decodePair w (some v) = decodeWord (some (pfxOf w)) v := by
  simp [decodePair, h, k]

theorem decodeBytes_bare {w : Word} (h : isPfxWord w = false) (rest : List Byte) :
    decodeBytes (bytesOfWord w ++ rest) = (decodeWord none w).map fun i => (i, rest) := by
  simp only [decodeBytes, takeWord_bytesOfWord, decodePair_bare h]
  cases takeWord rest <;> simp [h]

theorem decodeBytes_prefixed {w v : Word} (h : isPfxWord w = true) (k : isPfxWord v = false) (rest : List Byte) :
    decodeBytes (bytesOfWord w ++ (bytesOfWord v ++ rest)) = (decodeWord (some (pfxOf w)) v).map fun i => (i, rest) := by
  simp [decodeBytes, takeWord_bytesOfWord, decodePair_prefixed h k, h]

/-- The words of an instruction are that of its Pfx, where it has one, and a word that its row reads it back from. -/
theorem reads_of_encode (i : Instr) : Encoding.Statement i := by
  cases i with
  | nop => exact Encoding.nop
  | br => exact Encoding.br _ _ _
  | brc => exact Encoding.brc _ _ _ _
  | brz => exact Encoding.brz _ _ _ _
  | call => exact Encoding.call _ _ _
  | calli => exact Encoding.calli _
  | ret => exact Encoding.ret
  | join => exact Encoding.join
  | exitw => exact Encoding.exitw
  | yield => exact Encoding.yield
  | sleep => exact Encoding.sleep _
  | trap => exact Encoding.trap _
  | brx => exact Encoding.brx _ _
  | setmode => exact Encoding.setmode _
  | ipref => exact Encoding.ipref _ _
  | add => exact Encoding.add _ _ _ _
  | sub => exact Encoding.sub _ _ _ _
  | mul => exact Encoding.mul _ _ _ _
  | mulh => exact Encoding.mulh _ _ _ _
  | mad => exact Encoding.mad _ _ _ _
  | iand => exact Encoding.iand _ _ _ _
  | ior => exact Encoding.ior _ _ _ _
  | ixor => exact Encoding.ixor _ _ _ _
  | shl => exact Encoding.shl _ _ _ _
  | shr => exact Encoding.shr _ _ _ _
  | sar => exact Encoding.sar _ _ _ _
  | imin => exact Encoding.imin _ _ _ _
  | imax => exact Encoding.imax _ _ _ _
  | sel => exact Encoding.sel _ _ _ _
  | iabs => exact Encoding.iabs _ _ _
  | ineg => exact Encoding.ineg _ _ _
  | cmpeq => exact Encoding.cmpeq _ _ _ _
  | cmpne => exact Encoding.cmpne _ _ _ _
  | cmplt => exact Encoding.cmplt _ _ _ _
  | cmple => exact Encoding.cmple _ _ _ _
  | clz => exact Encoding.clz _ _ _
  | popc => exact Encoding.popc _ _ _
  | brev => exact Encoding.brev _ _ _
  | bfx => exact Encoding.bfx _ _ _ _
  | bfi => exact Encoding.bfi _ _ _ _
  | prmt => exact Encoding.prmt _ _ _ _
  | dp4 => exact Encoding.dp4 _ _ _ _
  | dp4s => exact Encoding.dp4s _ _ _ _
  | dp2 => exact Encoding.dp2 _ _ _ _
  | dp2s => exact Encoding.dp2s _ _ _ _
  | mov => exact Encoding.mov _ _ _
  | inot => exact Encoding.inot _ _ _
  | addi => exact Encoding.addi _ _ _ _
  | andi => exact Encoding.andi _ _ _ _
  | ori => exact Encoding.ori _ _ _ _
  | xori => exact Encoding.xori _ _ _ _
  | shli => exact Encoding.shli _ _ _ _
  | shri => exact Encoding.shri _ _ _ _
  | sari => exact Encoding.sari _ _ _ _
  | muli => exact Encoding.muli _ _ _ _
  | cmpeqi => exact Encoding.cmpeqi _ _ _ _
  | cmplti => exact Encoding.cmplti _ _ _ _
  | movi => exact Encoding.movi _ _ _
  | movhi => exact Encoding.movhi _ _ _
  | movx => exact Encoding.movx _ _ _
  | xmov => exact Encoding.xmov _ _ _
  | movrd => exact Encoding.movrd _ _ _
  | movrw => exact Encoding.movrw _ _ _
  | add64 => exact Encoding.add64 _ _ _ _
  | add64w => exact Encoding.add64w _ _ _ _
  | sub64 => exact Encoding.sub64 _ _ _ _
  | addi64 => exact Encoding.addi64 _ _ _ _
  | lea4 => exact Encoding.lea4 _ _ _ _
  | lea8 => exact Encoding.lea8 _ _ _ _
  | lea16 => exact Encoding.lea16 _ _ _ _
  | mov64 => exact Encoding.mov64 _ _ _
  | wmul => exact Encoding.wmul _ _ _ _
  | wmad => exact Encoding.wmad _ _ _ _
  | shl64 => exact Encoding.shl64 _ _ _ _
  | shr64 => exact Encoding.shr64 _ _ _ _
  | cmplt64 => exact Encoding.cmplt64 _ _ _ _
  | chkb => exact Encoding.chkb _ _ _ _
  | chkr => exact Encoding.chkr _ _
  | chka => exact Encoding.chka _ _ _ _
  | fadd => exact Encoding.fadd _ _ _ _
  | fsub => exact Encoding.fsub _ _ _ _
  | fmul => exact Encoding.fmul _ _ _ _
  | ffma => exact Encoding.ffma _ _ _ _
  | fmin => exact Encoding.fmin _ _ _ _
  | fmax => exact Encoding.fmax _ _ _ _
  | fminn => exact Encoding.fminn _ _ _ _
  | fmaxn => exact Encoding.fmaxn _ _ _ _
  | fcmpeq => exact Encoding.fcmpeq _ _ _ _
  | fcmplt => exact Encoding.fcmplt _ _ _ _
  | fcmple => exact Encoding.fcmple _ _ _ _
  | fcmpun => exact Encoding.fcmpun _ _ _ _
  | fabs => exact Encoding.fabs _ _ _
  | fneg => exact Encoding.fneg _ _ _
  | fclass => exact Encoding.fclass _ _ _
  | fscale => exact Encoding.fscale _ _ _ _
  | frcp => exact Encoding.frcp _ _ _
  | frsq => exact Encoding.frsq _ _ _
  | fsqrt => exact Encoding.fsqrt _ _ _
  | fexp2 => exact Encoding.fexp2 _ _ _
  | flog2 => exact Encoding.flog2 _ _ _
  | fsin => exact Encoding.fsin _ _ _
  | fcos => exact Encoding.fcos _ _ _
  | ftanh => exact Encoding.ftanh _ _ _
  | frnd => exact Encoding.frnd _ _ _
  | fdot2 => exact Encoding.fdot2 _ _ _ _
  | cvtf => exact Encoding.cvtf _ _ _ _ _
  | cvtfi => exact Encoding.cvtfi _ _ _ _ _
  | cvtif => exact Encoding.cvtif _ _ _ _ _
  | cvtn => exact Encoding.cvtn _ _ _ _ _ _
  | cvtw => exact Encoding.cvtw _ _ _ _ _ _
  | shfl => exact Encoding.shfl _ _ _ _
  | shflup => exact Encoding.shflup _ _ _ _
  | shfldn => exact Encoding.shfldn _ _ _ _
  | shflx => exact Encoding.shflx _ _ _ _
  | vall => exact Encoding.vall _ _ _
  | vany => exact Encoding.vany _ _ _
  | ballot => exact Encoding.ballot _ _ _
  | redadd => exact Encoding.redadd _ _ _
  | redmin => exact Encoding.redmin _ _ _
  | redmax => exact Encoding.redmax _ _ _
  | redand => exact Encoding.redand _ _ _
  | redor => exact Encoding.redor _ _ _
  | scan => exact Encoding.scan _ _ _ _ _
  | elect => exact Encoding.elect _ _
  | matchv => exact Encoding.matchv _ _ _
  | xchg => exact Encoding.xchg _ _ _ _
  | ldb => exact Encoding.ldb _ _ _ _
  | ldbs => exact Encoding.ldbs _ _ _ _
  | ldh => exact Encoding.ldh _ _ _ _
  | ldhs => exact Encoding.ldhs _ _ _ _
  | ldw => exact Encoding.ldw _ _ _ _
  | ldd => exact Encoding.ldd _ _ _ _
  | ldq => exact Encoding.ldq _ _ _ _
  | stb => exact Encoding.stb _ _ _ _
  | sth => exact Encoding.sth _ _ _ _
  | stw => exact Encoding.stw _ _ _ _
  | std => exact Encoding.std _ _ _ _
  | stq => exact Encoding.stq _ _ _ _
  | ldwr => exact Encoding.ldwr _ _ _ _
  | ldqr => exact Encoding.ldqr _ _ _ _
  | stnt => exact Encoding.stnt _ _ _ _
  | prefL1 => exact Encoding.prefL1 _ _ _
  | prefHome => exact Encoding.prefHome _ _ _
  | ldacq => exact Encoding.ldacq _ _ _ _ _
  | strel => exact Encoding.strel _ _ _ _ _
  | fence => exact Encoding.fence _ _
  | lds => exact Encoding.lds _ _ _ _
  | sts => exact Encoding.sts _ _ _ _
  | ldsq => exact Encoding.ldsq _ _ _ _
  | stsq => exact Encoding.stsq _ _ _ _
  | ldm => exact Encoding.ldm _ _ _
  | stm => exact Encoding.stm _ _ _
  | lock => exact Encoding.lock _ _ _
  | unlock => exact Encoding.unlock _ _ _
  | aadd => exact Encoding.aadd _ _ _ _ _
  | amin => exact Encoding.amin _ _ _ _ _
  | amax => exact Encoding.amax _ _ _ _ _
  | aand => exact Encoding.aand _ _ _ _ _
  | aor => exact Encoding.aor _ _ _ _ _
  | axor => exact Encoding.axor _ _ _ _ _
  | axchg => exact Encoding.axchg _ _ _ _ _
  | acas => exact Encoding.acas _ _ _ _ _
  | ainc => exact Encoding.ainc _ _ _ _ _
  | afadd => exact Encoding.afadd _ _ _ _ _
  | afadd2 => exact Encoding.afadd2 _ _ _ _ _
  | aadd64 => exact Encoding.aadd64 _ _ _ _ _
  | acas64 => exact Encoding.acas64 _ _ _ _ _
  | sadd => exact Encoding.sadd _ _ _ _ _
  | scas => exact Encoding.scas _ _ _ _ _
  | sxchg => exact Encoding.sxchg _ _ _ _ _
  | bar => exact Encoding.bar _ _ _
  | bararv => exact Encoding.bararv _ _
  | barwt => exact Encoding.barwt _ _ _
  | barexp => exact Encoding.barexp _ _ _
  | waitc => exact Encoding.waitc _ _ _ _
  | waitr => exact Encoding.waitr _
  | hwait => exact Encoding.hwait _ _ _
  | hsetFree => exact Encoding.hsetFree _ _ _
  | hsetFull => exact Encoding.hsetFull _ _ _
  | hsetRel => exact Encoding.hsetRel _
  | hsetFill => exact Encoding.hsetFill _
  | ringadvNew => exact Encoding.ringadvNew _ _ _
  | ringadv => exact Encoding.ringadv _ _
  | copy => exact Encoding.copy _ _ _
  | copym => exact Encoding.copym _ _ _
  | copys => exact Encoding.copys _ _ _
  | launch => exact Encoding.launch _ _
  | job => exact Encoding.job _ _
  | jobwt => exact Encoding.jobwt _
  | tbld => exact Encoding.tbld _ _ _ _ _
  | tmma => exact Encoding.tmma _ _ _ _ _
  | tmmab => exact Encoding.tmmab _ _ _ _ _
  | tmmap => exact Encoding.tmmap _ _ _ _ _
  | taccz => exact Encoding.taccz _ _ _
  | taccld => exact Encoding.taccld _ _ _ _
  | taccst => exact Encoding.taccst _ _ _ _
  | trel => exact Encoding.trel
  | trelArray => exact Encoding.trelArray
  | clock => exact Encoding.clock _
  | perf => exact Encoding.perf _ _
  | eret => exact Encoding.eret
  | traprd => exact Encoding.traprd _ _
  | segq => exact Encoding.segq _ _
  | bkpt => exact Encoding.bkpt _
  | _ => exact Encoding.silent rfl

/-- Settles O57: the words are that of the Pfx, if any, and a word that its row reads back (`reads_of_encode`), so that word decodes (`decodeWord_iff`),
whatever bytes follow. -/
theorem decodeEncode : Obligations.DecodeEncode := by
  intro i ws rest wf e
  obtain ⟨p, w, r, rfl, plain, row, zeros, takes, back⟩ := reads_of_encode i ws e
  have word : decodeWord p w = .ok i := decodeWord_iff.2 ⟨r, row, zeros, takes, wf, back⟩
  cases p with
  | none =>
    rw [withPfx, List.flatMap_singleton, decodeBytes_bare plain, word]; rfl
  | some x =>
    have words : withPfx (some x) w = [pfxWord x, w] := rfl
    simp only [words, List.flatMap_cons, List.flatMap_nil, List.append_nil, List.append_assoc]
    rw [decodeBytes_prefixed (isPfxWord_pfxWord x) plain, pfxOf_pfxWord, word]
    rfl

/-! ## A word that decodes is written back (O58) -/

/-- What a row reads from a word whose zeros are 0 encodes to that word, after the Pfx that the row takes. -/
def Spells (w : Word) (r : OpRow) : Prop :=
  w &&& r.zeros = 0 → ∀ p : Option Pfx, (p.isSome = true → r.takesPfx = true) → encode (r.build p w) = some (withPfx p w)

/-- The rows of the sixteen opcodes with one high digit do. -/
def RowsSpell (digit : Nat) (rows : Word → Nat → Option OpRow) : Prop :=
  ∀ {w : Word} {l : Nat} {r : OpRow}, HasField w 24 (BitVec.ofNat 8 (16 * digit + l)) → rows w l = some r → Spells w r

namespace Spells

variable {w z x : Word} {o : BitVec 8} {b : Option Pfx → Word → Instr}

theorem prefixed (e : ∀ p, encode (b p w) = some (withPfx p x)) (h : w &&& z = 0 → HasField w 0 x) : Spells w ⟨z, true, b⟩ :=
  fun k p _ => by rw [e, (h k).whole]

theorem bare (e : encode (b none w) = some [x]) (h : w &&& z = 0 → HasField w 0 x) : Spells w ⟨z, false, b⟩ := by
  intro k p takes
  cases p with
  | none => exact e.trans (by rw [(h k).whole]; rfl)
  | some x => cases takes rfl

/-- Three operands of a byte each. -/
theorem three (op : HasField w 24 o)
    (e : ∀ p, encode (b p w) = some (withPfx p (o ++ fieldOf w 16 8 ++ fieldOf w 8 8 ++ fieldOf w 0 8))) :
    Spells w ⟨0x000000#32, true, b⟩ := prefixed e fun _ => .append (.append (.append op rfl) rfl) rfl

/-- Two operands of a byte each, and a byte of zeros. -/
theorem two (op : HasField w 24 o)
    (e : ∀ p, encode (b p w) = some (withPfx p (o ++ fieldOf w 16 8 ++ fieldOf w 8 8 ++ 0x00#8))) :
    Spells w ⟨0x0000FF#32, true, b⟩ := prefixed e fun z => .append (.append (.append op rfl) rfl) (.zero z)

/-- Two operands of a byte each, a scope, an order, and two zeros. -/
theorem ordered (op : HasField w 24 o)
    (e : ∀ p, encode (b p w) = some (withPfx p (o ++ fieldOf w 16 8 ++ fieldOf w 8 8 ++ fieldOf w 5 3 ++ fieldOf w 2 3 ++ 0x0#2))) :
    Spells w ⟨0x000003#32, true, b⟩ :=
  prefixed e fun z => .append (.append (.append (.append (.append op rfl) rfl) rfl) rfl) (.zero z)

end Spells

theorem rowsSpell_opRow0 : RowsSpell 0 opRow0 := by
  intro w l r op h
  unfold opRow0 at h
  split at h <;> cases h
  · exact .bare rfl fun z => .cat (n := 24) op (.zero z)
  · exact .prefixed (fun _ => rfl) fun _ => .append (.append op rfl) rfl
  iterate 2 · exact .prefixed (fun _ => rfl) fun _ => .append (.append (.append op rfl) rfl) rfl
  · exact .prefixed (fun _ => rfl) fun _ => .append (.append op rfl) rfl
  · exact .bare rfl fun z => .append (.append (.cat (n := 8) op (.zero z)) rfl) (.zero z)
  iterate 4 · exact .bare rfl fun z => .cat (n := 24) op (.zero z)
  iterate 2 · exact .bare rfl fun z => .append (.cat (n := 8) op (.zero z)) rfl
  · exact .bare rfl fun z => .append (.append (.append op rfl) (.zero z)) rfl
  · exact .bare rfl fun z => .append (.cat (n := 4) op (.zero z)) rfl
  · exact .bare rfl fun z => .append (.append (.append op rfl) (.zero z)) rfl

theorem rowsSpell_opRow1 : RowsSpell 1 opRow1 := by
  intro w l r op h
  unfold opRow1 at h
  split at h <;> cases h
  iterate 14 · exact .three op fun _ => rfl
  iterate 2 · exact .two op fun _ => rfl

theorem rowsSpell_opRow2 : RowsSpell 2 opRow2 := by
  intro w l r op h
  unfold opRow2 at h
  split at h <;> cases h
  iterate 4 · exact .three op fun _ => rfl
  iterate 3 · exact .two op fun _ => rfl
  iterate 7 · exact .three op fun _ => rfl
  iterate 2 · exact .two op fun _ => rfl

theorem rowsSpell_opRow3 : RowsSpell 3 opRow3 := by
  intro w l r op h
  unfold opRow3 at h
  split at h <;> cases h
  iterate 4 · exact .three op fun _ => rfl
  iterate 3 · exact .prefixed (fun _ => rfl) fun z => .append (.append (.append (.append op rfl) rfl) (.zero z)) rfl
  iterate 3 · exact .three op fun _ => rfl
  iterate 2 · exact .prefixed (fun _ => rfl) fun _ => .append (.append op rfl) rfl
  · exact .prefixed (fun _ => rfl) fun z => .append (.append (.append op rfl) (.zero z)) rfl
  · exact .prefixed (fun _ => rfl) fun z => .append (.append (.cat (n := 8) op (.zero z)) rfl) rfl
  iterate 2 · exact .two op fun _ => rfl

theorem rowsSpell_opRow4 : RowsSpell 4 opRow4 := by
  intro w l r op h
  unfold opRow4 at h
  split at h <;> cases h
  iterate 7 · exact .three op fun _ => rfl
  · exact .two op fun _ => rfl
  iterate 5 · exact .three op fun _ => rfl
  · exact .bare rfl fun _ => .append (.append (.append (.append op rfl) rfl) rfl) rfl
  · exact .bare rfl fun _ => .append (.append op rfl) rfl
  · exact .bare rfl fun _ => .append (.append (.append (.append op rfl) rfl) rfl) rfl

theorem rowsSpell_opRow5 : RowsSpell 5 opRow5 := by
  intro w l r op h
  unfold opRow5 at h
  split at h <;> cases h
  iterate 12 · exact .three op fun _ => rfl
  iterate 3 · exact .two op fun _ => rfl
  · exact .three op fun _ => rfl

theorem rowsSpell_opRow6 : RowsSpell 6 opRow6 := by
  intro w l r op h
  unfold opRow6 at h
  split at h <;> cases h
  iterate 9 · exact .two op fun _ => rfl
  · exact .three op fun _ => rfl
  iterate 3 · exact .prefixed (fun _ => rfl) fun z => .append (.append (.append (.append (.append op rfl) rfl) (.zero z)) rfl) rfl
  iterate 2 · exact .prefixed (fun _ => rfl) fun _ => .append (.append (.append (.append (.append op rfl) rfl) rfl) rfl) rfl

theorem rowsSpell_opRow7 : RowsSpell 7 opRow7 := by
  intro w l r op h
  unfold opRow7 at h
  split at h <;> cases h
  iterate 4 · exact .three op fun _ => rfl
  iterate 8 · exact .two op fun _ => rfl
  · exact .prefixed (fun _ => rfl) fun z => .append (.append (.append (.append (.append op rfl) rfl) (.zero z)) rfl) rfl
  · exact .prefixed (fun _ => rfl) fun z => .append (.append op rfl) (.zero z)
  · exact .two op fun _ => rfl
  · exact .bare rfl fun _ => .append (.append (.append (.append op rfl) rfl) rfl) rfl

/-- Level 1 of PREF, by its zeros, where the level is not 0. -/
theorem level_home {w : Word} (h : ¬(fieldOf w 16 8 == 0#8) = true) (z : w &&& 0xFE0000#32 = 0) : HasField w 16 0x01#8 := by
  have high : (fieldOf w 16 8).extractLsb' 1 7 = 0#7 :=
    (HasField.sub (k := 1) (m := 7) rfl).symm.trans (HasField.zero (lo := 17) (n := 7) z)
  unfold HasField
  generalize fieldOf w 16 8 = level at h high ⊢
  revert level; decide

theorem rowsSpell_opRow8 : RowsSpell 8 opRow8 := by
  intro w l r op h
  unfold opRow8 at h
  split at h
  iterate 15 · cases h; exact .three op fun _ => rfl
  next =>
    split at h <;> cases h
    next => exact .prefixed (fun _ => rfl) fun z => .append (.append (.cat (n := 8) op (.zero z)) rfl) rfl
    next level => exact .prefixed (fun _ => rfl) fun z => .append (.append (.cat (n := 8) op (level_home level z)) rfl) rfl
  next => cases h

theorem rowsSpell_opRow9 : RowsSpell 9 opRow9 := by
  intro w l r op h
  unfold opRow9 at h
  split at h <;> cases h
  iterate 2 · exact .ordered op fun _ => rfl
  · exact .bare rfl fun z => .append (.append (.append (.cat (n := 16) op (.zero z)) rfl) rfl) (.zero z)
  iterate 4 · exact .three op fun _ => rfl
  iterate 2 · exact .bare rfl fun z => .append (.append (.append (.append op rfl) rfl) rfl) (.zero z)
  iterate 2 · exact .bare rfl fun z => .append (.append (.append (.append (.append op rfl) (.zero z)) rfl) rfl) (.zero z)

theorem rowsSpell_opRowA : RowsSpell 10 opRowA := by
  intro w l r op h
  unfold opRowA at h
  split at h <;> cases h
  iterate 16 · exact .ordered op fun _ => rfl

theorem rowsSpell_opRowB : RowsSpell 11 opRowB := by
  intro w l r op h
  unfold opRowB at h
  split at h
  next => cases h; exact .bare rfl fun z => .append (.append (.append (.append op rfl) rfl) rfl) (.zero z)
  next => cases h; exact .bare rfl fun z => .append (.append (.append (.cat (n := 8) op (.zero z)) rfl) rfl) (.zero z)
  iterate 2 · cases h; exact .bare rfl fun z => .append (.append (.append (.append op rfl) rfl) rfl) (.zero z)
  next => cases h; exact .bare rfl fun _ => .append (.append (.append (.append op rfl) rfl) rfl) rfl
  next => cases h; exact .bare rfl fun z => .append (.append (.cat (n := 8) op (.zero z)) rfl) (.zero z)
  next => cases h; exact .bare rfl fun z => .append (.append (.append (.append (.cat (n := 8) op (.zero z)) rfl) rfl) rfl) (.zero z)
  next =>
    split at h <;> cases h
    next => exact .bare rfl fun z => .append (.append (.append (.append op rfl) rfl) (.zero z)) rfl
    next form => exact .bare rfl fun _ => .append (.append (.append (.append op rfl) rfl) (.ofToNat form)) rfl
    next form =>
      exact .bare rfl fun z =>
        .append (.append op rfl) (.cat (m := 8) (n := 8) (.zero z) (.append (m := 2) (n := 6) (.ofToNat form) (.zero z)))
    next free full rel =>
      have form : (fieldOf w 6 2).toNat = 3 := by
        have := (fieldOf w 6 2).isLt
        grind
      exact .bare rfl fun z =>
        .append (.append op rfl) (.cat (m := 8) (n := 8) (.zero z) (.append (m := 2) (n := 6) (.ofToNat form) (.zero z)))
  next =>
    split at h <;> cases h
    next new => exact .bare rfl fun _ => .append (.append (.append (.append op rfl) rfl) (.ofBit new)) rfl
    next => exact .bare rfl fun z => .append (.append (.append op rfl) rfl) (.zero z)
  next => cases h

theorem rowsSpell_opRowC : RowsSpell 12 opRowC := by
  intro w l r op h
  unfold opRowC at h
  split at h <;> cases h
  iterate 3 · exact .bare rfl fun _ => .append (.append (.append op rfl) rfl) rfl
  iterate 2 · exact .bare rfl fun z => .append (.append (.append op rfl) rfl) (.zero z)
  · exact .bare rfl fun z => .append (.append (.cat (n := 8) op (.zero z)) rfl) (.zero z)

theorem rowsSpell_opRowD : RowsSpell 13 opRowD := by
  intro w l r op h
  unfold opRowD at h
  split at h
  next =>
    cases h
    exact .bare rfl fun z => .append (.append (.append (.append (.append (.append (.append op rfl) (.zero z)) rfl) rfl) rfl) rfl) (.zero z)
  iterate 3 · cases h; exact .bare rfl fun z => .append (.append (.append (.append (.append (.append op rfl) rfl) rfl) rfl) rfl) (.zero z)
  next => cases h; exact .bare rfl fun z => .append (.append (.append (.append (.append op rfl) (.zero z)) rfl) rfl) (.zero z)
  iterate 2 · cases h; exact .bare rfl fun z => .append (.append (.append (.append (.append op rfl) rfl) rfl) rfl) (.zero z)
  next =>
    split at h <;> cases h
    next array => exact .bare rfl fun z => .cat (n := 24) (y := 0x000001#24) op (.cat (m := 23) (n := 1) (.zero z) (.ofBit array))
    next => exact .bare rfl fun z => .cat (n := 24) op (.zero z)
  next => cases h

theorem rowsSpell_opRowE : RowsSpell 14 opRowE := by
  intro w l r op h
  unfold opRowE at h
  split at h <;> cases h
  · exact .bare rfl fun z => .append (.append op rfl) (.zero z)
  · exact .bare rfl fun z => .append (.append (.append op rfl) (.zero z)) rfl
  · exact .bare rfl fun z => .cat (n := 24) op (.zero z)
  · exact .bare rfl fun z => .append (.append (.append op rfl) (.zero z)) rfl
  · exact .bare rfl fun z => .append (.append (.append op rfl) rfl) (.zero z)
  · exact .bare rfl fun z => .append (.cat (n := 8) op (.zero z)) rfl

theorem spells_of_opRow {w : Word} {r : OpRow} (h : opRow w = some r) : Spells w r := by
  have op := opcode_digits w
  unfold opRow at h
  generalize (fieldOf w 28 4).toNat = digit at op h
  split at h
  next => exact rowsSpell_opRow0 op h
  next => exact rowsSpell_opRow1 op h
  next => exact rowsSpell_opRow2 op h
  next => exact rowsSpell_opRow3 op h
  next => exact rowsSpell_opRow4 op h
  next => exact rowsSpell_opRow5 op h
  next => exact rowsSpell_opRow6 op h
  next => exact rowsSpell_opRow7 op h
  next => exact rowsSpell_opRow8 op h
  next => exact rowsSpell_opRow9 op h
  next => exact rowsSpell_opRowA op h
  next => exact rowsSpell_opRowB op h
  next => exact rowsSpell_opRowC op h
  next => exact rowsSpell_opRowD op h
  next => exact rowsSpell_opRowE op h
  next => cases h

/-- A word that decodes gives a well-formed instruction that encodes to it, after its Pfx. -/
theorem encode_of_decodeWord {p : Option Pfx} {w : Word} {i : Instr} (h : decodeWord p w = .ok i) :
    i.wellFormed = true ∧ encode i = some (withPfx p w) := by
  obtain ⟨r, row, zeros, takes, wf, rfl⟩ := decodeWord_iff.1 h
  exact ⟨wf, spells_of_opRow row zeros p takes⟩

/-- Settles O58: a word that stands alone, or one of a Pfx and another word, by `encode_of_decodeWord`; the other pairs do not decode. -/
theorem encodeDecode : Obligations.EncodeDecode := by
  intro w next i h
  by_cases pfx : isPfxWord w = true
  case neg =>
    rw [if_neg pfx]
    exact encode_of_decodeWord (decodePair_bare (Bool.eq_false_iff.2 pfx) next ▸ h)
  case pos =>
    rw [if_pos pfx]
    cases next with
    | none => simp [decodePair, pfx] at h
    | some v =>
      cases second : isPfxWord v with
      | true => simp [decodePair, pfx, second] at h
      | false =>
        rw [decodePair_prefixed pfx second] at h
        obtain ⟨wf, words⟩ := encode_of_decodeWord h
        exact ⟨wf, words.trans (congrArg (fun x => some [x, v]) (pfxWord_pfxOf pfx))⟩

end Sys2Proof.Laws
end

section
/-! PROOFS. SETMODE and XMOV (O4): the sets of lanes that a mask makes, and the special registers that are written (R127, R128, R174, R175). -/

namespace Sys2Proof.Machine

open Sys2Proof Sys2Proof.Safety

/-! ## Lane sets -/

theorem mem_laneIdx {l : Nat} : l ∈ laneIdx ↔ l < 32 := List.mem_range (n := 32)

theorem inMask_one_lane (k : Nat) {l : Nat} (hl : l < 32) : inMask (BitVec.ofNat 32 (2 ^ k)) l = decide (l = k) := by
  rw [inMask, BitVec.getLsbD_ofNat, Nat.testBit_two_pow, decide_eq_true hl, Bool.true_and]
  exact decide_eq_decide.2 eq_comm

theorem inMask_or (m n : Word) (l : Nat) : inMask (m ||| n) l = (inMask m l || inMask n l) := BitVec.getLsbD_or

theorem inMask_foldl_or (f : Nat → Bool) {l : Nat} (hl : l < 32) : ∀ (ls : List Nat) (m : Word),
    inMask (ls.foldl (fun m l => if f l then m ||| BitVec.ofNat 32 (2 ^ l) else m) m) l = (inMask m l || (ls.contains l && f l))
  | [], m => by simp
  | k :: ls, m => by
    have one : inMask (if f k then m ||| BitVec.ofNat 32 (2 ^ k) else m) l = (inMask m l || (decide (l = k) && f k)) := by
      cases f k with
      | false => simp
      | true => rw [if_pos rfl, inMask_or, inMask_one_lane k hl, Bool.and_true]
    rw [List.foldl_cons, inMask_foldl_or f hl ls, one, List.contains_cons]
    by_cases e : l = k
    · subst e; cases f l <;> simp
    · simp [e, beq_eq_false_iff_ne.2 e]

theorem inMask_maskOf (f : Nat → Bool) {l : Nat} (hl : l < 32) : inMask (maskOf f) l = f l := by
  rw [maskOf, inMask_foldl_or f hl]
  simp [inMask, mem_laneIdx.2 hl]

theorem maskOf_eq_zero {f : Nat → Bool} : maskOf f = 0#32 ↔ ∀ l, l < 32 → f l = false := by
  constructor
  · intro h l hl
    rw [← inMask_maskOf f hl, h]; simp [inMask]
  · intro h
    apply BitVec.eq_of_getLsbD_eq
    intro l hl
    simpa [inMask, h l hl] using inMask_maskOf f hl

theorem poisonMask_eq_zero {r : Row} {m : Word} : poisonMask r m = 0#32 ↔ ∀ l, l < 32 → inMask m l = true → poisonAt r l = false := by
  simp [poisonMask, maskOf_eq_zero]

/-! ## MODE (R128) -/

theorem modeLegal : Claims.ModeLegal := by
  intro x
  have et : (if etOk (x.extractLsb' 10 4) then x.extractLsb' 10 4 else 0#4).toNat ≤ 6 := by
    split
    next h => simpa [etOk] using h
    next => decide
  have rm : (if rmOk (x.extractLsb' 14 3) then x.extractLsb' 14 3 else 0#3).toNat ≤ 4 := by
    split
    next h => simpa [rmOk] using h
    next => decide
  simp (disch := omega) only [modeFrom, Laws.field_low, Laws.field_high, Nat.sub_self, BitVec.extractLsb'_eq_self]
  refine ⟨rfl, et, rm, fun e r => ?_⟩
  rw [if_pos (show rmOk _ = true from decide_eq_true r), if_pos (show etOk _ = true from decide_eq_true e)]
  apply BitVec.eq_of_getLsbD_eq
  intro k hk
  simp only [BitVec.getLsbD_append, BitVec.getLsbD_extractLsb']
  -- the same bit of `x` stands at each place, whichever field the place lies in
  grind

/-! ## SETMODE and XMOV -/

/-- An instruction that replaces its warp's special registers and goes on. -/
theorem advance_setMe {s : State} (hi : Issuing s) (w : Warp) (hf : w.frags = (me s).frags) (hr : w.regs = (me s).regs) :
    (me (advance (setMe s w))).mode = w.mode ∧ (me (advance (setMe s w))).flags = w.flags ∧
      Retired [] (setMe s w) (advance (setMe s w)) := by
  have retired := advance_retired (issuing_setMe hi hf hr)
  have warp := me_setMe s w hi.warp
  have rest : warpRest (me (advance (setMe s w))) = warpRest w := retired.warp.trans (congrArg warpRest warp)
  exact ⟨(congrArg Warp.mode rest :), (congrArg Warp.flags rest :), retired⟩

/-- The poison of the lowest active lane alone. -/
theorem poisonMask_lowest {r : Row} {m : Word} (h : (laneAt r (lowestLane m)).poison = false) :
    poisonMask r (BitVec.ofNat 32 (2 ^ lowestLane m)) = 0#32 :=
  poisonMask_eq_zero.2 fun l hl on => by
    rw [inMask_one_lane _ hl, decide_eq_true_eq] at on
    exact on ▸ h

theorem inside_of_calm {p : Option Pfx} {named : List Nat} {s : State} (h : Calm p named s) :
    outside s (named ++ guardRegs p (me s)) = [] := outside_eq_nil h.inside

section
variable {p : Option Pfx} {a i : BitVec 8} {s : State} (hc : Calm p [a.toNat] s)
  (hs : i = 3 → ((me s).holds.all fun h => !h.flags) = true)
include hc hs

/-- XMOV that nothing stops. -/
theorem execXmov_eq (clean : act p s ≠ 0 → (lane s a.toNat (lowestLane (act p s))).poison = false) :
    execXmov p a i s = .next (advance (if act p s == 0#32 then s
      else writeSpecial i.toNat (lane s a.toNat (lowestLane (act p s))).val s)) := by
  have settled : (i == 3#8 && !holds s (me s) .settled) = false := by
    by_cases h : i = 3#8
    · have := hs h
      simp [holds, this]
    · simp [h]
  have bad : (if act p s == 0#32 then 0#32
      else poisonMask (regOf (me s) a.toNat) (BitVec.ofNat 32 (2 ^ lowestLane (act p s)))) = 0#32 := by
    split
    next => rfl
    next h => exact poisonMask_lowest (clean (by simpa using h))
  have none : outside s (a.toNat :: guardRegs p (me s)) = [] := inside_of_calm hc
  simp only [execXmov, settled, bad, hc.guard, none]
  rfl


theorem execXmov_idle (h0 : act p s = 0) : execXmov p a i s = .next (advance s) := by
  rw [execXmov_eq hc hs fun h => absurd h0 h, if_pos (by simpa using h0)]

theorem execXmov_writes (h0 : act p s ≠ 0) (clean : (lane s a.toNat (lowestLane (act p s))).poison = false) :
    execXmov p a i s = .next (advance (writeSpecial i.toNat (lane s a.toNat (lowestLane (act p s))).val s)) := by
  rw [execXmov_eq hc hs fun _ => clean, if_neg (by simpa using h0)]

end

theorem modeWrites : Claims.ModeWrites := by
  intro s hi
  refine ⟨fun x => ?setmode, fun p a i hc h0 hs => ⟨_, execXmov_idle hc hs h0, advance_retired hi⟩,
    fun p a hc h0 clean => ⟨?exec, ?mode, fun hs => ?flags⟩⟩
  case setmode =>
    obtain ⟨mode, -, retired⟩ := advance_setMe hi { me s with mode := x.zeroExtend 24 } rfl rfl
    exact ⟨_, rfl, mode, retired⟩
  case exec =>
    have retired := advance_retired (issuing_setFr { fr s with exec := (lane s a.toNat (lowestLane (act p s))).val &&& (fr s).frag } hi)
    exact ⟨_, execXmov_writes (i := 0) hc (fun h => absurd h (by decide)) h0 clean,
      (congrArg Frag.exec retired.frag :).trans (congrArg Frag.exec (fr_setFr _ _ hi.warp hi.frag)), retired⟩
  case mode =>
    obtain ⟨mode, -, retired⟩ := advance_setMe hi { me s with mode := modeFrom (lane s a.toNat (lowestLane (act p s))).val } rfl rfl
    exact ⟨_, execXmov_writes (i := 2) hc (fun h => absurd h (by decide)) h0 clean, mode, retired⟩
  case flags =>
    obtain ⟨-, flags, retired⟩ :=
      advance_setMe hi { me s with flags := (lane s a.toNat (lowestLane (act p s))).val.extractLsb' 0 5 } rfl rfl
    exact ⟨_, execXmov_writes (i := 3) hc (fun _ => hs) h0 clean, flags, retired⟩

/-- Settles O4: what both instructions write is `modeWrites`, and that `modeFrom` answers a legal MODE is `modeLegal`. -/
theorem modeAccess : Obligations.ModeAccess := ⟨modeWrites, modeLegal⟩

end Sys2Proof.Machine
end

section
/-! PROOFS. LDACQ of a word that crosses two lines (O14 fails): where a TLB holds a frame that is no multiple of 4, an aligned virtual word lies
across two L1 lines, and a read through the L1 takes from the first line alone, where home memory holds the word's last byte in the second. -/

namespace Sys2Proof.Machine

open Sys2Proof Sys2Proof.Safety

/-- One lane of a warp whose register pair 4 holds the virtual address 0x1007C, of a page that core 0's TLB places at machine address 0x20001;
the byte at machine address 0x20080 is 0x5A and every other is 0.  The word at 0x1007C is then the four bytes from 0x2007D. -/
def crossing : State :=
  let s := placeWords State.reset 0x01000000#32 0x01000000#32
  { s with
    tlb := [{ quad := false, unit := 0, world := 0, page := 1, frame := 0x20001, r := true, w := true, x := false }]
    mem := { cells := [(0x20080, 0x5A#8)] }
    warps := s.warps.map fun w => { w with frags := [{ pc := barePc, exec := 1 }], regs := w.regs.set 4 (splat 0x1007C#32) } }

theorem issuing_crossing : Issuing crossing := ⟨by decide +kernel, by decide +kernel, by decide +kernel⟩

theorem atMemory_crossing : ∀ l, l < 32 → inMask (act none crossing) l = true →
    Claims.AtMemory crossing .read false (Claims.laneAddr none 4 0 0 crossing l) 0x2007D := by
  intro l hl on
  have one : l = 0 := (by decide +kernel : ∀ l, l < 32 → inMask (act none crossing) l = true → l = 0) l hl on
  subst one
  rfl

theorem reaches_crossing : Reaches none [6, 4, 5] 4 (Claims.laneAddr none 4 0 0 crossing) 4 .read false crossing :=
  ⟨⟨by decide +kernel, by decide +kernel⟩, by unfold Clean; decide +kernel, by decide +kernel,
    fun l hl on => ⟨_, atMemory_crossing l hl on⟩, fun _ => by decide +kernel⟩

theorem settled_crossing : Settled crossing := by
  have empty : crossing.l1 = [] := rfl
  exact ⟨rfl, by simp [empty], by simp [empty], by simp [empty]⟩

/-- What home memory holds of the word. -/
theorem home_crossing : crossing.mem.readBad 0x2007D 4 = false ∧ wordIn (crossing.mem.read 0x2007D 4) 0 = 0x5A000000#32 := by
  decide +kernel

/-- The operations in flight after an instruction. -/
def opsAfter (i : Instr) (s : State) : List Op :=
  match exec i s with
  | .next t => t.ops
  | _ => []

theorem opsAfter_of_exec {i : Instr} {s t : State} (h : exec i s = .next t) : opsAfter i s = t.ops := by rw [opsAfter, h]

/-- What the load's reply will write to lane 0 of register 6: 0, without the byte of the second line. -/
theorem opsAfter_crossing :
    ((opsAfter (.ldacq none 6 4 2 0) crossing).getLast?.bind fun o => o.writes[0]?.map fun x => valAt x.2 0) = some 0#32 := by
  decide +kernel

/-- Refutes O14, in the clause of LDACQ at quad scope without an order: `crossing` meets its premises, and home memory holds 0x5A000000 at the
word's machine address, while the load takes 0.  The clause does not ask the machine address for alignment, as those of STREL and STNT do. -/
theorem not_orderedAndOther : ¬ Obligations.OrderedAndOther := by
  rintro ⟨-, acquiringLoad, -⟩
  obtain ⟨t, next, -, -, -, values⟩ := acquiringLoad none 6 4 2 0 crossing issuing_crossing (by decide +kernel)
    (fun order => absurd order (by decide)) (fun order => absurd order (by decide)) (by decide +kernel) reaches_crossing
  obtain ⟨-, home⟩ := values (by decide +kernel) settled_crossing
  have noCopy : l1Find crossing (me crossing).core 0x2007D = none := rfl
  obtain ⟨-, o, last, -, -, -, -, rows⟩ := home (by decide) (by decide) fun l on =>
    ⟨0x2007D, atMemory_crossing l on.1 on.2, by decide +kernel, by simp [noCopy]⟩
  obtain ⟨r, writes, value⟩ := rows 0 Nat.one_pos
  have place : spotOf crossing (me crossing) (Claims.laneAddr none 4 0 0 crossing 0) .read false = .ok (.mem 0x2007D) :=
    atMemory_crossing 0 (by decide) (by decide +kernel)
  have stated := value 0 (by decide) (by decide +kernel)
  simp only [place, home_crossing, Bool.false_eq_true, if_false] at stated
  have taken := opsAfter_crossing
  rw [opsAfter_of_exec next, last] at taken
  simp [writes, valAt, stated, clean] at taken

end Sys2Proof.Machine
end

section
/-! PROOFS. Element arithmetic (O1): the elements of a lane are the digits of its value, so a packed result reads back element by element;
a reduction modulo 2^n undoes neither a clamped result nor, with one element per lane, the arithmetic of 32-bit words. -/

namespace Sys2Proof.Machine

open Sys2Proof

/-! ## Numbers side by side -/

/-- The low `n` bits of `f 0`, `f 1` and so on, up to `c` of them, side by side. -/
def sideBySide (n : Nat) (f : Nat → Nat) (c : Nat) : Nat := total ((List.range c).map fun j => f j % 2 ^ n * 2 ^ (n * j))

theorem sideBySide_succ (n : Nat) (f : Nat → Nat) (c : Nat) :
    sideBySide n f (c + 1) = sideBySide n f c + f c % 2 ^ n * 2 ^ (n * c) := by
  simp [sideBySide, total, List.range_succ]

theorem sideBySide_lt (n : Nat) (f : Nat → Nat) (c : Nat) : sideBySide n f c < 2 ^ (n * c) := by
  induction c with
  | zero => exact Nat.one_pos
  | succ c ih =>
    have digit : f c % 2 ^ n + 1 ≤ 2 ^ n := Nat.mod_lt _ (Nat.two_pow_pos n)
    calc sideBySide n f (c + 1) = sideBySide n f c + f c % 2 ^ n * 2 ^ (n * c) := sideBySide_succ n f c
      _ < (f c % 2 ^ n + 1) * 2 ^ (n * c) := by rw [Nat.add_one_mul, Nat.add_comm]; exact Nat.add_lt_add_left ih _
      _ ≤ 2 ^ n * 2 ^ (n * c) := Nat.mul_le_mul_right _ digit
      _ = 2 ^ (n * (c + 1)) := by rw [← Nat.pow_add, Nat.mul_succ, Nat.add_comm]

theorem bitsOf_sideBySide (n : Nat) (f : Nat → Nat) {c j : Nat} (hj : j < c) : bitsOf (sideBySide n f c) (n * j) n = f j % 2 ^ n := by
  induction c with
  | zero => omega
  | succ c ih =>
    rw [bitsOf, sideBySide_succ]
    obtain rfl | hj := Nat.lt_succ_iff_lt_or_eq.1 hj |>.symm
    · rw [Nat.add_mul_div_right _ _ (Nat.two_pow_pos _), Nat.div_eq_of_lt (sideBySide_lt n f j), Nat.zero_add, Nat.mod_mod]
    · -- the digit added at `c` is a multiple of 2^n above digit `j`
      have above : n * c = n * (c - j - 1) + n + n * j := by
        rw [← Nat.mul_succ, ← Nat.mul_add]; congr 1; omega
      rw [above, Nat.pow_add, Nat.pow_add, ← Nat.mul_assoc, ← Nat.mul_assoc, Nat.add_mul_div_right _ _ (Nat.two_pow_pos _), Nat.add_mul_mod_self_right]
      exact ih hj

/-! ## Elements of a packed lane (R157) -/

theorem pack_eq (t : IntEt) (f : Nat → Nat) : t.pack f = BitVec.ofNat 32 (sideBySide t.n f t.count) := rfl

theorem raw_pack (t : IntEt) (f : Nat → Nat) {j : Nat} (hj : j < t.count) : t.raw (t.pack f) j = f j % 2 ^ t.n := by
  have fits : sideBySide t.n f t.count < 2 ^ 32 :=
    Nat.lt_of_lt_of_le (sideBySide_lt ..) (Nat.pow_le_pow_right Nat.two_pos (Nat.mul_div_le 32 t.n))
  rw [IntEt.raw, pack_eq, BitVec.toNat_ofNat, Nat.mod_eq_of_lt fits, bitsOf_sideBySide _ _ hj]

/-! ## Reduction and clamping (R149) -/

theorem wrap_lt (n : Nat) (x : Int) : wrap n x < 2 ^ n := by
  have pos : (0 : Int) < (2 ^ n : Nat) := Int.natCast_pos.2 (Nat.two_pow_pos n)
  have := Int.emod_lt_of_pos x pos
  have := Int.emod_nonneg x (Int.ne_of_gt pos)
  unfold wrap
  omega

theorem intOut_lt (t : IntEt) (sat : Bool) (x : Int) : intOut t sat x < 2 ^ t.n := by
  unfold intOut
  split
  · exact wrap_lt ..
  · split <;> exact wrap_lt ..

theorem raw_pack_intOut (t : IntEt) (sat : Bool) (x : Nat → Int) {j : Nat} (hj : j < t.count) :
    t.raw (t.pack fun j => intOut t sat (x j)) j = intOut t sat (x j) := by
  rw [raw_pack t _ hj, Nat.mod_eq_of_lt (intOut_lt ..)]

theorem le_clamp {lo hi : Int} (h : lo ≤ hi) (x : Int) : lo ≤ clamp lo hi x := by unfold clamp; omega

theorem clamp_le (lo hi x : Int) : clamp lo hi x ≤ hi := by unfold clamp; omega

theorem wrap_of_range {n : Nat} {x : Int} (lo : 0 ≤ x) (hi : x ≤ (2 ^ n : Nat) - 1) : (wrap n x : Int) = x := by
  rw [wrap, Int.emod_eq_of_lt lo (by omega), Int.toNat_of_nonneg lo]

theorem signExt_wrap_of_range {n : Nat} (pos : 0 < n) {x : Int} (lo : -(2 ^ (n - 1) : Nat) ≤ x) (hi : x ≤ (2 ^ (n - 1) : Nat) - 1) :
    signExt (wrap n x) n = x := by
  have twice : 2 ^ n = 2 * 2 ^ (n - 1) := by rw [← Nat.pow_succ', Nat.succ_eq_add_one, Nat.sub_add_cancel pos]
  rw [signExt, Nat.mod_eq_of_lt (wrap_lt ..)]
  by_cases neg : x < 0
  · have up : (wrap n x : Int) = x + (2 ^ n : Nat) := by
      rw [wrap, Int.emod_eq_add_self_emod]
      exact wrap_of_range (n := n) (by omega) (by omega)
    rw [if_neg (by omega), up]
    omega
  · have same := wrap_of_range (n := n) (Int.not_lt.1 neg) (by omega)
    rw [if_pos (by omega), same]

/-- The element of a saturated result is the exact one clamped to the range of its type. -/
theorem elem_pack_saturated (t : IntEt) (x : Nat → Int) {j : Nat} (hj : j < t.count) :
    t.elem (t.pack fun j => intOut t true (x j)) j =
      if t.signed then clamp (-(2 ^ (t.n - 1) : Nat)) ((2 ^ (t.n - 1) : Nat) - 1) (x j) else clamp 0 ((2 ^ t.n : Nat) - 1) (x j) := by
  have pos : 0 < t.n := Nat.pos_of_ne_zero fun h => by simp [IntEt.count, h] at hj
  have half := Nat.two_pow_pos (t.n - 1)
  have all := Nat.two_pow_pos t.n
  rw [IntEt.elem, raw_pack_intOut t true x hj, intOut]
  cases t.signed with
  | true => exact signExt_wrap_of_range pos (le_clamp (by omega) _) (clamp_le ..)
  | false => exact wrap_of_range (le_clamp (by omega) _) (clamp_le ..)

theorem packedElements : Claims.PackedElements := fun _ sat _ _ _ _ hj =>
  ⟨fun _ => raw_pack_intOut _ sat _ hj, raw_pack_intOut _ sat _ hj, elem_pack_saturated _ _ hj⟩

/-! ## One element per lane -/

theorem toNat_signExt (x : Word) : signExt x.toNat 32 = x.toInt := by
  rw [signExt, Nat.mod_eq_of_lt x.isLt, BitVec.toInt_eq_toNat_cond]
  omega

theorem raw_word (g : Bool) (x : Word) : IntEt.raw ⟨32, g⟩ x 0 = x.toNat := by
  rw [IntEt.raw, bitsOf, Nat.mul_zero, Nat.pow_zero, Nat.div_one, Nat.mod_eq_of_lt x.isLt]

theorem elem_word (g : Bool) (x : Word) : IntEt.elem ⟨32, g⟩ x 0 = whole g x := by
  rw [IntEt.elem, raw_word, toNat_signExt]; rfl

theorem pack_word (g : Bool) (f : Nat → Nat) : IntEt.pack ⟨32, g⟩ f = BitVec.ofNat 32 (f 0) := by
  apply BitVec.eq_of_toNat_eq
  rw [← raw_word g, raw_pack _ f (show 0 < 32 / 32 from Nat.one_pos), BitVec.toNat_ofNat]

theorem ofNat_wrap (x : Int) : BitVec.ofNat 32 (wrap 32 x) = BitVec.ofInt 32 x := by
  apply BitVec.eq_of_toNat_eq
  rw [BitVec.toNat_ofNat, BitVec.toNat_ofInt, Nat.mod_eq_of_lt (wrap_lt ..)]; rfl

theorem ofInt_whole (g : Bool) (x : Word) : BitVec.ofInt 32 (whole g x) = x := by
  cases g with
  | false => exact (BitVec.ofInt_natCast ..).trans (BitVec.ofNat_toNat ..)
  | true => exact BitVec.ofInt_toInt

theorem elem2_word (g : Bool) (f : Int → Int → Int) (x y : Word) :
    elem2 ⟨32, g⟩ false f x y = BitVec.ofInt 32 (f (whole g x) (whole g y)) := by
  rw [elem2, pack_word, elem_word, elem_word]
  exact ofNat_wrap _

theorem getLsbD_bitReverse (x : Word) {i : Nat} (hi : i < 32) : (bitReverse x).getLsbD i = x.getLsbD (31 - i) := inMask_maskOf _ hi

theorem wordArithmetic : Claims.WordArithmetic := by
  intro g x y
  refine ⟨?add, ?sub, ?mul, ?left, ?right, ?arith, ?signedHigh, ?high, ?neg, ?reverse⟩
  case add => rw [elem2_word, BitVec.ofInt_add, ofInt_whole, ofInt_whole]
  case sub => rw [elem2_word, Int.sub_eq_add_neg, BitVec.ofInt_add, BitVec.ofInt_neg, ofInt_whole, ofInt_whole, BitVec.sub_eq_add_neg]
  case mul => rw [elem2_word, BitVec.ofInt_mul, ofInt_whole, ofInt_whole]
  case left =>
    rw [shiftLeft, pack_word, raw_word, raw_word, ← Nat.shiftLeft_eq]
    rfl
  case right =>
    rw [shiftRight, pack_word, raw_word, raw_word, ← Nat.shiftRight_eq_div_pow, ← BitVec.toNat_ushiftRight]
    exact BitVec.ofNat_toNat ..
  case arith =>
    rw [shiftArith, pack_word, ofNat_wrap, raw_word, raw_word, toNat_signExt, ← Int.shiftRight_eq_div_pow]
    rfl
  case signedHigh => rw [mulHigh, pack_word, ofNat_wrap, elem_word, elem_word]; rfl
  case high =>
    rw [mulHigh, pack_word, ofNat_wrap, elem_word, elem_word]
    exact BitVec.ofInt_natCast ..
  case neg =>
    rw [elem1, pack_word, elem_word]
    exact (ofNat_wrap _).trans (by rw [BitVec.ofInt_neg, ofInt_whole])
  case reverse =>
    apply BitVec.eq_of_getLsbD_eq
    intro i hi
    rw [getLsbD_bitReverse _ hi, getLsbD_bitReverse _ (by omega), Nat.sub_sub_self (by omega)]

/-- Settles O1: packed elements by the digits of a lane, words by `BitVec` arithmetic modulo 2^32. -/
theorem elementArithmetic : Obligations.ElementArithmetic := ⟨packedElements, wordArithmetic⟩

end Sys2Proof.Machine
end

section
/-! PROOFS. Floating-point instructions (O8): a computation that raises flags, said once for any destinations, and each instruction of rows 5x
and 6x read as one: its meaning names the source rows, and a lane's result and flags. -/

namespace Sys2Proof.Machine

open Sys2Proof Sys2Proof.Safety

/-! ## Computations that raise flags (R124, R148, R400, R401) -/

/-- A register among those written takes its own row in the written lanes. -/
theorem regOf_writeRegs_of_mem {a z : Word} {ds : List (Nat × Row)} {w : Warp} (apart : (ds.map (·.1)).Nodup) {x : Nat × Row}
    (hx : x ∈ ds) (inside : x.1 < w.regs.length) : regOf (writeRegs w a z ds) x.1 = writeRow (regOf w x.1) x.2 a z := by
  induction ds generalizing w with
  | nil => cases hx
  | cons y ds ih =>
    obtain ⟨hy, apart⟩ := List.nodup_cons.1 apart
    rw [writeRegs]
    obtain rfl | hx := List.mem_cons.1 hx
    · rw [writeRegs_other _ _ _ _ _ hy, regOf_set _ _ _ _ inside, if_pos rfl]
    · have other : x.1 ≠ y.1 := fun e => hy (by simpa only [← e] using List.mem_map_of_mem (f := (·.1)) hx)
      rw [ih apart hx (by simpa using inside)]
      simp only [regOf, List.getD, List.getElem?_set_ne other.symm]

theorem lanesOf_maskOf (f : Nat → Bool) : lanesOf (maskOf f) = laneIdx.filter f :=
  List.filter_congr fun _ hl => inMask_maskOf f (mem_laneIdx.1 hl)

/-- The lanes that contribute flags are the active ones without a poisoned source. -/
theorem lanesOf_cleanLanes (p : Option Pfx) (srcs : List Nat) (s : State) :
    lanesOf (cleanLanes (act p s) (srcs.map (regOf (me s)))) =
      (lanesOf (act p s)).filter fun l => srcs.all fun r => !(lane s r l).poison := by
  rw [cleanLanes, lanesOf_maskOf, lanesOf, List.filter_filter]
  refine List.filter_congr fun l _ => ?_
  rw [List.any_map, Bool.and_comm, List.not_any_eq_all_not]
  rfl

/-- Any destinations, each taking its row, with the flags of the clean active lanes. -/
theorem computeFlags_writes {p : Option Pfx} {named : List Nat} {ds : List (Nat × Row)} {srcs : List Nat} {g : Nat → Word × BitVec 5}
    {s : State} (hi : Issuing s) (hc : Calm p named s) (apart : (ds.map (·.1)).Nodup) (inside : ∀ x ∈ ds, x.1 < 256) :
    ∃ t, computeFlags p named ds (srcs.map (regOf (me s))) (fun l => (g l).2) s = .next t ∧
      Retired (ds.map (·.1)) (raiseFlags (raised p srcs g s) s) t ∧ ∀ x ∈ ds, Wrote p s t x.1 (laneAt x.2) := by
  obtain ⟨retired, regs⟩ := flagsAndGo_retired p ds (raised p srcs g s) hi
  refine ⟨_, ?_, retired, fun x hx l hl => ?_⟩
  · simp only [computeFlags, lanesOf_cleanLanes, calm_causes hc, guarded_nil, raised]
  · have row := regOf_writeRegs_of_mem (a := act p s) (z := zer p s) apart hx (hi.regs ▸ inside x hx)
    rw [lane, regOf, regs, ← regOf, row]
    exact laneAt_writeRow _ _ _ _ l hl

/-- One destination: poisoned where a source is, else the lane's result. -/
theorem fpCompute_writes {p : Option Pfx} {named : List Nat} {d : BitVec 8} {srcs : List Nat} {g : Nat → Word × BitVec 5} {s : State}
    (hi : Issuing s) (hc : Calm p named s) :
    ∃ t, fpCompute p named d.toNat (srcs.map (regOf (me s))) g s = .next t ∧ Retired [d.toNat] (raiseFlags (raised p srcs g s) s) t ∧
      Wrote p s t d.toNat fun l => if srcs.any (fun r => (lane s r l).poison) then poisoned else clean (g l).1 := by
  obtain ⟨t, next, retired, wrote⟩ := computeFlags_writes (srcs := srcs) (g := g) hi hc
    (ds := [(d.toNat, laneRow (srcs.map (regOf (me s))) fun l => (g l).1)]) (List.nodup_cons.2 ⟨List.not_mem_nil, List.nodup_nil⟩) (by simpa using d.isLt)
  refine ⟨t, next, retired, fun l hl => (wrote _ (List.mem_singleton_self _) l hl).trans ?_⟩
  rw [laneAt_laneRow _ _ _ hl, List.any_map]
  rfl

theorem writesFloat_of_fpCompute {i : Instr} {p : Option Pfx} {named : List Nat} {d : BitVec 8} {srcs : List Nat}
    {g : State → Nat → Word × BitVec 5} (h : ∀ s, exec i s = fpCompute p named d.toNat (srcs.map (regOf (me s))) (g s) s) :
    WritesFloat i p named d.toNat srcs g := fun s hi hc => h s ▸ fpCompute_writes hi hc

/-! ## Arithmetic (Table ISAF.2) -/

theorem exec_fpBinaryTable {p : Option Pfx} {d a b : BitVec 8} {x : Instr × (State → Nat → Nat → Nat × BitVec 5)}
    (hx : x ∈ Claims.fpBinaryTable p d a b) (s : State) :
    exec x.1 s = fpBinary p d.toNat a.toNat b.toNat (fun _ => x.2 s) s := by
  simp only [Claims.fpBinaryTable, List.mem_cons, List.not_mem_nil, or_false] at hx
  rcases hx with rfl | rfl | rfl | rfl | rfl | rfl | rfl | rfl <;> rfl

theorem exec_fpUnaryTable {p : Option Pfx} {d a : BitVec 8} {x : Instr × (State → Nat → Nat × BitVec 5)}
    (hx : x ∈ Claims.fpUnaryTable p d a) (s : State) : exec x.1 s = fpUnary p d.toNat a.toNat (fun _ => x.2 s) s := by
  simp only [Claims.fpUnaryTable, List.mem_cons, List.not_mem_nil, or_false] at hx
  rcases hx with rfl | rfl | rfl | rfl | rfl | rfl | rfl | rfl | rfl <;> rfl

theorem exec_relations {p : Option Pfx} {d a b : BitVec 8} {x : Instr × Bool × (Fmt → Nat → Nat → Bool)}
    (hx : x ∈ Claims.relations p d a b) (s : State) : exec x.1 s = fpCompare p d.toNat a.toNat b.toNat x.2.1 x.2.2 s := by
  simp only [Claims.relations, List.mem_cons, List.not_mem_nil, or_false] at hx
  rcases hx with rfl | rfl | rfl | rfl <;> rfl

theorem floatArithmetic : Claims.FloatArithmetic := by
  intro p d a b
  refine ⟨fun x hx => writesFloat_of_fpCompute (exec_fpBinaryTable hx), writesFloat_of_fpCompute fun _ => rfl,
    writesFloat_of_fpCompute fun s => ?dot⟩
  case dot => simp only [exec_fdot2, execFdot2, beq_iff_eq]; rfl

theorem floatFunctions : Claims.FloatFunctions := fun _ _ _ _ hx => writesFloat_of_fpCompute (exec_fpUnaryTable hx)

/-! ## Compares and classes (R184, R185) -/

/-- The flag of a compared pair as `fpCompare` finds it, relation by relation. -/
theorem compareFlag_eq (any : Bool) (f : Fmt) (x y : Nat) : Claims.compareFlag any f x y =
    if some x == f.reserved || some y == f.reserved then 0
    else if any && (f.isNaN x || f.isNaN y) then flagNV
    else if f.isSignalling x || f.isSignalling y then flagNV
    else 0 := by
  simp only [Claims.compareFlag, Bool.or_assoc]
  cases any && (f.isNaN x || f.isNaN y) <;> rfl

theorem floatCompares : Claims.FloatCompares := by
  intro p d a b
  refine ⟨fun x hx => writesFloat_of_fpCompute fun s => ?compare, writesOne_of_compute _ d.isLt (fun s => rfl) fun s l hl => ?classes⟩
  case compare =>
    rw [exec_relations hx]
    simp only [compareFlag_eq]
    rfl
  case classes =>
    rw [laneAt_laneRow _ _ _ hl]
    simp only [List.any_cons, List.any_nil, Bool.or_false]
    rfl

/-- Settles O8: each table's meanings are the shared shape, whose completion is `computeFlags_writes`. -/
theorem floatOps : Obligations.FloatOps := ⟨floatArithmetic, floatFunctions, floatCompares⟩

end Sys2Proof.Machine
end

section
/-! PROOFS. Conversions (O9): those of one word are `fpCompute` (O8); CVTN and CVTW take or give a run of registers, and meet the causes of
R394 where the slot's format or the rounding mode is not theirs. -/

namespace Sys2Proof.Machine

open Sys2Proof Sys2Proof.Safety

/-! ## CVTF, CVTFI and CVTIF (R190) -/

theorem conversions : Claims.Conversions := by
  intro p d a k
  refine ⟨?_, ?_, ?_, ?_, ?_, ?_, ?_, ?_, ?_, ?_, ?_, ?_⟩ <;> exact writesFloat_of_fpCompute fun _ => rfl

/-! ## The causes of a slot (R394) -/

section
variable {f : Slot} {v : BitVec 2} (n k : BitVec 3)

theorem slotCauses_refused (refused : variantTakes v f.fmt = false) (narrow : Bool) : slotCauses f n k v narrow =
    [{ cls := 2, code := 0x050, info := BitVec.ofNat 32 (n.toNat + f.fmt * 16 + v.toNat * 256) }] := by
  rw [slotCauses, refused]; rfl

variable (takes : variantTakes v f.fmt = true)
include takes

theorem slotCauses_wide : slotCauses f n k v false = [] := by
  rw [slotCauses, takes]; rfl

theorem slotCauses_narrow {k : BitVec 3} (toNearest : f.fmt = 6 → k = 0) : slotCauses f n k v true = [] := by
  have accepted : ¬(true && f.fmt == 6 && k != 0#3) = true := by simpa using toNearest
  rw [slotCauses, takes, if_neg accepted]; rfl

theorem slotCauses_rounding {k : BitVec 3} (book : f.fmt = 6) (rounds : k ≠ 0) : slotCauses f n k v true =
    [{ cls := 2, code := 0x051, info := BitVec.ofNat 32 (n.toNat + f.fmt * 16 + v.toNat * 256 + k.toNat * 4096) }] := by
  have other : (true && f.fmt == 6 && k != 0#3) = true := by simpa [book] using rounds
  rw [slotCauses, takes, if_pos other]; rfl

end

/-! ## CVTN (R191, R192) -/

/-- What CVTN makes of lane `l`: the codes of the run side by side, and their flags. -/
def narrowed (f : Slot) (k : BitVec 3) (v : BitVec 2) (a : Nat) (s : State) (l : Nat) : Word × BitVec 5 :=
  (BitVec.ofNat 32 (total ((List.range (runLen v)).map fun i =>
    (f.encode k.toNat (lane s (a + i) l).val.toNat).1 % 2 ^ runWidth v * 2 ^ (runWidth v * i))),
   (List.range (runLen v)).foldl (fun fl i => fl ||| (f.encode k.toNat (lane s (a + i) l).val.toNat).2) 0)

theorem foldl_or_congr {u v : Nat → BitVec 5} {xs : List Nat} (h : ∀ i ∈ xs, u i = v i) (fl : BitVec 5) :
    xs.foldl (fun fl i => fl ||| u i) fl = xs.foldl (fun fl i => fl ||| v i) fl := by
  induction xs generalizing fl with
  | nil => rfl
  | cons x xs ih =>
    obtain ⟨hx, hxs⟩ := List.forall_mem_cons.1 h
    rw [List.foldl_cons, List.foldl_cons, hx, ih hxs]

theorem getD_map_regRun {α : Type} (g : Nat → α) (r : Nat) {n i : Nat} (hi : i < n) (x : α) : ((regRun r n).map g).getD i x = g (r + i) := by
  simp [regRun, List.getD, hi]

section
variable {p : Option Pfx} {d a : BitVec 8} {n k : BitVec 3} {v : BitVec 2} {s : State}

theorem execCvtn_goes (free : slotCauses (slotOf s n) n k v true = []) : execCvtn p d a n k v s =
    fpCompute p (d.toNat :: regRun a.toNat (runLen v)) d.toNat ((regRun a.toNat (runLen v)).map (regOf (me s)))
      (narrowed (slotOf s n) k v a.toNat s) s := by
  have source : ∀ i ∈ List.range (runLen v), ∀ l,
      valAt (((regRun a.toNat (runLen v)).map (regOf (me s))).getD i zeroRow) l = (lane s (a.toNat + i) l).val := fun i hi l => by
    rw [getD_map_regRun _ _ (List.mem_range.1 hi)]; rfl
  rw [execCvtn, free, List.isEmpty_nil, if_pos rfl]
  congr 1
  funext l
  refine Prod.ext (congrArg (fun xs => BitVec.ofNat 32 (total xs)) (List.map_congr_left fun i hi => ?_))
    (foldl_or_congr (fun i hi => ?_) 0)
  · simp only [source i hi]
  · simp only [source i hi]

theorem execCvtn_stopped {c : Cause} (calm : Calm p (d.toNat :: regRun a.toNat (runLen v)) s)
    (one : slotCauses (slotOf s n) n k v true = [c]) : execCvtn p d a n k v s = .next (raise c s) := by
  rw [execCvtn, one, calm_causes calm]; rfl

/-! ## CVTW (R193) -/

/-- The FP32 or i32 element `i` of the run that CVTW makes of a lane, and its flags. -/
def widened (f : Slot) (k : BitVec 3) (v : BitVec 2) (x : Word) (i : Nat) : Nat × BitVec 5 :=
  widen f k.toNat (bitsOf x.toNat (runWidth v * i) (runWidth v))

/-- The rows that CVTW writes. -/
def widenedRows (f : Slot) (k : BitVec 3) (v : BitVec 2) (d a : Nat) (s : State) : List (Nat × Row) :=
  (List.range (runLen v)).map fun i =>
    (d + i, laneRow [regOf (me s) a] fun l => BitVec.ofNat 32 (widened f k v (lane s a l).val i).1)

theorem widenedRows_regs (f : Slot) (k : BitVec 3) (v : BitVec 2) (d a : Nat) (s : State) :
    (widenedRows f k v d a s).map (·.1) = regRun d (runLen v) := by
  rw [widenedRows, List.map_map]; rfl

theorem nodup_regRun (r n : Nat) : (regRun r n).Nodup :=
  List.Pairwise.map (r + ·) (fun _ _ h e => h (Nat.add_left_cancel e)) List.nodup_range

theorem execCvtw_goes (free : slotCauses (slotOf s n) n k v false = []) : execCvtw p d a n k v s =
    computeFlags p (a.toNat :: regRun d.toNat (runLen v)) (widenedRows (slotOf s n) k v d.toNat a.toNat s) ([a.toNat].map (regOf (me s)))
      (fun l => (List.range (runLen v)).foldl (fun fl i => fl ||| (widened (slotOf s n) k v (lane s a.toNat l).val i).2) 0) s := by
  rw [execCvtw, free, List.isEmpty_nil, if_pos rfl]; rfl

theorem execCvtw_stopped {c : Cause} (calm : Calm p (a.toNat :: regRun d.toNat (runLen v)) s)
    (one : slotCauses (slotOf s n) n k v false = [c]) : execCvtw p d a n k v s = .next (raise c s) := by
  rw [execCvtw, one, calm_causes calm]; rfl

theorem execCvtw_writes (hi : Issuing s) (calm : Calm p (a.toNat :: regRun d.toNat (runLen v)) s) (fits : d.toNat + runLen v ≤ 256)
    (free : slotCauses (slotOf s n) n k v false = []) :
    ∃ t, execCvtw p d a n k v s = .next t ∧
      Retired (regRun d.toNat (runLen v)) (raiseFlags (raised p [a.toNat] (fun l => (0, (List.range (runLen v)).foldl (fun fl i =>
        fl ||| (widened (slotOf s n) k v (lane s a.toNat l).val i).2) 0)) s) s) t ∧
      ∀ i, i < runLen v → Wrote p s t (d.toNat + i) fun l =>
        from1 (lane s a.toNat l) fun x => BitVec.ofNat 32 (widened (slotOf s n) k v x i).1 := by
  have regs := widenedRows_regs (slotOf s n) k v d.toNat a.toNat s
  have inside : ∀ x ∈ widenedRows (slotOf s n) k v d.toNat a.toNat s, x.1 < 256 := by
    rintro x hx
    obtain ⟨i, hi, rfl⟩ := List.mem_map.1 hx
    have := List.mem_range.1 hi
    show d.toNat + i < 256
    omega
  obtain ⟨t, next, retired, wrote⟩ := computeFlags_writes (srcs := [a.toNat]) (g := fun l => (0, (List.range (runLen v)).foldl
    (fun fl i => fl ||| (widened (slotOf s n) k v (lane s a.toNat l).val i).2) 0)) hi calm (regs ▸ nodup_regRun ..) inside
  refine ⟨t, (execCvtw_goes free).trans next, regs ▸ retired, fun i hi l hl => ?_⟩
  rw [wrote _ (List.mem_map_of_mem (List.mem_range.2 hi)) l hl, laneAt_laneRow _ _ _ hl, List.any_cons, List.any_nil, Bool.or_false]
  rfl

end

theorem slotConversions : Claims.SlotConversions := by
  intro p d a n k v s hi
  refine ⟨fun calm takes toNearest => ?packs, fun calm refused => execCvtn_stopped calm (slotCauses_refused n k refused true),
    fun calm takes book rounds => execCvtn_stopped calm (slotCauses_rounding n takes book rounds),
    fun calm refused => execCvtw_stopped calm (slotCauses_refused n k refused false),
    fun calm fits takes => execCvtw_writes hi calm fits (slotCauses_wide n k takes)⟩
  case packs =>
    obtain ⟨t, next, retired, wrote⟩ := fpCompute_writes (g := narrowed (slotOf s n) k v a.toNat s) hi calm
    exact ⟨t, (execCvtn_goes (slotCauses_narrow n takes toNearest)).trans next, retired, wrote⟩

/-- Settles O9: the conversions of one word are computations that raise flags; a slot's causes say which of CVTN's and CVTW's outcomes it is. -/
theorem formatConversions : Obligations.FormatConversions := ⟨conversions, slotConversions⟩

end Sys2Proof.Machine
end

section
/-! PROOFS. A matrix product's tile (O39): each element of the accumulators is a word of its own, so a K-step writes one word and leaves
every other; the tile is the K-steps of words that lie apart, one after another. -/

namespace Sys2Proof.Machine

open Sys2Proof

/-! ## A word of memory written -/

theorem ofBytes_toBytes (n v : Nat) : ofBytes (toBytes n v) = v % 256 ^ n := by
  induction n generalizing v with
  | zero => rw [Nat.pow_zero, Nat.mod_one]; rfl
  | succ n ih => rw [toBytes, ofBytes, ih, Nat.pow_succ', Nat.mod_mul, BitVec.toNat_ofNat]

theorem bad_mark (m : Memory) (w x : Nat) (p : Bool) : (m.mark w p).bad x = if wordBase x = w then p else m.bad x := by
  rw [Bool.eq_iff_iff]
  simp only [Memory.bad, List.contains_iff_mem, mem_mark]
  split
  next => rfl
  next => exact List.contains_iff_mem.symm

theorem setBytes_poison (bs : List Byte) (m : Memory) (a : Nat) : (m.setBytes a bs).poison = m.poison := by
  induction bs generalizing m a with
  | nil => rfl
  | cons b bs ih => exact ih ..

theorem wordBase_of_aligned {a : Nat} (ha : a % 4 = 0) : wordBase a = a := by simp only [wordBase]; omega

theorem wordsTouched_word {a : Nat} (ha : a % 4 = 0) : wordsTouched a 4 = [a] := by
  have count : (a + 4 - 1) / 4 - a / 4 + 1 = 1 := by omega
  have first : (a / 4 + 0) * 4 = a := by omega
  rw [wordsTouched, if_neg (by decide), count, List.range_one, List.map_singleton, first]

theorem wordsCovered_word {a : Nat} (ha : a % 4 = 0) : wordsCovered a 4 = [a] := by
  simp [wordsCovered, wordsTouched_word ha]

/-- A lane as a computation delivers it: a clean value, or the poison pattern. -/
def Delivered (v : Lane) : Prop := v = poisoned ∨ ∃ x, v = clean x

/-- The word at `a` written with a lane's value and poison. -/
def Memory.putLane (m : Memory) (a : Nat) (v : Lane) : Memory := m.write a (toBytes 4 v.val.toNat) v.poison

theorem lane_congr {m m' : Memory} {a : Nat} (ha : a % 4 = 0) (hg : ∀ x, wordBase x = a → m'.get x = m.get x)
    (hb : m'.bad a = m.bad a) : m'.lane a = m.lane a := by
  have bytes : m'.read a 4 = m.read a 4 := List.map_congr_left fun i hi => hg _ (by
    have := List.mem_range.1 hi
    simp only [wordBase]; omega)
  rw [Memory.lane, hb, bytes]; rfl

section
variable {m : Memory} {a : Nat} (ha : a % 4 = 0) (v : Lane)
include ha

theorem bad_putLane (x : Nat) : (m.putLane a v).bad x = if wordBase x = a then v.poison else m.bad x := by
  unfold Memory.putLane Memory.write
  rw [length_toBytes, wordsTouched_word ha, wordsCovered_word ha]
  cases v.poison with
  | true => exact bad_mark ..
  | false =>
    refine (bad_mark ..).trans ?_
    rw [Memory.bad, setBytes_poison]; rfl

variable (h : m.wf = true)
include h

theorem get_putLane_of_ne {x : Nat} (hx : wordBase x ≠ a) : (m.putLane a v).get x = m.get x := by
  unfold Memory.putLane
  cases v.poison with
  | true => exact get_write_poison ..
  | false =>
    rw [get_write h, length_toBytes, if_neg]
    simp only [wordBase] at hx
    omega

theorem lane_putLane_self {v : Lane} (hv : Delivered v) : (m.putLane a v).lane a = v := by
  rw [Memory.lane, bad_putLane ha, if_pos (wordBase_of_aligned ha)]
  obtain rfl | ⟨x, rfl⟩ := hv
  · rfl
  · have bytes : (m.putLane a (clean x)).read a 4 = toBytes 4 x.toNat := by
      have := read_write h a (toBytes 4 x.toNat)
      rwa [length_toBytes] at this
    rw [bytes, ofBytes_toBytes, Nat.mod_eq_of_lt (show x.toNat < 256 ^ 4 from x.isLt), BitVec.ofNat_toNat, BitVec.setWidth_eq]; rfl

theorem lane_putLane_of_ne {b : Nat} (hb : b % 4 = 0) (hne : b ≠ a) : (m.putLane a v).lane b = m.lane b :=
  lane_congr hb (fun _ hx => get_putLane_of_ne ha v h (hx ▸ hne))
    ((bad_putLane ha v b).trans (if_neg (by rwa [wordBase_of_aligned hb])))

end

/-! ## K-steps of words that lie apart -/

theorem delivered_kElem (sa sb : Slot) (c : Lane) (xs : List (Elem × Elem)) : Delivered (kElem sa sb c xs) := by
  unfold kElem
  split
  · exact .inl rfl
  · split
    · exact .inr ⟨_, rfl⟩
    · exact .inr ⟨_, rfl⟩

theorem accStep_eq (m : Memory) (a : Nat) (zf : Bool) (sa sb : Slot) (xs : List (Elem × Elem)) :
    accStep m a zf sa sb xs = m.putLane a (kElem sa sb (if zf then {} else m.lane a) xs) := rfl

/-- The K-steps of the elements `ks`, one after another: element `k` is the word at `at' k` and takes the products `xs k`. -/
def accSteps {α : Type} (at' : α → Nat) (zf : Bool) (sa sb : Slot) (xs : α → List (Elem × Elem)) (ks : List α) (m : Memory) : Memory :=
  ks.foldl (fun m k => accStep m (at' k) zf sa sb (xs k)) m

section
variable {α : Type} {at' : α → Nat} (ha : ∀ k, at' k % 4 = 0) (zf : Bool) (sa sb : Slot) (xs : α → List (Elem × Elem))

theorem wf_accSteps (ks : List α) {m : Memory} (h : m.wf = true) : (accSteps at' zf sa sb xs ks m).wf = true := by
  induction ks generalizing m with
  | nil => exact h
  | cons j ks ih => exact ih (wf_write h ..)

include ha

theorem bad_accSteps_of_ne {ks : List α} (m : Memory) {x : Nat} (hx : ∀ k ∈ ks, wordBase x ≠ at' k) :
    (accSteps at' zf sa sb xs ks m).bad x = m.bad x := by
  induction ks generalizing m with
  | nil => rfl
  | cons j ks ih =>
    obtain ⟨hj, hks⟩ := List.forall_mem_cons.1 hx
    exact (ih _ hks).trans ((bad_putLane (ha j) _ x).trans (if_neg hj))

theorem get_accSteps_of_ne {ks : List α} {m : Memory} (h : m.wf = true) {x : Nat} (hx : ∀ k ∈ ks, wordBase x ≠ at' k) :
    (accSteps at' zf sa sb xs ks m).get x = m.get x := by
  induction ks generalizing m with
  | nil => rfl
  | cons j ks ih =>
    obtain ⟨hj, hks⟩ := List.forall_mem_cons.1 hx
    exact (ih (wf_write h ..) hks).trans (get_putLane_of_ne (ha j) _ h hj)

theorem lane_accSteps_of_ne {ks : List α} {m : Memory} (h : m.wf = true) {a : Nat} (hw : a % 4 = 0) (hne : ∀ k ∈ ks, a ≠ at' k) :
    (accSteps at' zf sa sb xs ks m).lane a = m.lane a :=
  lane_congr hw (fun _ hx => get_accSteps_of_ne ha zf sa sb xs h (hx ▸ hne))
    (bad_accSteps_of_ne ha zf sa sb xs m (by rwa [wordBase_of_aligned hw]))

/-- Each of the words that lie apart takes one K-step on its old value. -/
theorem lane_accSteps {ks : List α} {m : Memory} (h : m.wf = true) (apart : (ks.map at').Nodup) {k : α} (hk : k ∈ ks) :
    (accSteps at' zf sa sb xs ks m).lane (at' k) = kElem sa sb (if zf then {} else m.lane (at' k)) (xs k) := by
  induction ks generalizing m with
  | nil => cases hk
  | cons j ks ih =>
    obtain ⟨hj, apart⟩ := List.nodup_cons.1 apart
    have wf : (accStep m (at' j) zf sa sb (xs j)).wf = true := wf_write h ..
    obtain rfl | hk := List.mem_cons.1 hk
    · have later : ∀ i ∈ ks, at' k ≠ at' i := fun i hi e => hj (e ▸ List.mem_map_of_mem hi)
      exact (lane_accSteps_of_ne ha zf sa sb xs wf (ha k) later).trans (lane_putLane_self (ha k) h (delivered_kElem ..))
    · have first : at' k ≠ at' j := fun e => hj (e ▸ List.mem_map_of_mem hk)
      have kept : (accStep m (at' j) zf sa sb (xs j)).lane (at' k) = m.lane (at' k) := lane_putLane_of_ne (ha j) _ h (ha k) first
      exact (ih wf apart hk).trans (by rw [kept])

end

/-! ## The tile (R248) -/

/-- The machine address of element (i, n) of a tile. -/
def tileAt (acc cols : Nat) (x : Nat × Nat) : Nat := acc + 4 * cols * x.1 + 4 * x.2

/-- The elements of a tile, row by row. -/
def tileCells (cols : Nat) : List (Nat × Nat) := (List.range 16).flatMap fun i => (List.range cols).map fun n => (i, n)

theorem mem_tileCells {cols : Nat} {x : Nat × Nat} : x ∈ tileCells cols ↔ x.1 < 16 ∧ x.2 < cols := by
  obtain ⟨i, n⟩ := x
  simp [tileCells]

theorem tileAt_inj {acc cols : Nat} {x y : Nat × Nat} (hx : x.2 < cols) (hy : y.2 < cols)
    (h : tileAt acc cols x = tileAt acc cols y) : x = y := by
  have place : cols * x.1 + x.2 = cols * y.1 + y.2 := by
    simp only [tileAt, Nat.mul_assoc] at h; omega
  have row := congrArg (· / cols) place
  have col := congrArg (· % cols) place
  have pos : 0 < cols := by omega
  simp only [Nat.mul_add_div pos, Nat.div_eq_of_lt hx, Nat.div_eq_of_lt hy, Nat.mul_add_mod, Nat.mod_eq_of_lt hx,
    Nat.mod_eq_of_lt hy, Nat.add_zero] at row col
  exact Prod.ext row col

theorem nodup_tileCells (cols : Nat) : (tileCells cols).Nodup := by
  refine List.pairwise_flatMap.2 ⟨fun i _ => List.Pairwise.map _ (fun _ _ h e => h (Prod.mk.inj e).2) List.nodup_range,
    List.Pairwise.imp (fun rows x hx y hy => ?_) List.nodup_range⟩
  obtain ⟨_, -, rfl⟩ := List.mem_map.1 hx
  obtain ⟨_, -, rfl⟩ := List.mem_map.1 hy
  exact fun e => rows (Prod.mk.inj e).1

theorem nodup_tileAt (acc cols : Nat) : ((tileCells cols).map (tileAt acc cols)).Nodup :=
  List.pairwise_map.2 (List.Pairwise.imp_of_mem (fun hx hy apart e =>
    apart (tileAt_inj (mem_tileCells.1 hx).2 (mem_tileCells.1 hy).2 e)) (nodup_tileCells cols))

/-- An element of a tile is within its 64 · cols bytes. -/
theorem tileAt_bounds (acc : Nat) {cols : Nat} {x : Nat × Nat} (hx : x ∈ tileCells cols) :
    acc ≤ tileAt acc cols x ∧ tileAt acc cols x + 4 ≤ acc + 64 * cols := by
  obtain ⟨row, col⟩ := mem_tileCells.1 hx
  have := Nat.mul_le_mul_left cols (Nat.le_of_lt_succ row)
  simp only [tileAt, Nat.mul_assoc]
  omega

/-- The products of element (i, n): row i of A with row n of the bank (R248). -/
def elementProducts (sa : Slot) (b : Bank) (rows : List Row) (x : Nat × Nat) : List (Elem × Elem) :=
  (List.range b.kw).map fun k => (aElem (rows.getD x.1 zeroRow) (codeBits sa.fmt) 0 k, bElem b x.2 k)

theorem mmaTile_eq (m : Memory) (acc cols : Nat) (zf : Bool) (sa : Slot) (b : Bank) (rows : List Row) :
    mmaTile m acc cols zf sa b rows = accSteps (tileAt acc cols) zf sa b.slot (elementProducts sa b rows) (tileCells cols) m := by
  rw [accSteps, tileCells, List.foldl_flatMap]
  simp only [List.foldl_map]
  rfl

/-- Settles O39: the tile is the K-steps of its elements, whose words lie apart and inside its 64 · cols bytes. -/
theorem tileProducts : Obligations.TileProducts := by
  intro m acc cols zf sa b rows h ha
  have aligned : ∀ x, tileAt acc cols x % 4 = 0 := fun x => by simp only [tileAt, Nat.mul_assoc]; omega
  simp only [mmaTile_eq]
  refine ⟨fun i n hi hn => ?element, fun x hx => ?frame, wf_accSteps _ _ _ _ _ h⟩
  case element => exact lane_accSteps aligned zf sa b.slot _ h (nodup_tileAt acc cols) (mem_tileCells.2 ⟨hi, hn⟩ : (i, n) ∈ _)
  case frame =>
    have outside : ∀ k ∈ tileCells cols, wordBase x ≠ tileAt acc cols k := fun k hk => by
      have := tileAt_bounds acc hk
      have := aligned k
      simp only [wordBase]; omega
    exact ⟨get_accSteps_of_ne aligned _ _ _ _ h outside, bad_accSteps_of_ne aligned _ _ _ _ m outside⟩

end Sys2Proof.Machine
end

section
/-! PROOFS. Cross-lane instructions (O10): shuffles, votes and ELECT are computations of one row (R195, R196); the reductions and SCAN write one
row and raise flags (R197, R198). -/

namespace Sys2Proof.Machine

open Sys2Proof Sys2Proof.Safety

/-! ## Shuffles (R195) -/

theorem shuffles : Claims.Shuffles := by
  intro p d a b
  refine ⟨?_, ?_, ?_, ?_⟩ <;> exact writesOne_of_compute _ d.isLt (fun _ => rfl) fun _ l hl => laneAt_rowOf _ l hl

/-! ## Votes (R196) -/

theorem poisoned_or_clean (m v : Word) : (if m = 0 then clean v else poisoned) = if m != 0#32 then poisoned else clean v := by
  simp only [bne_iff_ne, ne_eq, ite_not]; rfl

/-- A value over the active lanes is the poison pattern in every lane where one of them is poisoned. -/
theorem writesOne_of_overLanes {i : Instr} {p : Option Pfx} {d a : BitVec 8} {f : Word → Row → Nat → Word} {g : State → Nat → Word}
    (h : ∀ s, exec i s = overLanes p d a f s) (hg : ∀ s l, f (act p s) (regOf (me s) a.toNat) l = g s l) :
    WritesOne i p [d.toNat, a.toNat] d.toNat fun s l =>
      if poisonMask (regOf (me s) a.toNat) (act p s) = 0 then clean (g s l) else poisoned :=
  writesOne_of_compute _ d.isLt h fun s l hl => by
    rw [laneAt_rowOf _ l hl, ← hg s l, poisoned_or_clean]

theorem truth_beq (x y : Word) : truth (x == y) = if x = y then 1 else 0 := by simp only [truth, beq_iff_eq]; rfl

theorem truth_bne (x y : Word) : truth (x != y) = if x = y then 0 else 1 := by simp only [truth, bne_iff_ne, ne_eq, ite_not]; rfl

theorem voteResults : Claims.Votes := by
  intro p d a
  refine ⟨writesOne_of_overLanes (exec_vall p d a) fun s l => ?all, writesOne_of_overLanes (exec_vany p d a) fun s l => ?any,
    writesOne_of_overLanes (exec_ballot p d a) fun s l => ?ballot, writesOne_of_overLanes (exec_matchv p d a) fun s l => ?same,
    writesOne_of_compute _ d.isLt (exec_elect p d) fun s l hl => ?elect⟩
  case all => exact truth_beq _ _
  case any => exact truth_bne _ _
  case ballot => rfl
  case same => rfl
  case elect => exact laneAt_rowOf _ l hl

/-! ## Reductions and SCAN (R197, R198) -/

/-- An instruction that nothing stops, which writes one row and raises flags. -/
theorem writesRaising_of_flagsAndGo {i : Instr} {p : Option Pfx} {named : List Nat} {d : BitVec 8} {fl : State → BitVec 5}
    {f : State → Nat → Lane}
    (h : ∀ s, exec i s = guarded (laneCauses p named s)
      (advance (holdRegs [d.toNat] true (raiseFlags (fl s) (writeDests p [(d.toNat, rowOf (f s))] s)))) s) :
    WritesRaising i p named d.toNat fl f := fun s hi hc =>
  ⟨_, (h s).trans (by rw [calm_causes hc]; rfl), (flagsAndGo_retired p [(d.toNat, rowOf (f s))] (fl s) hi).1, fun l hl =>
    (flags_wrote p d.toNat (rowOf (f s)) (fl s) d.isLt hi l hl).trans (by rw [laneAt_rowOf _ l hl])⟩

/-- The flags of the lanes whose mask is empty: the others keep what the lanes before them raised. -/
theorem foldl_or_filter (m : Nat → Word) (g : Nat → BitVec 5) (ls : List Nat) :
    (ls.filter fun l => m l == 0#32).foldl (fun fl l => fl ||| g l) 0 = ls.foldl (fun fl l => if m l != 0#32 then fl else fl ||| g l) 0 := by
  simp only [List.foldl_filter, bne_iff_ne, beq_iff_eq, ne_eq, ite_not]

/-- Up to or below a lane, by SCAN's bit E. -/
theorem scanLanes_eq (m : Word) (e : BitVec 1) (l : Nat) :
    scanLanes m (e == 1#1) l = maskOf fun k => inMask m k && (decide (k < l) || (e == 0 && k == l)) := by
  have : (!(e == 1#1)) = (e == 0) := by revert e; decide
  rw [scanLanes, this]

/-- A reduction is the same value in every lane. -/
theorem writesRaising_of_reduceRow {i : Instr} {p : Option Pfx} {d a : BitVec 8} {op : RedOp} (h : ∀ s, exec i s = reduceRow op p d a s) :
    WritesRaising i p [d.toNat, a.toNat] d.toNat
      (fun s => if poisonMask (regOf (me s) a.toNat) (act p s) != 0#32 || act p s == 0#32 then 0
        else (reduce (me s) op (regOf (me s) a.toNat) (act p s)).2)
      fun s _ => if poisonMask (regOf (me s) a.toNat) (act p s) = 0 then clean (reduce (me s) op (regOf (me s) a.toNat) (act p s)).1
        else poisoned := by
  simp only [poisoned_or_clean]
  exact writesRaising_of_flagsAndGo h

theorem reductions : Claims.Reductions := by
  intro p d a e q
  refine ⟨writesRaising_of_reduceRow (exec_redadd p d a), writesRaising_of_reduceRow (exec_redmin p d a),
    writesRaising_of_reduceRow (exec_redmax p d a), writesRaising_of_reduceRow (exec_redand p d a),
    writesRaising_of_reduceRow (exec_redor p d a), writesRaising_of_flagsAndGo fun s => ?scan⟩
  case scan =>
    simp only [exec_scan, execScan, poisoned_or_clean, foldl_or_filter, ← scanLanes_eq, beq_iff_eq]
    rfl

/-- Settles O10: each instruction is one of the shared shapes, a computation of one row or one row with flags. -/
theorem crossLane : Obligations.CrossLane := ⟨shuffles, voteResults, reductions⟩

end Sys2Proof.Machine
end

section
/-! PROOFS. XCHG and XCHG_MATCH (O21): what finds a warp, a fragment or a partner, which a wait does not change; what an XCHG leaves while it
waits; and the two runs that XCHG_MATCH exchanges (R199, R397). -/

namespace Sys2Proof.Machine

open Sys2Proof Sys2Proof.Safety

/-! ## Finding and updating the first -/

section
variable {α β : Type}

theorem indexWhere_congr {p : α → Bool} : ∀ {xs ys : List α}, xs.map p = ys.map p → indexWhere p xs = indexWhere p ys
  | [], [], _ => rfl
  | x :: xs, y :: ys, h => by
    obtain ⟨head, tail⟩ := List.cons.inj h
    simp only [indexWhere, head, indexWhere_congr tail]

theorem getElem?_indexWhere (p : α → Bool) : ∀ xs : List α, xs[indexWhere p xs]? = xs.find? p
  | [] => rfl
  | x :: xs => by
    rw [indexWhere, List.find?_cons]
    cases p x with
    | true => rfl
    | false => exact getElem?_indexWhere p xs

/-- The element updated is the first that met the test before. -/
theorem getElem?_updateFirst_indexWhere (p : α → Bool) (g : α → α) : ∀ xs : List α,
    (updateFirst p g xs)[indexWhere p xs]? = (xs[indexWhere p xs]?).map g
  | [] => rfl
  | x :: xs => by
    rw [updateFirst, indexWhere]
    cases p x with
    | true => rfl
    | false => exact getElem?_updateFirst_indexWhere p g xs

theorem find?_updateFirst_self {p : α → Bool} {g : α → α} (hp : ∀ x, p (g x) = p x) : ∀ xs : List α,
    (updateFirst p g xs).find? p = (xs.find? p).map g
  | [] => rfl
  | x :: xs => by
    rw [updateFirst]
    cases h : p x with
    | true => rw [if_pos rfl, List.find?_cons_of_pos ((hp x).trans h), List.find?_cons_of_pos h]; rfl
    | false => rw [if_neg Bool.false_ne_true, List.find?_cons_of_neg (by simp [h]), List.find?_cons_of_neg (by simp [h]),
        find?_updateFirst_self hp xs]

/-- What a search finds keeps whatever an update keeps, where the update does not change what the search asks. -/
theorem find?_updateFirst_map {f p : α → Bool} {g : α → α} (h : α → β) (hp : ∀ x, p (g x) = p x) (hg : ∀ x, h (g x) = h x) :
    ∀ xs : List α, ((updateFirst f g xs).find? p).map h = (xs.find? p).map h
  | [] => rfl
  | x :: xs => by
    rw [updateFirst]
    split
    · rw [List.find?_cons, List.find?_cons, hp]
      cases p x with
      | true => exact congrArg some (hg x)
      | false => rfl
    · rw [List.find?_cons, List.find?_cons]
      cases p x with
      | true => rfl
      | false => exact find?_updateFirst_map h hp hg xs

theorem getD_eq_getElem_of_lt {xs : List α} {i : Nat} (hi : i < xs.length) (x : α) : xs.getD i x = xs[i] := by
  rw [List.getD_eq_getElem?_getD, List.getElem?_eq_getElem hi]
  rfl

theorem getD_eq_of_map_eq (h : α → β) {xs ys : List α} (e : xs.map h = ys.map h) (i : Nat) (x : α) : h (xs.getD i x) = h (ys.getD i x) := by
  rw [List.getD_eq_getElem?_getD, List.getD_eq_getElem?_getD, ← Option.getD_map h, ← Option.getD_map h, ← List.getElem?_map,
    ← List.getElem?_map, e]

theorem isEmpty_set (xs : List α) (i : Nat) (x : α) : (xs.set i x).isEmpty = xs.isEmpty := by
  cases xs with
  | nil => rfl
  | cons => cases i <;> rfl

theorem map_set_of_eq (h : α → β) {xs : List α} {i : Nat} {x : α} (hi : i < xs.length) (e : h x = h xs[i]) :
    (xs.set i x).map h = xs.map h := by
  rw [List.map_set, e, ← List.getElem_map h (h := by simpa using hi), List.set_getElem_self]

end

/-! ## Partners -/

/-- A team apart from its performance counters. -/
def unperf (t : Team) : Team := { t with perf := [] }

theorem find?_countPerf (s : State) (team k n : Nat) {p : Team → Bool} (hp : ∀ t perf, p { t with perf := perf } = p t) :
    ((countPerf s team k n).teams.find? p).map unperf = (s.teams.find? p).map unperf := by
  refine find?_updateFirst_map unperf (fun t => ?_) (fun t => ?_) s.teams
  · exact hp t _
  · rfl

theorem teamOf_countPerf (s : State) (team k n : Nat) (w : Warp) : unperf (teamOf (countPerf s team k n) w) = unperf (teamOf s w) := by
  have found := find?_countPerf s team k n (p := fun t => t.id == w.team) fun _ _ => rfl
  simp only [teamOf, teamById, ← Option.getD_map unperf, found]

theorem windowTarget_countPerf (s : State) (team k n : Nat) {t u : Team} (h : unperf u = unperf t) (r : Nat) :
    (windowTarget (countPerf s team k n) u r).map unperf = (windowTarget s t r).map unperf := by
  have task : u.task = t.task := (congrArg Team.task h :)
  have copy : u.copy = t.copy := (congrArg Team.copy h :)
  have launch : taskAt (countPerf s team k n) t.task = taskAt s t.task := rfl
  simp only [windowTarget, task, copy, launch]
  split
  · exact congrArg some h
  · exact find?_countPerf s team k n fun _ _ => rfl

/-- What a warp is found by, and whether it has ended. -/
structure Presence where
  core : Nat
  slot : Nat
  team : Nat
  wid : Nat
  halted : Bool
  gone : Bool

def presence (w : Warp) : Presence := ⟨w.core, w.slot, w.team, w.wid, w.halted, w.frags.isEmpty⟩

theorem warpAt_congr {s t : State} (h : t.warps.map presence = s.warps.map presence) (core slot : Nat) : warpAt t core slot = warpAt s core slot :=
  indexWhere_congr (by simpa [presence, Function.comp_def] using congrArg (List.map fun x => x.core == core && x.slot == slot) h)

theorem warpOfTeam_congr {s t : State} (h : t.warps.map presence = s.warps.map presence) (team wid : Nat) :
    warpOfTeam t team wid = warpOfTeam s team wid :=
  indexWhere_congr (by simpa [presence, Function.comp_def] using congrArg (List.map fun x => x.team == team && x.wid == wid) h)

/-- The partner depends on the target of the window and on what warps are found by. -/
theorem xchgPartner_congr {s t : State} {v w : Warp} {r : Nat} (wid : v.wid = w.wid) (warps : t.warps.map presence = s.warps.map presence)
    (target : (windowTarget t (teamOf t v) r).map unperf = (windowTarget s (teamOf s w) r).map unperf) :
    xchgPartner t v r = xchgPartner s w r := by
  have present : ∀ i, presence (t.warps.getD i {}) = presence (s.warps.getD i {}) := fun i =>
    getD_eq_of_map_eq presence warps i {}
  have halted := fun i => (congrArg Presence.halted (present i) :)
  have gone := fun i => (congrArg Presence.gone (present i) :)
  have count : t.warps.length = s.warps.length := by simpa using congrArg List.length warps
  simp only [presence] at halted gone
  rw [xchgPartner, xchgPartner]
  cases ht : windowTarget t (teamOf t v) r <;> cases hs : windowTarget s (teamOf s w) r <;> rw [ht, hs] at target
  case some.some x y =>
    have id : x.id = y.id := (congrArg Team.id (Option.some.inj target) :)
    simp only [id, wid, warpOfTeam_congr warps, halted, gone, count]
  all_goals cases target

theorem xchgPartner_lt {s : State} {w : Warp} {r i : Nat} (h : xchgPartner s w r = some i) : i < s.warps.length := by
  rw [xchgPartner] at h
  split at h
  · cases h
  · dsimp only at h
    split at h
    · next present =>
      obtain rfl := Option.some.inj h
      simp only [Bool.and_eq_true, decide_eq_true_eq] at present
      exact present.1.1
    · cases h

/-! ## What XCHG leaves while it waits (R199) -/

/-- The exchange that the issuing warp asks of the warp at place `i`, with the snapshot of its sources. -/
def xchgOf (d e : BitVec 8) (k n : BitVec 4) (i : Nat) (s : State) : Xchg :=
  { region := k.toNat, word := s.cur.word, ordinal := sentTo (me s) (s.warps.getD i {}).team, dest := d.toNat, count := n.toNat + 1
    exec := (fr s).exec, snapshot := (regRun e.toNat (n.toNat + 1)).map (regOf (me s)), frag := (fr s).id, hold := s.nextId
    team := (s.warps.getD i {}).team }

/-- The issuing warp while it waits with exchange `x`. -/
def waitingWarp (x : Xchg) (s : State) : Warp :=
  { dirtied (me s) (regRun x.dest x.count) with
    frags := (me s).frags.set s.cur.frag { fr s with wait := .xchg }
    xchg := some x
    holds := (me s).holds ++ [{ id := s.nextId, regs := regRun x.dest x.count }]
    xchgSent := put (me s).xchgSent x.team (x.ordinal + 1) }

/-- The state in which the issuing warp waits with exchange `x`. -/
def waitingFor (x : Xchg) (s : State) : State :=
  countPerf { setMe s (waitingWarp x s) with nextId := s.nextId + 1 } (me s).team 0 1

/-- The issuing warp and then its fragment replaced, a number given between them. -/
theorem setFr_setMe {s : State} (hi : Issuing s) (w : Warp) (f : Frag) (n : Nat) : setFr { setMe s w with nextId := n } f =
    { setMe s { w with frags := w.frags.set s.cur.frag f } with nextId := n } := by
  have mine : me { setMe s w with nextId := n } = w := me_setMe s w hi.warp
  rw [setFr, mine]
  simp only [setMe, setWarp, List.set_set]

section
variable {d e : BitVec 8} {k n : BitVec 4} {s : State} (hi : Issuing s)
  (inside : Inside (regRun d.toNat (n.toNat + 1) ++ regRun e.toNat (n.toNat + 1)) s)
include inside

theorem execXchg_alone (alone : xchgPartner s (me s) k.toNat = none) :
    execXchg d e k n s = .next (raise { cls := 2, code := 0x061 } s) := by
  simp only [execXchg, alone, outside_eq_nil inside]
  exact guarded_one _ _ _

include hi

theorem execXchg_waits {i : Nat} (partner : xchgPartner s (me s) k.toNat = some i) :
    execXchg d e k n s = .next (waitingFor (xchgOf d e k n i s) s) := by
  simp only [execXchg, partner, outside_eq_nil inside, guarded_nil, setFr_setMe hi]
  rfl

end

section
variable {s : State} (x : Xchg)

theorem getD_waitingFor_of_ne {j : Nat} (apart : j ≠ s.cur.warp) : (waitingFor x s).warps.getD j {} = s.warps.getD j {} := by
  simp [waitingFor, List.getD, apart.symm]

variable (hi : Issuing s)
include hi

theorem me_waitingFor : me (waitingFor x s) = waitingWarp x s := me_setMe s _ hi.warp

theorem fr_waitingFor : fr (waitingFor x s) = { fr s with wait := .xchg } := by
  rw [fr, me_waitingFor x hi]
  simp [waitingWarp, waitingFor, List.getD, hi.frag]

theorem presence_waitingFor : (waitingFor x s).warps.map presence = s.warps.map presence := by
  have mine : me s = s.warps[s.cur.warp]'hi.warp := by rw [me, getD_eq_getElem_of_lt hi.warp]
  have frags : (waitingWarp x s).frags.isEmpty = (me s).frags.isEmpty := isEmpty_set _ _ _
  refine map_set_of_eq presence hi.warp ?_
  rw [presence, frags, ← mine]
  rfl

theorem partner_waitingFor {v w : Warp} (team : v.team = w.team) (wid : v.wid = w.wid) (r : Nat) :
    xchgPartner (waitingFor x s) v r = xchgPartner s w r := by
  have same : teamOf { setMe s (waitingWarp x s) with nextId := s.nextId + 1 } v = teamOf s w := by rw [teamOf, teamOf, team]; rfl
  exact xchgPartner_congr wid (presence_waitingFor x hi)
    (windowTarget_countPerf _ _ _ _ ((teamOf_countPerf _ _ _ _ v).trans (congrArg unperf same)) r)

section
variable (first : indexWhere (fun f => f.id == (fr s).id) (me s).frags = s.cur.frag)
include first

theorem indexWhere_waitingWarp : indexWhere (fun f => f.id == (fr s).id) (waitingWarp x s).frags = s.cur.frag := by
  refine (indexWhere_congr (map_set_of_eq _ hi.frag ?_)).trans first
  rw [fr, getD_eq_getElem_of_lt hi.frag]

theorem fragById_waitingWarp : fragById (waitingWarp x s) (fr s).id = some { fr s with wait := .xchg } := by
  rw [fragById, ← getElem?_indexWhere, indexWhere_waitingWarp x hi first]
  exact List.getElem?_set_self hi.frag

end

end

/-! ## The runs exchanged (R199) -/

/-- The rows that exchange `x` receives from exchange `y`, with their registers. -/
def received (x y : Xchg) : List (Nat × Row) := y.snapshot.zipIdx.map fun r => (x.dest + r.2, r.1)

theorem received_regs (x y : Xchg) : (received x y).map (·.1) = regRun x.dest y.snapshot.length := by
  rw [received, List.map_map, regRun, List.range_eq_range', ← List.zipIdx_map_snd, List.map_map]
  rfl

theorem mem_received {x y : Xchg} {k : Nat} (hk : k < y.snapshot.length) : (x.dest + k, y.snapshot.getD k []) ∈ received x y := by
  refine List.mem_map.2 ⟨(y.snapshot.getD k [], k), List.mk_mem_zipIdx_iff_getElem?.2 ?_, rfl⟩
  rw [getD_eq_getElem_of_lt hk, List.getElem?_eq_getElem hk]

@[simp] theorem dropXchg_xchg (w : Warp) : (dropXchg w).xchg = none := by
  unfold dropXchg; split
  · assumption
  · rfl

@[simp] theorem dropXchg_regs (w : Warp) : (dropXchg w).regs = w.regs := by unfold dropXchg; split <;> rfl

@[simp] theorem dropXchg_frags (w : Warp) : (dropXchg w).frags = w.frags := by unfold dropXchg; split <;> rfl

/-- A fragment goes on from its XCHG. -/
def goneOn (f : Frag) : Frag := { f with wait := .none, pc := f.pc + 4#57 }

section
variable (v : Warp) (x y : Xchg)

theorem xchgInto_xchg : (xchgInto v x y).xchg = none := dropXchg_xchg _

theorem xchgInto_frags : (xchgInto v x y).frags = updateFirst (fun f => f.id == x.frag) goneOn v.frags := by
  have kept := (congrArg Warp.frags (writeRegs_rest v (y.exec &&& ((fragById v x.frag).getD {}).frag) 0 (received x y)) :)
  rw [← kept]
  exact congrArg (updateFirst _ goneOn) (dropXchg_frags _)

theorem xchgInto_regs : (xchgInto v x y).regs = (writeRegs v (y.exec &&& ((fragById v x.frag).getD {}).frag) 0 (received x y)).regs :=
  dropXchg_regs _

theorem fragById_xchgInto : fragById (xchgInto v x y) x.frag = (fragById v x.frag).map goneOn := by
  rw [fragById, xchgInto_frags]
  exact find?_updateFirst_self (p := fun f => f.id == x.frag) (g := goneOn) (fun _ => rfl) _

variable {v x y}

/-- A register of the run takes the partner's row in the lanes of the partner's EXEC and the fragment's FRAG. -/
theorem laneAt_xchgInto (whole : y.snapshot.length = x.count) (regs : v.regs.length = 256) (fits : x.dest + x.count ≤ 256) {k l : Nat}
    (hk : k < x.count) (hl : l < 32) : laneAt (regOf (xchgInto v x y) (x.dest + k)) l =
      if inMask (y.exec &&& ((fragById v x.frag).getD {}).frag) l then laneAt (y.snapshot.getD k []) l
      else laneAt (regOf v (x.dest + k)) l := by
  have written := regOf_writeRegs_of_mem (a := y.exec &&& ((fragById v x.frag).getD {}).frag) (z := 0) (w := v)
    (received_regs x y ▸ nodup_regRun _ _) (mem_received (whole ▸ hk)) (by dsimp only; omega)
  have zeroed : inMask 0 l = false := by simp [inMask]
  rw [regOf, xchgInto_regs, ← regOf, written, laneAt_writeRow _ _ _ _ _ hl, zeroed, if_neg Bool.false_ne_true]

theorem regOf_xchgInto (whole : y.snapshot.length = x.count) {r : Nat} (outside : r < x.dest ∨ x.dest + x.count ≤ r) :
    regOf (xchgInto v x y) r = regOf v r := by
  rw [regOf, xchgInto_regs, ← regOf, writeRegs_other]
  rw [received_regs, whole, regRun, List.mem_map]
  rintro ⟨k, hk, rfl⟩
  have := List.mem_range.1 hk
  omega

end

/-! ## XCHG_MATCH (R199) -/

/-- Both warps with the runs exchanged. -/
def exchanged (s : State) (i j : Nat) (x y : Xchg) : State := onWarp (onWarp s i fun v => xchgInto v x y) j fun u => xchgInto u y x

section
variable {s : State} {i j : Nat} {x y : Xchg}

theorem execXchgMatch_exchanges {core slot core' slot' : Nat} (hi : warpAt s core slot = i) (hj : warpAt s core' slot' = j) (apart : i ≠ j)
    (hx : (s.warps.getD i {}).xchg = some x) (hy : (s.warps.getD j {}).xchg = some y)
    (hxy : xchgPartner s (s.warps.getD i {}) x.region = some j) (hyx : xchgPartner s (s.warps.getD j {}) y.region = some i)
    (ordinal : x.ordinal = y.ordinal) (count : x.count = y.count) :
    execXchgMatch core slot core' slot' s = .next (exchanged s i j x y) := by
  simp only [execXchgMatch, hi, hj, hx, hy, hxy, hyx, ordinal, count, bne_iff_ne.2 apart, beq_self_eq_true, Bool.and_self, if_true]
  rfl

variable (apart : i ≠ j)
include apart

theorem exchanged_left (hi : i < s.warps.length) : (exchanged s i j x y).warps.getD i {} = xchgInto (s.warps.getD i {}) x y := by
  simp [exchanged, List.getD, apart.symm, hi]

theorem exchanged_right (hj : j < s.warps.length) : (exchanged s i j x y).warps.getD j {} = xchgInto (s.warps.getD j {}) y x := by
  simp [exchanged, List.getD, apart, hj]

end

/-! ## An XCHG whose partner waits -/

section
variable {s : State} {x y : Xchg} {j : Nat} (apart : j ≠ s.cur.warp)
include apart

theorem partner_exchanged (hj : j < s.warps.length) :
    (exchanged (waitingFor x s) s.cur.warp j x y).warps.getD j {} = xchgInto (s.warps.getD j {}) y x := by
  rw [← getD_waitingFor_of_ne x apart]
  exact exchanged_right apart.symm (by simpa [waitingFor] using hj)

variable (hi : Issuing s)
include hi

theorem me_exchanged : me (exchanged (waitingFor x s) s.cur.warp j x y) = xchgInto (waitingWarp x s) x y := by
  rw [← me_waitingFor x hi]
  exact exchanged_left apart.symm (by simpa [waitingFor] using hi.warp)

/-- The warp that has waited with `x` stands past its XCHG once it has received its run. -/
theorem fr_exchanged (mine : x.frag = (fr s).id) (first : indexWhere (fun f => f.id == (fr s).id) (me s).frags = s.cur.frag) :
    fr (exchanged (waitingFor x s) s.cur.warp j x y) = goneOn { fr s with wait := .xchg } := by
  have frag := getElem?_updateFirst_indexWhere (fun f => f.id == (fr s).id) goneOn (waitingWarp x s).frags
  rw [getElem?_indexWhere, ← fragById, fragById_waitingWarp x hi first, indexWhere_waitingWarp x hi first] at frag
  rw [fr, me_exchanged apart hi, xchgInto_frags, mine]
  exact congrArg (Option.getD · {}) frag

theorem execXchgMatch_waitingFor (here : warpAt s (me s).core (me s).slot = s.cur.warp)
    (there : warpAt s (s.warps.getD j {}).core (s.warps.getD j {}).slot = j) (waits : (s.warps.getD j {}).xchg = some y)
    (partner : xchgPartner s (me s) x.region = some j) (back : xchgPartner s (s.warps.getD j {}) y.region = some s.cur.warp)
    (ordinal : x.ordinal = y.ordinal) (count : x.count = y.count) :
    execXchgMatch (me s).core (me s).slot (s.warps.getD j {}).core (s.warps.getD j {}).slot (waitingFor x s) =
      .next (exchanged (waitingFor x s) s.cur.warp j x y) := by
  have present := presence_waitingFor x hi
  have mine : (waitingFor x s).warps.getD s.cur.warp {} = waitingWarp x s := me_waitingFor x hi
  have theirs := getD_waitingFor_of_ne x apart
  exact execXchgMatch_exchanges ((warpAt_congr present _ _).trans here) ((warpAt_congr present _ _).trans there) apart.symm
    (by rw [mine]; rfl) (by rw [theirs, waits]) (by rw [mine, partner_waitingFor x hi (v := waitingWarp x s) (w := me s) rfl rfl, partner])
    (by rw [theirs, partner_waitingFor x hi rfl rfl, back]) ordinal count

end

/-- Settles O21: an XCHG leaves `waitingFor`; XCHG_MATCH leaves `exchanged`, of any two warps that wait or of this one and its partner. -/
theorem exchanges : Obligations.Exchanges := by
  refine ⟨fun d e k n s hi inside => ⟨execXchg_alone inside, fun i partner => ?waits⟩, ?completes, ?exchanges⟩
  case waits =>
    have warp := me_waitingFor (xchgOf d e k n i s) hi
    have frag := fr_waitingFor (xchgOf d e k n i s) hi
    refine ⟨_, execXchg_waits hi inside partner, by rw [frag], by rw [frag], fun r => by rw [warp]; rfl, rfl, xchgOf d e k n i s, ?_⟩
    exact ⟨by rw [warp]; rfl, rfl, rfl, rfl, rfl⟩
  case completes =>
    intro d e k n s j y g hi count u inside fits here there apart first found partner back waits ordinal length whole regs fits'
    let x := xchgOf d e k n j s
    have warp := me_exchanged (x := x) (y := y) apart hi
    have other := partner_exchanged (x := x) (y := y) apart (xchgPartner_lt partner)
    have frag := fr_exchanged (x := x) (y := y) apart hi rfl first
    have receiver : fragById (waitingWarp x s) x.frag = some { fr s with wait := .xchg } := fragById_waitingWarp x hi first
    have run : x.snapshot.length = y.count := by simp [x, xchgOf, regRun, length, count]
    refine ⟨_, _, execXchg_waits hi inside partner, execXchgMatch_waitingFor apart hi here there waits partner back ordinal length.symm,
      by rw [frag]; rfl, by rw [frag]; rfl, by rw [warp, xchgInto_xchg], ?gone, by rw [other, xchgInto_xchg],
      fun i l hk hl => ⟨?mine, ?theirs⟩, fun r hr => ?kept, fun r hr => ?kept', rfl⟩
    case gone => rw [other, fragById_xchgInto, found]; rfl
    case mine =>
      rw [lane, warp]
      refine (laneAt_xchgInto (v := waitingWarp x s) (x := x) whole hi.regs fits hk hl).trans ?_
      rw [receiver]; rfl
    case theirs =>
      have sent : x.snapshot.getD i [] = regOf (me s) (e.toNat + i) := getD_map_regRun (regOf (me s)) e.toNat hk []
      rw [other, laneAt_xchgInto run regs (length ▸ fits') (length ▸ hk) hl, found, sent]
      rfl
    case kept => rw [warp]; exact regOf_xchgInto (v := waitingWarp x s) (x := x) whole hr
    case kept' => rw [other]; exact regOf_xchgInto run (length ▸ hr)
  case exchanges =>
    intro core slot core' slot' s x y i j v u from' hi hj apart hx hy hxy hyx ordinal count whole whole' regs regs' fits fits'
    have left := exchanged_left (x := x) (y := y) apart hi
    have right := exchanged_right (x := x) (y := y) apart hj
    refine ⟨_, execXchgMatch_exchanges rfl rfl apart hx hy hxy hyx ordinal count, by rw [left, xchgInto_xchg], by rw [right, xchgInto_xchg],
      fun k l hk hl => ⟨?left, ?right⟩, fun r hr => ?kept, fun r hr => ?kept', rfl⟩
    case left => rw [left]; exact laneAt_xchgInto (whole'.trans count.symm) regs fits hk hl
    case right => rw [right]; exact laneAt_xchgInto (whole.trans count) regs' fits' (count ▸ hk) hl
    case kept => rw [left]; exact regOf_xchgInto (whole'.trans count.symm) hr
    case kept' => rw [right]; exact regOf_xchgInto (whole.trans count) hr

end Sys2Proof.Machine
end
